-- ==== Sys2Proof/Word.lean ====
section
/-! DEFINITION. Words, the four clusters, and the type of the association lists the whole model keeps its sparse data in. -/

namespace Sys2Proof

abbrev Byte := BitVec 8
abbrev W16 := BitVec 16
abbrev W32 := BitVec 32
abbrev W64 := BitVec 64
/-- A vector register, or an entry of a wide queue (R147, R156). -/
abbrev Vec := BitVec 2048
/-- A lane address: the byte offset of a lane in instruction memory (R196). -/
abbrev LaneAddr := BitVec 17

/-- The four issue clusters of a core (R5). -/
inductive Cl where
  | K | L | C | S
  deriving DecidableEq, Repr

/-- K, L, C, S numbered 0 to 3, as TRAPCAUSE.FIRST numbers them (R373). -/
def Cl.code : Cl → Nat
  | .K => 0
  | .L => 1
  | .C => 2
  | .S => 3

/-- Sparse data by key: rising keys, one entry a key. -/
abbrev Map (α : Type) := List (Nat × α)

end Sys2Proof
end

