-- ==== Sys2Proof/Config.lean ====
section
/-! DEFINITION. What the package fixes, and the free values: constants without a body, of which nothing can be proved but that
they are one value each. Each is named in the assumption log. -/

namespace Sys2Proof.Config
open Sys2Proof

/-! ## The package (00 R4; 01 R39) -/

def bays : Nat := 288
def cores : Nat := 1152
def sliceSize : Nat := 0x400000
def sliceEnd : Nat := 0x48000000
def ctlBase : Nat := 0x100000000
def ctlEnd : Nat := 0x110000000
def hbmBase : Nat := 0x10000000000
def hbmEnd : Nat := 0x19000000000
def ddrBase : Nat := 0x20000000000
def hostBase : Nat := 0x40000000000
def hostEnd : Nat := 0x60000000000

/-! ## Free values -/

/-- A byte of the key that the management complex loads into a key slot (01 R24): the slot, which load of it, and the byte's place. -/
opaque keyByte (slot load i : Nat) : Byte

/-- Whether an access uses a cached word that memory no longer holds (01 R30): the count of free values used, the context, and the page's
address or the word's. -/
opaque useCached (n ctx va : Nat) : Bool

/-- A slice line's tag where it is written during a sweep of its context (02 R64): true keeps the writer's tag. -/
opaque sweepKeeps (n line : Nat) : Bool

/-- The signature of a batch under the package's key (15). -/
opaque sign (message : List Byte) : List Byte

/-- The answer to an SPDM request (17). -/
opaque spdmAnswer (message : List Byte) : List Byte

/-- The one of the four ports of a direction that a stream is bound to (05 R136), from the core and the home. -/
opaque streamPort (core home : Nat) : Nat

/-- The die that a stream's requests come in at (05 R136), from their package, their core and their class. -/
opaque ingressDie (src core cls : Nat) : Nat

/-- Where a member of a collective has the tile that another member contributes to: the context, the group, the package and the tile
(05 R139). -/
opaque destTile (ctx group pkg tile : Nat) : Nat

/-- The rank of the package that a leaf of a reduce-scatter names, where its card and length leave several: no leaf holds the members' mask
(15 R411). -/
opaque leafRank (pkg group n : Nat) : Nat

/-- A byte that an instruction reads and this model does not hold: the count of free values used, and its place. -/
opaque farByte (n i : Nat) : Byte

/-- How many scheduled flits a router demotes while a circuit-mode job runs (02 R54): the count of free values used, and the router. -/
opaque demoted (n router : Nat) : Nat

/-- The DDR5 population: DIMMs a channel and their capacity, as the package was built (02 R50). -/
opaque ddrPopulation : Nat

/-- The boot steps that pass on the first start, and the configuration image (17 R438, R439). -/
opaque bootPassed : W16
opaque bootImage : List Byte

/-- The outcome the management complex gives a request whose outcome the manual leaves to it: the count of free values used. -/
opaque choice (n : Nat) : Nat

end Sys2Proof.Config
end

