-- ==== Sys2Proof/Syntax.lean ====
section
/-! DEFINITION. The instructions and events of spec/opcode_table.json: one constructor a row. The first 225 rows are lanes
(08 R203 to R205); the last 110 have no encoding: each is an action of another agent of the package, or of the world outside
it, and what comes from outside stands in the constructor's arguments. -/

namespace Sys2Proof

/-- A request packet, OPK 0 (16 R415, R416). -/
structure RemoteReq where
  src : Nat
  dst : Nat
  core : Nat
  tag : Nat
  sInc : W16
  rInc : W16
  ctx : W16
  addr : Nat
  op : Nat
  striped : Bool
  len : Nat
  aop : Nat
  key : Nat
  cls : Nat
  data : List Byte
  deriving DecidableEq, Repr

/-- A response packet, OPK 1 (16 R416). -/
structure RemoteResp where
  src : Nat
  dst : Nat
  core : Nat
  tag : Nat
  sInc : W16
  rInc : W16
  ctx : W16
  status : Nat
  data : List Byte
  deriving DecidableEq, Repr

/-- A contribution packet, OPK 5 (16 R416). `idx` is the source index, or COUNT for a prefix. -/
structure Contrib where
  src : Nat
  tag : Nat
  sInc : W16
  rInc : W16
  ctx : W16
  group : Nat
  op : Nat
  flagged : Bool
  isPrefix : Bool
  place : Bool
  idx : Nat
  dst : Nat
  mask : W64
  ilen : Nat
  olen : Nat
  tile : List W32
  deriving DecidableEq, Repr

/-- The payload of an Ultra Ethernet packet, with its index in its message (16 R429). -/
structure UePart where
  index : Nat
  bytes : List Byte
  deriving DecidableEq, Repr

/-- A scrubber's finding at the unit it visits (02 R58 to R60): what the code words of the unit decode to. -/
inductive Ecc where
  | clean
  | corrected
  | uncorrectable
  deriving DecidableEq, Repr

/-- The storage unit a scrubber visits (02 R57, R69). -/
inductive StorageUnit where
  | sliceData (pa : Nat)
  | sliceTag (pa : Nat)
  | slotRow (core row : Nat)
  | queueEntry (core q : Nat)
  | cueFifo (core f : Nat)
  | regFile (core : Nat)
  | instrMem (core frame : Nat)
  | constBank (core word : Nat)
  | callboardTask (die idx : Nat)
  | callboardNode (die idx : Nat)
  | callboardScope (die idx : Nat)
  | combining (die idx : Nat)
  | slotEntry (bay bank slot : Nat)
  | transCache (bay : Nat)
  | paramCache (bay idx : Nat)
  deriving DecidableEq, Repr

/-- How a running job ends badly (04 R102). -/
inductive JobEnd where
  | peerGone (home : Nat) (va : Nat)
  | timeout (home : Nat) (va : Nat)
  | range (home : Nat) (va : Nat)
  | key (home : Nat) (va : Nat)
  | foreign            -- a member's contribution carries another OP, ILEN or mask (10 R284)
  | aborted            -- COLLECTIVE_ABORTED (05 R144)
  | poison (pa : Nat)  -- poisoned data met (02 R66)
  deriving DecidableEq, Repr

/-- The instruction set: one constructor a row of the table. -/
inductive Instr where
  -- K lanes
  | add (d : BitVec 5) (a : BitVec 5) (b : BitVec 5)
  | sub (d : BitVec 5) (a : BitVec 5) (b : BitVec 5)
  | and (d : BitVec 5) (a : BitVec 5) (b : BitVec 5)
  | or (d : BitVec 5) (a : BitVec 5) (b : BitVec 5)
  | xor (d : BitVec 5) (a : BitVec 5) (b : BitVec 5)
  | sll (d : BitVec 5) (a : BitVec 5) (b : BitVec 5)
  | srl (d : BitVec 5) (a : BitVec 5) (b : BitVec 5)
  | sra (d : BitVec 5) (a : BitVec 5) (b : BitVec 5)
  | slt (d : BitVec 5) (a : BitVec 5) (b : BitVec 5)
  | sltu (d : BitVec 5) (a : BitVec 5) (b : BitVec 5)
  | min (d : BitVec 5) (a : BitVec 5) (b : BitVec 5)
  | max (d : BitVec 5) (a : BitVec 5) (b : BitVec 5)
  | minu (d : BitVec 5) (a : BitVec 5) (b : BitVec 5)
  | maxu (d : BitVec 5) (a : BitVec 5) (b : BitVec 5)
  | mul (d : BitVec 5) (a : BitVec 5) (b : BitVec 5)
  | mulh (d : BitVec 5) (a : BitVec 5) (b : BitVec 5)
  | mulhu (d : BitVec 5) (a : BitVec 5) (b : BitVec 5)
  | div (d : BitVec 5) (a : BitVec 5) (b : BitVec 5)
  | divu (d : BitVec 5) (a : BitVec 5) (b : BitVec 5)
  | rem (d : BitVec 5) (a : BitVec 5) (b : BitVec 5)
  | remu (d : BitVec 5) (a : BitVec 5) (b : BitVec 5)
  | clz (d : BitVec 5) (a : BitVec 5)
  | addi (d : BitVec 5) (a : BitVec 5) (i : BitVec 15)
  | andi (d : BitVec 5) (a : BitVec 5) (i : BitVec 15)
  | ori (d : BitVec 5) (a : BitVec 5) (i : BitVec 15)
  | xori (d : BitVec 5) (a : BitVec 5) (i : BitVec 15)
  | slli (d : BitVec 5) (a : BitVec 5) (i : BitVec 6)
  | srli (d : BitVec 5) (a : BitVec 5) (i : BitVec 6)
  | srai (d : BitVec 5) (a : BitVec 5) (i : BitVec 6)
  | slti (d : BitVec 5) (a : BitVec 5) (i : BitVec 15)
  | sltiu (d : BitVec 5) (a : BitVec 5) (i : BitVec 15)
  | lui (d : BitVec 5) (i : BitVec 20)
  | lla (d : BitVec 5) (i : BitVec 20)
  | lif (d : BitVec 5) (i : BitVec 20)
  | lit (d : BitVec 5) (a : BitVec 5) (m : BitVec 2) (n : BitVec 4)
  | kld (d : BitVec 5) (a : BitVec 5) (i : BitVec 15)
  | fadd (d : BitVec 5) (a : BitVec 5) (b : BitVec 5)
  | fsub (d : BitVec 5) (a : BitVec 5) (b : BitVec 5)
  | fmul (d : BitVec 5) (a : BitVec 5) (b : BitVec 5)
  | ffma (d : BitVec 5) (a : BitVec 5) (b : BitVec 5)
  | fmin (d : BitVec 5) (a : BitVec 5) (b : BitVec 5)
  | fmax (d : BitVec 5) (a : BitVec 5) (b : BitVec 5)
  | fcmp (d : BitVec 5) (a : BitVec 5) (b : BitVec 5) (p : BitVec 2)
  | fcvt (d : BitVec 5) (a : BitVec 5) (k : BitVec 4)
  | ldB (d : BitVec 5) (a : BitVec 5) (i : BitVec 15)
  | ldBu (d : BitVec 5) (a : BitVec 5) (i : BitVec 15)
  | ldH (d : BitVec 5) (a : BitVec 5) (i : BitVec 15)
  | ldHu (d : BitVec 5) (a : BitVec 5) (i : BitVec 15)
  | ldW (d : BitVec 5) (a : BitVec 5) (i : BitVec 15)
  | ldWu (d : BitVec 5) (a : BitVec 5) (i : BitVec 15)
  | ldD (d : BitVec 5) (a : BitVec 5) (i : BitVec 15)
  | stB (d : BitVec 5) (a : BitVec 5) (i : BitVec 15)
  | stH (d : BitVec 5) (a : BitVec 5) (i : BitVec 15)
  | stW (d : BitVec 5) (a : BitVec 5) (i : BitVec 15)
  | stD (d : BitVec 5) (a : BitVec 5) (i : BitVec 15)
  | ldAcq (d : BitVec 5) (a : BitVec 5) (z : BitVec 1) (s : BitVec 4)
  | stRel (a : BitVec 5) (b : BitVec 5) (z : BitVec 1) (s : BitVec 4)
  | bCond (k : BitVec 3) (a : BitVec 5) (b : BitVec 5) (o : BitVec 12)
  | brBq (s : BitVec 1) (q : BitVec 1) (o : BitVec 12)
  | jal (d : BitVec 5) (i : BitVec 20)
  | jalr (d : BitVec 5) (a : BitVec 5) (i : BitVec 15)
  | ovlCall (d : BitVec 5) (a : BitVec 5) (i : BitVec 15)
  | ovlRet (a : BitVec 5)
  | loop (a : BitVec 5) (e : BitVec 12)
  | loopImm (h : BitVec 5) (l : BitVec 5) (e : BitVec 12)
  | fork (d : BitVec 5) (a : BitVec 5) (b : BitVec 5)
  | join
  | qpush (d : BitVec 5) (a : BitVec 5)
  | qpop (d : BitVec 5) (a : BitVec 5)
  | spawn (d : BitVec 5) (a : BitVec 5)
  | spawnG (d : BitVec 5) (a : BitVec 5)
  | kill (a : BitVec 5)
  | scopeWait (d : BitVec 5) (a : BitVec 5)
  | weirJoin (d : BitVec 5) (a : BitVec 5)
  | weirArrive (d : BitVec 5) (a : BitVec 5) (b : BitVec 5)
  | weirDrop (d : BitVec 5) (a : BitVec 5) (b : BitVec 5)
  | weirWait (d : BitVec 5) (a : BitVec 5) (b : BitVec 5)
  | yield
  | halt
  | trap (k : BitVec 12)
  | sret
  | csrr (d : BitVec 5) (r : BitVec 12)
  | csrw (d : BitVec 5) (a : BitVec 5) (r : BitVec 12)
  | csrs (d : BitVec 5) (a : BitVec 5) (r : BitVec 12)
  | csrc (d : BitVec 5) (a : BitVec 5) (r : BitVec 12)
  | fenceAcq (s : BitVec 4)
  | fenceRel (s : BitVec 4)
  | fenceAr (s : BitVec 4)
  | fenceSc (s : BitVec 4)
  | genFence
  | tick (d : BitVec 5)
  | tickWait (a : BitVec 5)
  | treeOpen (a : BitVec 5) (b : BitVec 5)
  | treeSeal (d : BitVec 5)
  | treeNote (a : BitVec 5) (b : BitVec 5)
  | refExec (d : BitVec 5) (a : BitVec 5) (b : BitVec 5)
  | treeBisect (d : BitVec 5) (a : BitVec 5) (b : BitVec 5)
  -- L lanes
  | ldq (c : BitVec 4) (t : BitVec 5) (b : BitVec 4) (o : BitVec 12)
  | ldqWb (c : BitVec 4) (t : BitVec 5) (b : BitVec 4) (o : BitVec 12)
  | ldqS (c : BitVec 4) (d : BitVec 5) (a : BitVec 4) (b : BitVec 4)
  | ldqG (c : BitVec 4) (d : BitVec 5) (a : BitVec 4) (t : BitVec 1)
  | lLdB (c : BitVec 4) (t : BitVec 5) (b : BitVec 4) (o : BitVec 12)
  | lLdBu (c : BitVec 4) (t : BitVec 5) (b : BitVec 4) (o : BitVec 12)
  | lLdH (c : BitVec 4) (t : BitVec 5) (b : BitVec 4) (o : BitVec 12)
  | lLdHu (c : BitVec 4) (t : BitVec 5) (b : BitVec 4) (o : BitVec 12)
  | lLdW (c : BitVec 4) (t : BitVec 5) (b : BitVec 4) (o : BitVec 12)
  | lLdWu (c : BitVec 4) (t : BitVec 5) (b : BitVec 4) (o : BitVec 12)
  | lLdD (c : BitVec 4) (t : BitVec 5) (b : BitVec 4) (o : BitVec 12)
  | rldQ (c : BitVec 4) (d : BitVec 5) (a : BitVec 4) (k : BitVec 2)
  | lCp (c : BitVec 4) (d : BitVec 4) (s : BitVec 4) (l : BitVec 4) (f : BitVec 9)
  | lCp2d (c : BitVec 4) (d : BitVec 4) (s : BitVec 4) (l : BitVec 4) (f : BitVec 9)
  | lCpPb (c : BitVec 4) (s : BitVec 4)
  | cpOvl (c : BitVec 4) (f : BitVec 1) (s : BitVec 4) (l : BitVec 4) (w : BitVec 2) (k : BitVec 2) (b : BitVec 1) (p : BitVec 2)
  | lColl (c : BitVec 4) (d : BitVec 4) (s : BitVec 4) (l : BitVec 4) (f : BitVec 9)
  | lPbInv (c : BitVec 4) (s : BitVec 4) (w : BitVec 1)
  | lAdd (c : BitVec 4) (d : BitVec 5) (a : BitVec 4) (b : BitVec 4) (q : BitVec 1)
  | lSub (c : BitVec 4) (d : BitVec 5) (a : BitVec 4) (b : BitVec 4) (q : BitVec 1)
  | lMul (c : BitVec 4) (d : BitVec 5) (a : BitVec 4) (b : BitVec 4) (q : BitVec 1)
  | lAddi (c : BitVec 4) (d : BitVec 5) (a : BitVec 4) (i : BitVec 8)
  | lSlli (c : BitVec 4) (d : BitVec 5) (a : BitVec 4) (i : BitVec 6)
  | lSrli (c : BitVec 4) (d : BitVec 5) (a : BitVec 4) (i : BitVec 6)
  | laCmp (c : BitVec 4) (a : BitVec 4) (b : BitVec 4) (k : BitVec 3)
  | lCueTest (d : BitVec 4)
  | lCueNop (c : BitVec 4)
  | lBCond (c : BitVec 4) (k : BitVec 3) (o : BitVec 10) (a : BitVec 4) (b : BitVec 4)
  | lLoop (c : BitVec 4) (e : BitVec 13) (a : BitVec 4)
  | lJoin (c : BitVec 4)
  -- S lanes
  | stq (c : BitVec 4) (t : BitVec 5) (b : BitVec 4) (o : BitVec 12)
  | stqWb (c : BitVec 4) (t : BitVec 5) (b : BitVec 4) (o : BitVec 12)
  | stqS (c : BitVec 4) (d : BitVec 5) (a : BitVec 4) (b : BitVec 4)
  | stqX (c : BitVec 4) (d : BitVec 5) (a : BitVec 4) (t : BitVec 1)
  | sStB (c : BitVec 4) (t : BitVec 5) (b : BitVec 4) (o : BitVec 12)
  | sStH (c : BitVec 4) (t : BitVec 5) (b : BitVec 4) (o : BitVec 12)
  | sStW (c : BitVec 4) (t : BitVec 5) (b : BitVec 4) (o : BitVec 12)
  | sStD (c : BitVec 4) (t : BitVec 5) (b : BitVec 4) (o : BitVec 12)
  | rstQ (c : BitVec 4) (d : BitVec 5) (a : BitVec 4) (z : BitVec 2) (k : BitVec 2)
  | ramo (c : BitVec 4) (d : BitVec 5) (a : BitVec 4) (b : BitVec 4) (k : BitVec 2) (o : BitVec 4)
  | sCp (c : BitVec 4) (d : BitVec 4) (s : BitVec 4) (l : BitVec 4) (f : BitVec 9)
  | sCp2d (c : BitVec 4) (d : BitVec 4) (s : BitVec 4) (l : BitVec 4) (f : BitVec 9)
  | sCpPb (c : BitVec 4) (s : BitVec 4)
  | sColl (c : BitVec 4) (d : BitVec 4) (s : BitVec 4) (l : BitVec 4) (f : BitVec 9)
  | sPbInv (c : BitVec 4) (s : BitVec 4) (w : BitVec 1)
  | sAdd (c : BitVec 4) (d : BitVec 5) (a : BitVec 4) (b : BitVec 4) (q : BitVec 1)
  | sSub (c : BitVec 4) (d : BitVec 5) (a : BitVec 4) (b : BitVec 4) (q : BitVec 1)
  | sMul (c : BitVec 4) (d : BitVec 5) (a : BitVec 4) (b : BitVec 4) (q : BitVec 1)
  | sAddi (c : BitVec 4) (d : BitVec 5) (a : BitVec 4) (i : BitVec 8)
  | sSlli (c : BitVec 4) (d : BitVec 5) (a : BitVec 4) (i : BitVec 6)
  | sSrli (c : BitVec 4) (d : BitVec 5) (a : BitVec 4) (i : BitVec 6)
  | amo (c : BitVec 4) (d : BitVec 5) (a : BitVec 4) (b : BitVec 4) (o : BitVec 4)
  | amoG (c : BitVec 4) (d : BitVec 4) (a : BitVec 4) (b : BitVec 4) (o : BitVec 4)
  | dgrpOpen (c : BitVec 4) (d : BitVec 4) (a : BitVec 4) (b : BitVec 4)
  | dgrpClose (c : BitVec 4) (d : BitVec 4)
  | sCueTest (d : BitVec 4)
  | sCueNop (c : BitVec 4)
  | sBCond (c : BitVec 4) (k : BitVec 3) (o : BitVec 10) (a : BitVec 4) (b : BitVec 4)
  | sLoop (c : BitVec 4) (e : BitVec 13) (a : BitVec 4)
  | sJoin (c : BitVec 4)
  -- C lanes
  | vadd (c : BitVec 4) (d : BitVec 5) (a : BitVec 5) (b : BitVec 5) (p : BitVec 3) (t : BitVec 3)
  | vsub (c : BitVec 4) (d : BitVec 5) (a : BitVec 5) (b : BitVec 5) (p : BitVec 3) (t : BitVec 3)
  | vmul (c : BitVec 4) (d : BitVec 5) (a : BitVec 5) (b : BitVec 5) (p : BitVec 3) (t : BitVec 3)
  | vfma (c : BitVec 4) (d : BitVec 5) (a : BitVec 5) (b : BitVec 5) (p : BitVec 3) (t : BitVec 3)
  | vmin (c : BitVec 4) (d : BitVec 5) (a : BitVec 5) (b : BitVec 5) (p : BitVec 3) (t : BitVec 3)
  | vmax (c : BitVec 4) (d : BitVec 5) (a : BitVec 5) (b : BitVec 5) (p : BitVec 3) (t : BitVec 3)
  | vabs (c : BitVec 4) (d : BitVec 5) (a : BitVec 5) (p : BitVec 3) (t : BitVec 3)
  | vneg (c : BitVec 4) (d : BitVec 5) (a : BitVec 5) (p : BitVec 3) (t : BitVec 3)
  | vand (c : BitVec 4) (d : BitVec 5) (a : BitVec 5) (b : BitVec 5) (p : BitVec 3) (t : BitVec 3)
  | vor (c : BitVec 4) (d : BitVec 5) (a : BitVec 5) (b : BitVec 5) (p : BitVec 3) (t : BitVec 3)
  | vxor (c : BitVec 4) (d : BitVec 5) (a : BitVec 5) (b : BitVec 5) (p : BitVec 3) (t : BitVec 3)
  | vnot (c : BitVec 4) (d : BitVec 5) (a : BitVec 5) (p : BitVec 3) (t : BitVec 3)
  | vshl (c : BitVec 4) (d : BitVec 5) (a : BitVec 5) (b : BitVec 5) (p : BitVec 3) (t : BitVec 3)
  | vshr (c : BitVec 4) (d : BitVec 5) (a : BitVec 5) (b : BitVec 5) (p : BitVec 3) (t : BitVec 3)
  | vsra (c : BitVec 4) (d : BitVec 5) (a : BitVec 5) (b : BitVec 5) (p : BitVec 3) (t : BitVec 3)
  | vcmpEq (c : BitVec 4) (d : BitVec 5) (a : BitVec 5) (b : BitVec 5) (p : BitVec 3) (t : BitVec 3)
  | vcmpNe (c : BitVec 4) (d : BitVec 5) (a : BitVec 5) (b : BitVec 5) (p : BitVec 3) (t : BitVec 3)
  | vcmpLt (c : BitVec 4) (d : BitVec 5) (a : BitVec 5) (b : BitVec 5) (p : BitVec 3) (t : BitVec 3)
  | vcmpLe (c : BitVec 4) (d : BitVec 5) (a : BitVec 5) (b : BitVec 5) (p : BitVec 3) (t : BitVec 3)
  | vsel (c : BitVec 4) (d : BitVec 5) (a : BitVec 5) (b : BitVec 5) (e : BitVec 3) (t : BitVec 3)
  | vmov (c : BitVec 4) (d : BitVec 5) (a : BitVec 5) (p : BitVec 3) (t : BitVec 3)
  | vsplat (c : BitVec 4) (d : BitVec 5) (a : BitVec 5) (i : BitVec 1) (p : BitVec 3) (t : BitVec 3)
  | vfmaQs (c : BitVec 4) (d : BitVec 5) (m : BitVec 5) (q : BitVec 5) (p : BitVec 3) (t : BitVec 3)
  | vcvt (c : BitVec 4) (d : BitVec 5) (a : BitVec 5) (s : BitVec 3) (h : BitVec 2) (p : BitVec 3) (t : BitVec 3)
  | vquant (c : BitVec 4) (d : BitVec 5) (a : BitVec 5) (k : BitVec 1) (g : BitVec 2) (h : BitVec 3)
  | vdequant (c : BitVec 4) (d : BitVec 5) (a : BitVec 5) (k : BitVec 1) (g : BitVec 2) (h : BitVec 3)
  | vredAdd (c : BitVec 4) (d : BitVec 5) (a : BitVec 5) (p : BitVec 3) (t : BitVec 3)
  | vredMax (c : BitVec 4) (d : BitVec 5) (a : BitVec 5) (p : BitVec 3) (t : BitVec 3)
  | vredMin (c : BitVec 4) (d : BitVec 5) (a : BitVec 5) (p : BitVec 3) (t : BitVec 3)
  | vperm (c : BitVec 4) (d : BitVec 5) (a : BitVec 5) (b : BitVec 5) (p : BitVec 3) (t : BitVec 3)
  | vrot (c : BitVec 4) (d : BitVec 5) (a : BitVec 5) (b : BitVec 5) (p : BitVec 3) (t : BitVec 3)
  | vbcast (c : BitVec 4) (d : BitVec 5) (a : BitVec 5) (b : BitVec 5) (p : BitVec 3) (t : BitVec 3)
  | vpart (c : BitVec 4) (d : BitVec 5) (a : BitVec 5) (b : BitVec 5) (p : BitVec 3)
  | vcount (c : BitVec 4) (d : BitVec 5) (b : BitVec 5) (p : BitVec 3)
  | vcompact (c : BitVec 4) (d : BitVec 5) (a : BitVec 5) (b : BitVec 5) (p : BitVec 3) (t : BitVec 3)
  | vexpand (c : BitVec 4) (d : BitVec 5) (a : BitVec 5) (b : BitVec 5) (p : BitVec 3) (t : BitVec 3)
  | vexp2 (c : BitVec 4) (d : BitVec 5) (a : BitVec 5) (p : BitVec 3)
  | vlog2 (c : BitVec 4) (d : BitVec 5) (a : BitVec 5) (p : BitVec 3)
  | vrcp (c : BitVec 4) (d : BitVec 5) (a : BitVec 5) (p : BitVec 3)
  | vrsqrt (c : BitVec 4) (d : BitVec 5) (a : BitVec 5) (p : BitVec 3)
  | vpop (c : BitVec 4) (d : BitVec 5) (q : BitVec 5) (p : BitVec 3) (t : BitVec 3)
  | vpush (c : BitVec 4) (q : BitVec 5) (a : BitVec 5)
  | vany (c : BitVec 4) (a : BitVec 5) (p : BitVec 3)
  | pand (c : BitVec 4) (d : BitVec 5) (a : BitVec 5) (b : BitVec 5)
  | por (c : BitVec 4) (d : BitVec 5) (a : BitVec 5) (b : BitVec 5)
  | pxor (c : BitVec 4) (d : BitVec 5) (a : BitVec 5) (b : BitVec 5)
  | pnot (c : BitVec 4) (d : BitVec 5) (a : BitVec 5)
  | cadd (c : BitVec 4) (d : BitVec 5) (a : BitVec 5) (b : BitVec 5)
  | csub (c : BitVec 4) (d : BitVec 5) (a : BitVec 5) (b : BitVec 5)
  | cmul (c : BitVec 4) (d : BitVec 5) (a : BitVec 5) (b : BitVec 5)
  | caddi (c : BitVec 4) (d : BitVec 5) (a : BitVec 5) (i : BitVec 11)
  | cslli (c : BitVec 4) (d : BitVec 5) (a : BitVec 5) (i : BitVec 6)
  | csrli (c : BitVec 4) (d : BitVec 5) (a : BitVec 5) (i : BitVec 6)
  | cli (c : BitVec 4) (d : BitVec 5) (i : BitVec 11)
  | cBCond (c : BitVec 4) (k : BitVec 3) (o : BitVec 9) (a : BitVec 5) (b : BitVec 4)
  | cLoop (c : BitVec 4) (a : BitVec 5) (e : BitVec 11)
  | cJoin (c : BitVec 4)
  | mlease (c : BitVec 4)
  | mrel (c : BitVec 4)
  | mma (c : BitVec 4) (s : BitVec 3) (a : BitVec 3) (b : BitVec 3) (i : BitVec 1) (j : BitVec 1) (u : BitVec 1) (k : BitVec 3)
  | mmaV (c : BitVec 4) (s : BitVec 3) (g : BitVec 3) (b : BitVec 3) (j : BitVec 1) (k : BitVec 3) (f : BitVec 3) (e : BitVec 3)
  | mzero (c : BitVec 4) (s : BitVec 3)
  | macc (c : BitVec 4) (s : BitVec 3) (a : BitVec 3) (b : BitVec 3)
  | mdrain (c : BitVec 4) (s : BitVec 3) (a : BitVec 3) (i : BitVec 1) (f : BitVec 2) (r : BitVec 1)
  | mload (c : BitVec 4) (s : BitVec 3) (a : BitVec 3) (i : BitVec 1) (r : BitVec 1)
  | mpatch (c : BitVec 4) (s : BitVec 3) (r : BitVec 3) (v : BitVec 5) (p : BitVec 3) (h : BitVec 1)
  | mpeek (c : BitVec 4) (s : BitVec 3) (r : BitVec 3) (v : BitVec 5) (p : BitVec 3) (h : BitVec 1)
  | mstat (c : BitVec 4) (d : BitVec 4)
  -- events of the core, the array and the copy engine
  | fetchLine (core : Nat) (cl : Cl)
  | syncLineIssue (core : Nat)
  | laneComplete (core : Nat) (cl : Cl)
  | taskStart (core : Nat)
  | taskRetire (core : Nat)
  | leaseBoundReached (bay : Nat)
  | leaseRearbitration (bay : Nat)
  | matrixCommandComplete (core : Nat) (differ : Option (BitVec 15))
  | jobAccept (bay : Nat)
  | jobComplete (bay : Nat) (seq : W32)
  | jobFail (bay : Nat) (seq : W32) (how : JobEnd)
  | failureReport (core : Nat) (cl : Cl)
  | sluiceRefill (core : Nat) (q : Nat)
  -- atomic groups
  | dgrpOpenTake (core : Nat) (unit : Nat)
  | dgrpUpdateArrive (core : Nat)
  | dgrpUpdateResend (core : Nat)
  | dgrpCloseArrive (core : Nat) (unit : Nat)
  -- the pod
  | remoteRequest (req : RemoteReq)
  | remoteResponse (resp : RemoteResp)
  | remoteTimeout (core : Nat) (tag : Nat)
  | peerStateUpdate (pkg : Nat) (state : BitVec 2) (inc : W16)
  | dieClockBeat (die : Nat) (dst : Nat)
  | crossDieApply (die : Nat) (src : Nat)
  | contribution (p : Contrib)
  | flaggedTile (p : Contrib)
  | collectiveAbort (src : Nat) (ctx : W16) (group : Nat) (mask : W64)
  | abortAck (src : Nat) (ctx : W16) (group : Nat)
  -- the link
  | flitReceive (port : Nat) (flit : BitVec 1024) (parity : BitVec 80)
  | linkAck (port : Nat) (seq : Byte)
  | linkParityRequest (port : Nat) (seq : Byte) (round : BitVec 2)
  | linkParityAnswer (port : Nat) (seq : Byte) (round : BitVec 2) (symbols : BitVec 160)
  | linkReplayRequest (port : Nat) (seq : Byte)
  | parityRequestTimeout (port : Nat)
  | ackIdleTimeout (port : Nat)
  | bulkFloorFlit (port : Nat)
  | laneLockLoss (port : Nat)
  | linkTrainingComplete (port : Nat) (inc : W16)
  | portDown (port : Nat)
  | uePacketReceive (endpoint : Nat) (peer : Nat) (tag : Option W64) (payload : UePart) (last : Bool)
  | ueMessageComplete (endpoint : Nat) (recv : Bool) (slot : Nat) (status : BitVec 2)
  -- callboards and scopes
  | scopeCreate (die : Nat)
  | taskDispatch (die : Nat)
  | nodeSlotAssign (die : Nat)
  | killPoint (core : Nat)
  | killForward (scope : W16) (ctx : W16)
  | curtainWrite (scope : W16)
  | agePromotion (graph : Nat) (node : Nat)
  | nodeReleaseTime (graph : Nat) (node : Nat)
  | deadlineStall
  | frameTick
  | autoPark (die : Nat)
  | graphParked (graph : Nat)
  | autoUnpark (die : Nat)
  | parkEscalation (core : Nat)
  | runLimit (core : Nat)
  | cbLaunch (die : Nat) (arg : BitVec 56)
  | cbResume (die : Nat) (arg : BitVec 56)
  | cbPark (die : Nat) (arg : BitVec 56)
  | cbUnpark (die : Nat) (arg : BitVec 56)
  | cbKill (die : Nat) (arg : BitVec 56)
  -- traps
  | coreStop (core : Nat)
  | cutWrite (core : Nat)
  | handlerImageLoaded (core : Nat)
  | frameReloadComplete (core : Nat)
  -- migration and translation
  | migrationReply (status : Byte)
  | migrationFlipComplete
  | migrationTimeout
  | pageReclaim (seq : W32) (ctx : W16) (va : W64) (sz : BitVec 4)
  | pageReclaimComplete
  | xinvPage (ctx : W16) (vpn : BitVec 44)
  | xinvContext (ctx : W16)
  | xinvAll
  | xinvKey (key : BitVec 10)
  | xinvAccept
  | xinvComplete
  | tagSweep (die : Nat) (ctx : W16)
  | tagSweepAccept (die : Nat)
  | tagSweepComplete (die : Nat)
  -- storage
  | slotTableSwap (die : Nat)
  | scrubVisit (unit : StorageUnit) (found : Ecc)
  | scrubForced (bay : Nat) (bank : Nat) (found : Ecc)
  | patrolScrub (pa : Nat) (found : Ecc)
  | sliceWake (bay : Nat)
  | powerState (seq : W32) (target : BitVec 2) (die : BitVec 2) (bay : BitVec 7) (state : BitVec 2)
  | selfRefreshEntry
  | selfRefreshExit
  -- Erxus
  | leafAppend (core : Nat) (cl : Cl)
  | signatureBatch (die : Nat)
  -- the host
  | doorbell (seq : W32)
  | ringRestart (up : Bool) (value : W64)
  | endpointCreate (seq : W32) (ctx : W16) (logSend : BitVec 4) (logRecv : BitVec 4) (sendVa : W64) (recvVa : W64) (peerVa : W64) (peers : BitVec 17)
  | endpointDestroy (seq : W32) (ctx : W16) (id : BitVec 10)
  | signatureRingSet (seq : W32) (ring : W64) (log : BitVec 4) (consumed : W64)
  | debugStop (seq : W32) (core : BitVec 11)
  | hostLaunch (seq : W32) (ctx : W16) (va : W64) (die : BitVec 2)
  | hostResume (seq : W32) (ctx : W16) (va : W64) (die : BitVec 2)
  | hostKill (seq : W32) (ctx : W16) (scope : W16)
  | callbackAcknowledge (seq : W32) (ctx : W16) (va : W64) (node : BitVec 12)
  | ringRequestMalformed (seq : W32) (op : BitVec 12)
  | hostPcieAccess (link : BitVec 1) (write : Bool) (pa : Nat) (data : List Byte)
  | packageReset (passed : W16) (image : List Byte)
  -- registers and the remaining rows
  | qcfgWrite (core : Nat) (q : Nat) (value : W64)
  | loopCsrWrite (core : Nat) (level : BitVec 3) (value : W64)
  | registerWrite (pa : Nat) (size : Nat) (value : W64)
  | flitBoundary (port : Nat)
  | circuitInjectionTimeout (bay : Nat)
  | pcieLinkStateChange (up : Bool)
  | uePacketAcknowledge (endpoint : Nat) (packet : Nat)
  | spdmRequest (msg : List Byte)
  | powerTransitionComplete (target : BitVec 2) (unit : Nat)
  deriving DecidableEq, Repr

end Sys2Proof
end

