-- ==== Sys2Proof/Machine/State.lean ====
section
/-! DEFINITION. The state of one Valnar package: everything the manual gives the machine, as plain data, and its value at reset. -/

namespace Sys2Proof.Machine
open Sys2Proof

/-- No step of this model faults: where the manual names a trap, the step takes it. -/
inductive Fault where
  deriving DecidableEq, Repr

inductive Refusal where
  /-- Raised only by an arm of `exec` that has no meaning yet. Safe: nothing follows from it. -/
  | notModelled (mnemonic : String)
  deriving DecidableEq, Repr

/-- Trap causes (14 R372). -/
inductive Cause where
  | laneKind | lineKind | illegalOp | priv | translation | permission | format | align | watch | understudy
  | uncorrectable | sluiceQuota | hazardCheck | nondet | lease | migration | peerGone | fabricError | killed
  | timetableSlip | break | queueProtocol | collectiveAborted
  deriving DecidableEq, Repr

/-- A cause with what goes beside it into the cut: TRAPINFO, LSEQ and the word at header offset 80 (14 R377). `next` : the lane after a
`trap`, where its cluster's PC stands (09 R252). -/
structure Trap where
  cause : Cause
  info : W64
  lseq : BitVec 48 := 0
  job : W64 := 0
  next : Option LaneAddr := none
  deriving DecidableEq, Repr

/-- Why an access is not performed, or a lane does not issue, now: it waits; its check fails with a cause; a watch region matches its
read; its page belongs to the host; the slice it reaches is asleep; it meets poison at a line. -/
inductive Halt where
  | wait
  | trap (c : Cause) (info : W64)
  | watch (info : W64) (hits : List Nat)
  | stall (ctx : W16) (va : Nat) (base : Nat) (leaf : Nat)
  | wake (bay : Nat)
  | poison (ctx : W16) (pa : Nat)
  deriving DecidableEq, Repr

/-! ## The core -/

/-- One routed lane waiting in an issue queue (06 R149, 14 R378). `sync` : the lane is its cluster's first in the SYNC line numbered `line`,
`later` a further one; `loops` : the loop state fetch held when it routed the lane (09 R243). `mark` : no lane at all, but the place in S of a `tree.note`
routed in K (15 R394), with the note's record once K has issued it. -/
structure Entry where
  word : W32
  addr : LaneAddr
  lit : Option W32 := none
  cont : List W64 := []
  sync : Bool := false
  later : Bool := false
  line : Nat := 0
  loops : W64 × W64 := (0, 0)
  mark : Option (List Byte) := none
  deriving DecidableEq, Repr

/-- What an issued lane is still waiting for (03 R81). -/
inductive FlightKind where
  | sync
  | job (index : BitVec 15)
  | matrix
  | remote
  | group
  | opening
  | closing
  | lease
  deriving DecidableEq, Repr

/-- An issued lane that has not completed. `watch` : a write match to be raised at completion, its TRAPINFO
and the regions that match (14 R389). -/
structure Flight where
  no : Nat
  iseq : BitVec 48
  kind : FlightKind
  watch : Option (W64 × List Nat) := none
  deriving DecidableEq, Repr

/-- One cluster of a core: its issue queue, its stream and its stop. `fpc` : where fetch goes on; `jumped` : it comes
there by a transfer; `xfers` : the lanes of the line fetched last, numbered `xline`, that may still send it elsewhere, and `goto` : where one has sent it
once the lanes that are left of that line are routed (08 R197). `stall` : the host-owned page its
lane waits for, by context, page base and the address that faults (01 R40). -/
structure Cluster where
  iq : List Entry := []
  fpc : LaneAddr := 0
  jumped : Bool := false
  xfers : List LaneAddr := []
  goto : Option LaneAddr := none
  xline : Nat := 0
  hold : Bool := false
  loop0 : W64 := 0
  loop1 : W64 := 0
  iseq : BitVec 48 := 0
  flightNo : Nat := 1
  flights : List Flight := []
  joined : Bool := false
  stopped : Option Trap := none
  held : Option Trap := none
  skipw : Bool := false
  stall : Option (W16 × Nat × Nat) := none
  deriving DecidableEq, Repr

/-- The registers a lane names (06 R147). -/
structure Regs where
  x : Vector W64 32 := Vector.replicate 32 0
  lx : Vector W64 16 := Vector.replicate 16 0
  sx : Vector W64 16 := Vector.replicate 16 0
  cx : Vector W64 16 := Vector.replicate 16 0
  v : Vector Vec 32 := Vector.replicate 32 0
  p : Vector W64 8 := Vector.replicate 8 0
  deriving DecidableEq, Repr

/-- How far a reserved queue entry has come (06 R157, 05 R131): its data is there, a remote load is to bring it, or that load, whose issue
sequence number is `lseq`, failed (14 R378). -/
inductive Fill where
  | ready
  | awaiting
  | failed (va : W64) (cls : BitVec 2) (lseq : BitVec 48)
  deriving DecidableEq, Repr

/-- A queue entry: its data (a 64-bit queue uses bits [63:0]), its tag (02 R62), and the flight of the producer that pushed it. -/
structure QEntry where
  data : Vec
  tag : W16 := 0
  src : Nat := 0
  fill : Fill := .ready
  deriving DecidableEq, Repr

/-- A queue register (06 R156, R159, R161). `ring` holds the entries spilled to the slice, oldest first: their data is read
back from the ring's bytes at refill. `pages` : the physical address of each 4 KiB of the ring (R159). -/
structure Queue where
  chip : List QEntry := []
  ring : List QEntry := []
  head : Nat := 0
  tail : Nat := 0
  cfg : W64 := 0
  pages : List Nat := []
  deriving DecidableEq, Repr

/-- An instruction-memory frame (08 R196, R200, R202; 09 R241). `pool` lists the marked pool lines. -/
structure Frame where
  lanes : Map W32 := []
  pool : List Nat := []
  img : W64 := 0
  fills : BitVec 15 := 0
  len : Nat := 0
  tag : W16 := 0
  loading : Nat := 0
  empty : Bool := true
  deriving DecidableEq, Repr

/-- A slot row: its tag, 128 FP32 values in one number, and poison (02 R62, R65). -/
structure AccRow where
  tag : W16 := 0
  data : BitVec 4096 := 0
  poison : Bool := false
  deriving DecidableEq, Repr

/-- The lease from the core's side (12 R322). -/
inductive Lease where
  | none | pending | held | lost
  deriving DecidableEq, Repr

/-- The core's own control registers (09 R254, 14 R373, R387). -/
structure Csrs where
  gen : BitVec 4 := 0
  weirStale : W32 := 0
  tvec : W64 := 0
  trapcause : W64 := 0
  trapinfo : W64 := 0
  cut : Vector W64 4 := Vector.replicate 4 0
  watchBase : Vector W64 8 := Vector.replicate 8 0
  watchShape : Vector W64 8 := Vector.replicate 8 0
  watchCtl : Vector W64 8 := Vector.replicate 8 0
  deriving DecidableEq, Repr

/-- A matrix operand as it was translated at issue: the virtual and physical addresses of its rows, its format and geometry,
and its scale bytes' physical addresses (12 R321, R325). -/
structure Rows where
  base : W64
  geom : W64
  fmt : Nat
  geo : Nat
  pas : List (List Nat)
  scales : List (List Nat)
  deriving DecidableEq, Repr

/-- A matrix command issued and not complete (12 R320), with what it read at issue. `wrong` : the element that a faulty cell leaves;
`seen` : the operand bytes already read. -/
structure MCmd where
  flight : Nat
  iseq : BitVec 48
  word : W32
  addr : LaneAddr
  sv : Bool
  a : Option Rows := none
  b : Option Rows := none
  regs : List Vec := []
  row : Nat := 0
  pred : W64 := 0
  watch : Option (W64 × List Nat) := none
  wrong : Option (Nat × Nat × W32) := none
  seen : List Host.Cell := []
  deriving DecidableEq, Repr

/-- A copy, overlay, collective or pb.inv command (04 R96, R100): its card words (empty for cp.pb, whose card is read at
acceptance), its block address, and the cue tokens it pushes through its flight. `held` : it waits for the stop in progress to end,
having met a watch region or named a command that is saved unstarted (14 R375, R389). `taken` : the engine has given it this bay sequence number,
and read this card for it, and its acceptance waits for a page or a slice (01 R40; 04 R100, R107). -/
structure Command where
  index : BitVec 15
  gen : BitVec 4
  cl : Cl
  flight : Nat
  iseq : BitVec 48
  word : W32
  card : List W64
  pb : Option W64 := none
  inv : Option (Bool × W64) := none
  bank : Bool := false
  mask : W64 := 0
  sv : Bool := false
  skipw : Bool := false
  held : Bool := false
  taken : Option (W32 × Option (List W64)) := none
  deriving DecidableEq, Repr

/-- The task that issued work: its nest and its number name it, its scope and the node it belongs to. -/
structure Who where
  nest : Option Nat
  tid : W32
  scope : W16
  owner : Option (Nat × Nat)
  deriving DecidableEq, Repr

/-- A failure on its way to the cluster that issued the work (04 R102, 05 R135). -/
structure Report where
  cl : Cl
  trap : Trap
  who : Who
  deriving DecidableEq, Repr

/-- An entry of the remote request table (05 R130): a request of the lane with this flight, for bytes [off, off + len) of its access.
`dest` : the register of S that a `ramo` writes, or none; `key` : the KEY of the page it went through; `dead` : its task has been killed, or its lane has failed. -/
structure RemoteOp where
  tag : Nat
  cl : Cl
  flight : Nat
  iseq : BitVec 48
  home : Nat
  cls : Nat
  va : W64
  op : Nat
  off : Nat
  len : Nat
  dest : Option Nat := none
  fmt : Nat := 0
  queue : Option Nat := none
  deadline : Nat
  ctx : W16
  who : Who
  base : W64
  key : Nat := 0
  dead : Bool := false
  deriving DecidableEq, Repr

/-- An S participation slot (10 R277). -/
structure PartSlot where
  group : W16
  issuer : Byte
  s : Nat
  deriving DecidableEq, Repr

/-- A group update on its way (04 R116, R117): in transit, held by the unit, or refused and queued for re-send. `dead` : its task has
been killed. -/
structure Update where
  flight : Nat
  core : Nat
  ctx : W16
  who : Who
  group : W16
  issuer : Byte
  s : Nat
  pa : Nat
  key : Nat
  va : W64
  fmt : Nat
  aop : Nat
  value : W64
  unit : Nat
  iseq : BitVec 48
  dead : Bool := false
  deriving DecidableEq, Repr

/-- A group open or close on its way to the serving units (04 R115, R118): for an open, the units that have not taken the group; for a
close, those it has not reached, and then those where the group is not complete. -/
structure GroupOp where
  flight : Nat
  iseq : BitVec 48
  ctx : W16
  who : Who
  group : W16
  issuer : Byte
  n : Nat
  ranges : List (Nat × Nat)
  waiting : List Nat
  units : List Nat
  va : W64 := 0
  dead : Bool := false
  deriving DecidableEq, Repr

/-- The place of a leaf-bearing lane in its cluster's sequence (15 R394): its flight, and its records once it has completed (none of
them where it failed). `place` orders it among the lanes that fetch has routed. A `tree.note` that K has not issued is `note`.
`opened` : its records come one at a time, as the packets of a message do. -/
structure Leaf where
  flight : Nat
  place : Nat := 0
  recs : List (List Byte) := []
  ready : Bool := false
  note : Bool := false
  opened : Bool := false
  deriving DecidableEq, Repr

/-- An open image: its address, its capacity a cluster, and the physical address and key of each 4 KiB of it (15 R407). -/
structure Image where
  va : W64
  cap : Nat
  pages : List (Nat × Nat)
  deriving DecidableEq, Repr

/-- One cluster's tree: the hashes of its leaves in LSEQ order with the places of their lanes, and the leaves held back
(15 R394, R400). -/
structure Tree where
  hashes : List (List Byte) := []
  places : List Nat := []
  held : List Leaf := []
  deriving DecidableEq, Repr

/-- The tree block of an audited task (15 R405, R407), and its incomplete bits. -/
structure TreeBlock where
  die : Nat
  block : Nat
  l : Tree := {}
  c : Tree := {}
  s : Tree := {}
  image : Option Image := none
  incomplete : BitVec 3 := 0
  deriving DecidableEq, Repr

/-- What the cut of a task keeps that the layout of an area does not hold (14 R382). For K, L, C and S in turn: its joined streams, the
line of each lane of its image and the loop state it was routed with, the flights of commands saved unstarted, the next flight's number,
whether its fetch point was reached by a transfer, the transfers it waits for, the LSEQ of the report held for it, and the report that stopped it
where no handler has seen it, where a transfer has sent the stream (`gotos`), and the marks of S's queue with the number of lanes ahead of each. For the queues: the
pages and the entries of each ring, what each entry on chip waits for; for the cue FIFOs, the tokens not yet visible. Then the streams'
indices, the bank loads and contexts that the core has seen, and its count of lines. -/
structure Kept where
  joined : List Cl := []
  routes : List (List Nat) := []
  loops : List (List (W64 × W64)) := []
  waiting : List (List Flight) := []
  flightNos : List Nat := []
  jumped : List Bool := []
  transfers : List (List LaneAddr) := []
  gotos : List (Option LaneAddr) := []
  marks : List (Nat × Entry) := []
  heldLseqs : List (BitVec 48) := []
  again : List (Option Trap) := []
  rings : List (Nat × List Nat × List QEntry) := []
  chips : List (List QEntry) := []
  tokens : List (List Nat) := []
  indices : List (BitVec 15) := []
  bankLoads : Nat := 0
  ctxStarts : Nat := 0
  lineNo : Nat := 0
  deriving DecidableEq, Repr

/-- A task as the callboard hands it over (13 R341 to R346, 06 R167). `saved` : the commands that its cut has saved unstarted. -/
structure Task where
  ctx : W16
  tid : W32
  scope : W16
  graph : Nat
  node : Option Nat
  nest : Option Nat
  owner : Option (Nat × Nat)
  level : Nat
  ovl : W64
  ovlLen : Nat
  bank : Option W64
  entry : Nat
  arg : W64
  index : List W64
  det : Bool
  tt : Bool
  audit : Bool
  lcores : W16
  manifest : W64
  walk : Nat
  nodeId : Nat
  prio : Nat
  area : Option (Nat × Nat) := none
  cutCore : Nat := 0
  ringBay : Option Nat := none
  block : Option TreeBlock := none
  saved : List Command := []
  kept : Kept := {}
  deriving DecidableEq, Repr

/-- Why a core stops (14 R374). -/
inductive StopWhy where
  | trap | park | run | yield | debug (seq : W32)
  deriving DecidableEq, Repr

/-- Where a stop or a restore stands. -/
inductive StopPhase where
  | requested    -- a hard stop or debug stop held until it may be taken (14 R391)
  | draining     -- CORE_STOP has been taken; the clusters drain
  | drained      -- nothing more can issue, and what has issued has completed
  | loading      -- the cut is written; the handler image is loading (14 R379)
  | restoring    -- sret or a restore waits for frame and bank reloads (14 R381)
  deriving DecidableEq, Repr

structure Stop where
  why : StopWhy
  phase : StopPhase
  area : Option (Nat × Nat) := none
  first : Option Cl := none
  reload : List Nat := []
  deriving DecidableEq, Repr

/-- Everything of a core besides its registers, clusters and queues. `lastCtx` : the context of the task that started last, and `ctxStarts`
how often it has changed (02 R62; 14 R381). -/
structure CoreSys where
  sv : Bool := false
  apart : Bool := false
  task : Option Task := none
  prefetch : List Task := []
  halting : Bool := false
  lastFrame : Nat := 1
  startCycle : Nat := 0
  stop : Option Stop := none
  nextStop : Option StopWhy := none
  lineNo : Nat := 0
  bankLoads : Nat := 0
  lastCtx : W16 := 0
  ctxStarts : Nat := 0
  handled : Option Trap := none
  deriving DecidableEq, Repr

/-- A request that a referee has sent for bytes of another package, or with a result for one (15 R410): what an answer has brought, and for a write
the flight that waits for it. -/
structure RefReq where
  tag : Nat
  home : Nat
  va : Nat
  len : Nat
  deadline : Nat
  key : Nat := 0
  write : Bool := false
  flight : Nat := 0
  data : Option (List Byte) := none
  deriving DecidableEq, Repr

/-- The weir memberships of a killed task, dropped once its events have been performed (04 R123). -/
structure WeirDrops where
  who : Who
  ctx : W16
  members : List (W64 × W16)
  deriving DecidableEq, Repr

/-- The memory-side work a core has in hand. -/
structure CoreMem where
  bank : Map W32 := []
  bankPoison : List Nat := []
  bankTag : W16 := 0
  bankSrc : W64 := 0
  weirs : List (W64 × W16) := []
  parts : List PartSlot := []
  streamL : List Command := []
  streamS : List Command := []
  indexL : BitVec 15 := 0
  indexS : BitVec 15 := 0
  remote : List RemoteOp := []
  transit : List Update := []
  refused : List Update := []
  reports : List Report := []
  opens : List GroupOp := []
  closes : List GroupOp := []
  drops : List WeirDrops := []
  refReqs : List RefReq := []
  deriving DecidableEq, Repr

structure Core where
  regs : Regs := {}
  k : Cluster := {}
  l : Cluster := {}
  c : Cluster := {}
  s : Cluster := {}
  queues : Vector Queue 16 := Vector.replicate 16 {}
  cues : Vector (List Nat) 4 := Vector.replicate 4 []
  frame0 : Frame := {}
  frame1 : Frame := {}
  acc : Map AccRow := []
  lease : Lease := .none
  leaseFlights : List Nat := []
  cmds : List MCmd := []
  csr : Csrs := {}
  mem : CoreMem := {}
  sys : CoreSys := {}
  deriving DecidableEq, Repr

/-! ## Bays -/

/-- Bytes of an access that lie together: their virtual address, their length, their place and key, the page's format and geometry.
`pod` : they are reached through a pod page, `striped` : a striped one; `home` : the package that holds them, where it is not this one
(05 R128). -/
structure Run where
  va : Nat
  len : Nat
  pa : Nat
  key : Nat
  fmt : Nat
  geo : Nat
  pod : Bool := false
  striped : Bool := false
  home : Option Nat := none
  deriving DecidableEq, Repr

/-- A region of a job's footprint (04 R99): `rows` rows of `len` bytes, `pitch` bytes apart, from `base`. `runs` : where the bytes
of a region that the job performs events on lie, in row order. -/
structure Region where
  base : Nat
  len : Nat
  rows : Nat := 1
  pitch : Nat := 0
  runs : List Run := []
  deriving DecidableEq, Repr

/-- A request that a job has sent and that is not answered: bytes [off, off + len) of what it moves. -/
structure JobReq where
  tag : Nat
  home : Nat
  va : Nat
  off : Nat
  len : Nat
  write : Bool
  deadline : Nat
  deriving DecidableEq, Repr

/-- A job in a hazard table (04 R100 to R104). `core` : the core whose task issued it, none once a kill has reached that task and for a
node's job; `target` : the core whose frame or bank an overlay load fills. `preds` : the jobs it waits for, by bay sequence number; `named` :
the commands it waits for, by stream and index (R113). `parts` : the bytes that it has read so far, by their offset in what it moves; `written` : the offsets of the units of its destination
that it has written (03 R74); `data` : all it has read, once a remote write or a collective needs it. For a collective, `folded` : the count of sources folded into a tile of its destination
(05 R141), `tiles` : the tiles of its destination that are final. -/
structure Job where
  seq : W32
  core : Option Nat
  target : Nat
  cl : Cl
  index : BitVec 15
  gen : BitVec 4
  flight : Nat
  iseq : BitVec 48
  ctx : W16
  who : Who
  word : W32
  card : List W64
  bank : Bool
  mask : W64
  sv : Bool
  reads : List Region
  writes : List Region
  preds : List W32
  named : List (BitVec 16)
  node : Option (Nat × Nat)
  watch : Option (W64 × List Nat) := none
  started : Bool := false
  reqs : List JobReq := []
  parts : List (Nat × List Byte) := []
  written : List Nat := []
  data : Option (List Byte) := none
  folded : Map Nat := []
  tiles : Map (List W32) := []
  deriving DecidableEq, Repr

/-- An open group at one serving unit (04 R115 to R118): its range as virtual addresses and where they lie, the issuers that have
closed, its mode, and the updates it holds. -/
structure Group where
  id : W16
  ctx : W16
  n : Nat
  range : List (Nat × Nat)
  closed : List Nat := []
  ordered : Bool := false
  held : List Update := []
  deriving DecidableEq, Repr

/-- A copy-job node's command: its node, its card's address, its context and scope (13 R359). `taken` : as a `Command`'s. -/
structure NodeCmd where
  graph : Nat
  node : Nat
  pb : W64
  ctx : W16
  scope : W16
  taken : Option (W32 × Option (List W64)) := none
  deriving DecidableEq, Repr

/-- Power of a slice (02 R70). -/
inductive Power where
  | on | retain | off
  deriving DecidableEq, Repr

structure Bay where
  seq : W32 := 0
  jobs : List Job := []
  nodeCmds : List NodeCmd := []
  rr : Nat := 0
  pbCache : Map (W16 × W64 × List W64) := []
  pbNext : Nat := 0
  holder : Option Nat := none
  leaseNext : Nat := 0
  boundCmds : Nat := 0
  boundStart : Nat := 0
  boundHit : Bool := false
  power : Power := .on
  target : Option Power := none
  logicOn : Bool := true
  logicTarget : Option Bool := none
  scrub : Nat := 0
  deriving DecidableEq, Repr

/-! ## Callboards, graphs, scopes -/

/-- A cancel scope (13 R364, R365). -/
structure Scope where
  ctx : W16
  parent : Option W16
  kept : Bool := true
  killing : Bool := false
  cause : Cause := .killed
  swept : Bool := false
  curtain : Option W64 := none
  written : Bool := false
  purged : Nat := 0
  killed : Nat := 0
  cancelled : Nat := 0
  pruned : Nat := 0
  drops : Nat := 0
  dropped : Nat := 0
  deriving DecidableEq, Repr

/-- A nest being walked: a node's, or a spawned one (13 R341, R342, R462). `queued` : the tasks the walker has produced, each in a task entry
of the callboard (R359); `requeued` : the tasks that came back from a core. -/
structure Nest where
  desc : List W64
  ctx : W16
  scope : W16
  graph : Nat
  node : Option Nat
  owner : Option (Nat × Nat)
  level : Nat
  anchor : Nat
  domain : Nat
  prio : Nat
  next : Nat := 0
  out : Nat := 0
  retired : Nat := 0
  queued : List Task := []
  requeued : List Task := []
  lastCore : Option Nat := none
  stopped : Bool := false
  deriving DecidableEq, Repr

/-- A fault of a node that a supervisor's kill makes (13 R353), with the task and core of its entry. -/
structure Untold where
  trap : Trap
  tid : Nat
  core : Nat
  hard : Bool
  deriving DecidableEq, Repr

/-- What the sequencer knows of a node beside its record in memory (13 R348, R360). `owed` : ticks of stall not yet added to its SLIP, and `owes` : its
entry of KIND 1 is not written yet, where their page is waited for. `untold` : the fault that the kill of its own scope by a supervisor is,
where its record's page is waited for. -/
structure NodeSt where
  status : Nat := 0
  scope : Option W16 := none
  slot : Bool := false
  raised : Nat := 0
  lastTick : Nat := 0
  released : Bool := false
  late : Bool := false
  cancelAfter : Bool := false
  ignoreAfter : Bool := false
  roots : Map (List Byte) := []
  trap : Option Trap := none
  sub : Option Nat := none
  root : List Byte := []
  words : List W64 := []
  waitFrom : Option Nat := none
  lastCore : Option Nat := none
  owed : Nat := 0
  owes : Bool := false
  untold : Option Untold := none
  deriving DecidableEq, Repr

/-- A cone being cancelled (13 R356): the faulted node, its other members, those that this walk cancels, and the fault. -/
structure Cone where
  node : Nat
  members : List Nat
  taken : List Nat
  trap : Trap
  deriving DecidableEq, Repr

/-- A graph in hand (13 R343, R344). -/
structure Graph where
  ctx : W16
  va : W64
  die : Nat
  root : Nat
  scope : W16
  level : Nat
  anchor : Nat
  nnodes : Nat
  det : Bool
  lcores : W16
  word7 : W64
  manifest : W64 := 0
  nodes : Map NodeSt := []
  settled : Option Nat := none
  halted : Bool := false
  parking : Bool := false
  parked : Bool := false
  byCallboard : Bool := false
  parkStart : Nat := 0
  parent : Option (Nat × Nat) := none
  spawner : Option Nat := none
  hostSeq : Option (W32 × BitVec 12) := none
  cones : List Cone := []
  words : List W64 := []
  firstFault : Option Trap := none
  quiet : Option Nat := none
  deriving DecidableEq, Repr

/-- A callboard command waiting for completion (13 R369). -/
structure CbCmd where
  op : Nat
  ctx : W16
  arg : BitVec 56
  started : Bool := false
  hostSeq : Option (W32 × BitVec 12) := none
  deriving DecidableEq, Repr

/-- What crosses from one die to another and is not applied (05 R137): its sender and number, its stamp, and its request, or the tile that a
member of a collective places here; neither for a beat. What its home die itself took in waits here too, where its stream or a slice is waited
for. `came` : when it came, as the package counts the requests that wait (05 R136). -/
structure Wire where
  src : Nat
  came : Nat := 0
  no : BitVec 48
  stamp : Vector (BitVec 48) 4
  req : Option RemoteReq
  tile : Option Contrib := none
  deriving DecidableEq, Repr

structure Die where
  cbCtx : W16 := 0
  cbFifo : List CbCmd := []
  cbIssued : W32 := 0
  cbDone : W32 := 0
  cutPool : W64 := 0
  cutUsed : List Nat := []
  erxPool : W64 := 0
  erxUsed : List Nat := []
  erxLog : W64 := 0
  erxHead : BitVec 48 := 0
  erxTail : BitVec 48 := 0
  logWait : List (List Byte) := []
  batch : List (Nat × List Byte) := []
  batchCycle : Nat := 0
  ageLimit : W32 := 4096
  preemptLimit : W64 := 0x400_0010_0000
  ready : List (Nat × Nat) := []
  rrGraph : Vector Nat 4 := Vector.replicate 4 0
  nextScope : Nat := 0
  creations : List (Nat × Nat) := []
  slotSwap : W64 := 0
  sweepFifo : List W16 := []
  sweepHeld : List W16 := []
  sweepIssued : W32 := 0
  sweepDone : W32 := 0
  errlog : Map (W64 × W64) := []
  errHead : W32 := 0
  sent : BitVec 48 := 0
  vector : Vector (BitVec 48) 4 := Vector.replicate 4 0
  seen : Vector (BitVec 48) 4 := Vector.replicate 4 0
  lastSend : Vector Nat 4 := Vector.replicate 4 0
  wire : List Wire := []
  active : Bool := true
  target : Option Bool := none
  deriving DecidableEq, Repr

/-- The reassembly slots at an input of a mesh router: bulk, priority, urgent and circuit (16 R420, R427, R428). `bad` : the slots whose packet
has met a double error. -/
structure Slots where
  flits : Vector (List (BitVec 1024)) 4 := Vector.replicate 4 []
  bad : List Nat := []
  deriving DecidableEq, Repr

/-- A mesh router's slot tables and SLOT_CTL (02 R53 to R55), and the slots at its inputs. Table keys are bank × 256 + slot. -/
structure Router where
  table : Map W32 := []
  ctl : W64 := 0
  bad : List Nat := []
  inputs : Map Slots := []
  deriving DecidableEq, Repr

/-! ## Fabric, link, network -/

/-- A combining-table entry (05 R139 to R141): the fold of sources 0 to k − 1. `first` : the contribution that made it. -/
structure Comb where
  die : Nat
  ctx : W16
  group : Nat
  dst : Nat
  k : Nat
  acc : List W32
  first : Contrib
  parked : Option Contrib := none
  deriving DecidableEq, Repr

/-- The suspended or starting packet of a class at a port. -/
structure OutPacket where
  flits : List (BitVec 1024)
  started : Bool := false
  deriving DecidableEq, Repr

/-- A Dalor port (16 R414 to R426), or one end of a bridge between two dies (16 R427). -/
structure Port where
  up : Bool := false
  training : Bool := true
  nextSeq : Byte := 0
  retry : List (BitVec 1024) := []
  resend : List (BitVec 1024) := []
  control : List (BitVec 1024) := []
  out : Vector (List OutPacket) 3 := Vector.replicate 3 []
  noBulk : Nat := 0
  expect : Byte := 0
  slots : Vector (List (BitVec 1024)) 4 := Vector.replicate 4 []
  damaged : Option (BitVec 1024 × Nat × List Nat) := none
  heldBack : List (BitVec 1024 × BitVec 80) := []
  replays : Nat := 0
  quiet : Nat := 0
  reqTime : Nat := 0
  neighbour : W16 := 0
  since : Nat := 0
  deriving DecidableEq, Repr

/-- A descriptor that the network engine has read (16 R430, R431): its command's task, cluster, number and lane, the index of its first
packet within the command, how many packets and bytes it has moved, the number of the first packet sent and those not acknowledged; of a message
received, the packets that are in and the number of them all, once its last has come. -/
structure UeDesc where
  recv : Bool
  slot : Nat
  words : List W64
  core : Nat
  ctx : W16
  who : Who
  iseq : BitVec 48
  word : W32
  sv : Bool
  base : Nat
  pkts : Nat := 0
  bytes : Nat := 0
  first : Nat := 0
  unacked : List Nat := []
  got : List Nat := []
  total : Option Nat := none
  deriving DecidableEq, Repr

/-- An Ultra Ethernet endpoint (16 R430). -/
structure Endpoint where
  ctx : W16
  sendVa : W64
  sendSlots : Nat
  recvVa : W64
  recvSlots : Nat
  peerVa : W64
  peers : Nat
  descs : List UeDesc := []
  nextPacket : Nat := 0
  destroying : Option W32 := none
  deriving DecidableEq, Repr

/-- What the package has sent that another agent receives. An Ultra Ethernet packet goes to the peer of a 32-byte entry of its endpoint's peer
table (17 R437). -/
inductive Sent where
  | request (r : RemoteReq)
  | response (r : RemoteResp)
  | contrib (p : Contrib) (dst : Nat)
  | abort (dst : Nat) (ctx : W16) (group : Nat) (mask : W64)
  | abortAck (dst : Nat) (ctx : W16) (group : Nat)
  | peerState (pkg : Nat) (state : Nat) (inc : W16)
  | flit (port : Nat) (f : BitVec 1024) (parity : BitVec 80)
  | uePacket (endpoint packet : Nat) (peer payload : List Byte)
  | spdm (answer : List Byte)
  deriving DecidableEq, Repr

/-- A package whose entry a store has set DOWN (05 R143): the requests outstanding to it then, by their tags, the jobs of its collectives then, by
bay and bay sequence number, and the combining entries of its groups, by context, group and destination. -/
structure Fall where
  pkg : Nat
  tags : List Nat
  jobs : List (Nat × W32)
  combs : List (W16 × Nat × Nat)
  deriving DecidableEq, Repr

/-- `kept` : contributions that wait here: a fold that a combining table gave up before its collective has started (05 R141), or one whose
slice is asleep; `came` : how many requests
have waited at a die; `falls` : what a store that set an entry DOWN is to fail. -/
structure Fabric where
  podCfg : W64 := 0
  stripe : W64 := 0
  timeout : W32 := 0x0100_0000
  peerStale : W32 := 0
  combFlagged : W32 := 0
  member : Vector Byte 64 := Vector.replicate 64 0
  peer : Vector W64 64 := Vector.replicate 64 0
  combs : List Comb := []
  flaggedKeys : List (W16 × Nat × Nat) := []
  kept : List Contrib := []
  aborting : List (W16 × Nat × List Nat) := []
  abortedHere : List (W16 × Nat) := []
  resend : List (Contrib × Nat) := []
  arrived : List Contrib := []
  tags : Nat := 0
  came : Nat := 0
  falls : List Fall := []
  ports : Map Port := []
  endpoints : Map Endpoint := []
  sent : List Sent := []
  deriving DecidableEq, Repr

/-! ## The package -/

/-- A cached page: context, page base, leaf (01 R29). -/
structure Tlb where
  ctx : W16
  base : Nat
  size : Nat
  leaf : W64
  deriving DecidableEq, Repr

/-- A cached descriptor, region root or table entry: the context it was read for, its physical address, the virtual range it leads to,
and its word (01 R29, R31). -/
structure Walked where
  ctx : W16
  pa : Nat
  base : Nat
  size : Nat
  word : W64
  deriving DecidableEq, Repr

/-- Whose translation caches an access goes through (01 R29): a core's, a bay's, or none, as the sequencer's and the management complex's. -/
inductive Via where
  | none
  | core (n : Nat)
  | bay (b : Nat)
  deriving DecidableEq, Repr

/-- An invalidation request (01 R31), and what waits on its completion. -/
structure Xinv where
  kind : Nat
  ctx : W16
  vpn : BitVec 44
  flip : Bool := false
  reclaim : Bool := false
  deriving DecidableEq, Repr

/-- A migration in progress (01 R40). `late` : the host has not answered in time, and its answer is still to come (01 R41);
`queued` : a step of the sequencer waits for the page. -/
structure Flip where
  ctx : W16
  base : W64
  sz : Nat
  pa : Nat
  replied : Bool := false
  toHost : Bool := false
  seq : W32 := 0
  late : Bool := false
  queued : Bool := false
  deriving DecidableEq, Repr

/-- Memory, with the keys, tags and poison beside it (02 R42, R61, R65; 01 R24). Every list has rising keys. `sweeping` : the dies and
contexts of the sweeps in progress; `during` : the lines that such a context has written since (02 R64). `keyOf` : the key under which
a unit is encrypted, as its slot's id and the load that filled the slot; `loads` : how often each slot has been loaded. `damaged` : lines
whose data no code can correct, and that nothing has read since; `tagLost` : slice lines of which both tag copies are so. -/
structure Memory where
  cells : List Host.Cell := []
  tags : Map W16 := []
  poison : List Nat := []
  orphan : List Nat := []
  keyOf : Map Nat := []
  loads : Map Nat := []
  damaged : List Nat := []
  tagLost : List Nat := []
  weirs : List Nat := []
  sweeping : List (Nat × W16) := []
  during : List Nat := []
  deriving DecidableEq, Repr

/-- The host rings and what the host set up (17 R434 to R437, 15 R406). `unread` : the up-ring entries that the host has not acknowledged, by
SEQ (R436). -/
structure HostIf where
  ringDown : W64 := 0
  ringUp : W64 := 0
  lastDown : W32 := 0
  lastUp : W32 := 0
  unread : List (W32 × List Byte) := []
  bell : W32 := 0
  sigRing : Option (W64 × Nat × W64) := none
  sigSeq : Nat := 0
  sigWait : List (Nat × Nat × Nat × List (List Byte)) := []
  linkUp : Bool := true
  bootRec : Vector (BitVec 2) 16 := Vector.replicate 16 0
  bootCount : Nat := 0
  booted : Bool := false
  powerReqs : List (W32 × Nat × Nat × Nat) := []
  selfRefresh : Bool := false
  pcieReply : List Byte := []
  pcieUr : Bool := false
  ringLink : BitVec 1 := 0
  deriving DecidableEq, Repr

/-- An uncorrectable error that comes about in memory: in the data of a line, or in both copies of a slice line's tag (02 R65). -/
inductive Damage where
  | line (pa : Nat)
  | tag (pa : Nat)
  deriving DecidableEq, Repr

/-- An agent's turn: cluster cl of a core, the lanes of a SYNC line together, an event, damage to memory, a flit that reaches a mesh
router's input, with what SECDED finds in its words, a key slot that the management complex loads or unloads (01 R24), one event of a job, of
those that may come next (03 R74, R82), a load or a store of a management-complex cluster (03 R73), a cell of a core's array that goes wrong
(20 R455), the host's read or write of the BAR (17 R435), or one read of the
oldest command of a core's array (07 R187). -/
inductive Act where
  | lane (core : Nat) (cl : Cl)
  | sync (core : Nat)
  | event (e : Instr)
  | damage (d : Damage)
  | mesh (router input : Nat) (f : BitVec 1024) (found : List Ecc)
  | slot (key : BitVec 10) (load : Bool)
  | job (bay : Nat) (seq : W32) (pick : Nat)
  | mgmt (pa len : Nat) (store : Option (List Byte))
  | cell (core row col : Nat) (value : W32)
  | bar (link : BitVec 1) (offset : Nat) (value : Option W64)
  | array (core pick : Nat)
  deriving DecidableEq, Repr

/-- What an ordering point's scope may contain (03 R73, R77): a cluster, a bay's copy engine or array, a management-complex cluster, the network
engine, the host, another package, an Ultra Ethernet peer. -/
inductive Agent where
  | cluster (core : Nat) (cl : Cl)
  | engine (bay : Nat)
  | array (bay : Nat)
  | mgmt (n : Nat)
  | network
  | host
  | far (pkg : Nat)
  | peer
  deriving DecidableEq, Repr

/-- A `fence.sc` in its place in the SC order (03 R88): its core, its scope, and the agents of its launch at its issue. -/
structure ScFence where
  core : Nat
  scope : Nat
  launch : List Agent
  deriving DecidableEq, Repr

/-- Bytes that an engine writes, or poison that it leaves, in a slice that is not on: they are there when it is (02 R66, R70). -/
structure Due where
  ctx : W16
  pa : Nat
  len : Nat
  data : Option (List Byte)
  deriving DecidableEq, Repr

/-- Package-wide control. `scOrder` : the SC order so far; `tlb1` : the first-level TLB of each core, `tlb2` and `walked` : the second-level TLB and the walker cache of each
bay (01 R29). `refused` : pages that the host has refused to a waiting step of the sequencer (01 R41). -/
structure Sys where
  pkgCycle : W64 := 0
  frame : W64 := 0
  ticks : Nat := 0
  late : List (Nat × Nat) := []
  ctxTable : W64 := 0
  xinvFifo : List Xinv := []
  xinvHeld : List Xinv := []
  xinvIssued : W32 := 0
  xinvDone : W32 := 0
  tlb1 : Map (List Tlb) := []
  tlb2 : Map (List Tlb) := []
  walked : Map (List Walked) := []
  flips : List Flip := []
  heldWrites : List (W16 × Nat × List Byte) := []
  due : List Due := []
  refused : List (W16 × Nat) := []
  keys : List Nat := []
  ddrSize : Nat := 0
  scOrder : List ScFence := []
  deriving DecidableEq, Repr

/-- The state of the package. From `agenda` on the fields are the model's own: which agent moves next, the lane being executed, whose
translation caches serve it, what the step in hand waits for, and the count that makes each free value fresh. -/
structure State where
  cores : Map Core
  bays : Map Bay
  dies : Map Die
  routers : Map Router
  units : Map (List Group)
  scopes : Map Scope
  nests : Map Nest
  graphs : Map Graph
  mem : Memory
  sys : Sys
  fab : Fabric
  host : HostIf
  agenda : List (Nat × Act)
  turn : Nat
  curCore : Nat
  cur : Entry
  via : Via
  blocked : Option Halt
  free : Nat
  deriving DecidableEq, Repr

/-- The package right after reset, before its ROM has run (17 R438): every table empty, every register at its reset value.
DESIGN CHOICE (log 1). DESIGN CHOICE (log 8). DESIGN CHOICE (log 89). -/
def State.reset : State where
  cores := []
  bays := []
  dies := []
  routers := []
  units := []
  scopes := []
  nests := []
  graphs := []
  mem := {}
  sys := {}
  fab := {}
  host := {}
  agenda := []
  turn := 0
  curCore := 0
  cur := { word := 0, addr := 0 }
  via := .none
  blocked := none
  free := 0

end Sys2Proof.Machine
end

