-- ==== Sys2Proof/Machine/Bits.lean ====
section
/-! DEFINITION. Bit fields, sign extension, byte order, and the operations on sorted association lists. -/

namespace Sys2Proof

def Map.find? {α : Type} : Map α → Nat → Option α
  | [], _ => none
  | (k, v) :: m, n => if k = n then some v else Map.find? m n

/-- The value at a key, or the default where the key is not listed. -/
def Map.get {α : Type} (d : α) (m : Map α) (n : Nat) : α := (Map.find? m n).getD d

def Map.set {α : Type} : Map α → Nat → α → Map α
  | [], n, v => [(n, v)]
  | (k, w) :: m, n, v =>
    if n < k then (n, v) :: (k, w) :: m
    else if n = k then (n, v) :: m
    else (k, w) :: Map.set m n v

def Map.erase {α : Type} : Map α → Nat → Map α
  | [], _ => []
  | (k, w) :: m, n => if k = n then m else (k, w) :: Map.erase m n

/-- Writing the default removes the entry, so that equal contents are equal lists. -/
def Map.put {α : Type} [DecidableEq α] (d : α) (m : Map α) (n : Nat) (v : α) : Map α :=
  if v = d then Map.erase m n else Map.set m n v

/-- A rising list of keys, as a set. -/
def setIns : List Nat → Nat → List Nat
  | [], n => [n]
  | k :: m, n => if n < k then n :: k :: m else if n = k then k :: m else k :: setIns m n

/-- Bits [hi:lo] of a number. -/
def bits (x hi lo : Nat) : Nat := x / 2 ^ lo % 2 ^ (hi + 1 - lo)

/-- Bit i of a number. -/
def bit (x i : Nat) : Bool := x / 2 ^ i % 2 = 1

/-- x with bits [hi:lo] replaced by v. -/
def setBits (x hi lo v : Nat) : Nat :=
  x - (bits x hi lo) * 2 ^ lo + (v % 2 ^ (hi + 1 - lo)) * 2 ^ lo

/-- A field of w bits read as two's complement. -/
def signed (w x : Nat) : Int := if x % 2 ^ w < 2 ^ (w - 1) then (x % 2 ^ w : Nat) else (x % 2 ^ w : Nat) - (2 ^ w : Nat)

/-- Trunc64 of an exact integer (09 R226). -/
def trunc64 (x : Int) : W64 := BitVec.ofInt 64 x

/-- Signed(v) (09 R226). -/
def sgn (x : W64) : Int := x.toInt

/-- The larger element count of n items in groups of k. -/
def ceilDiv (n k : Nat) : Nat := (n + k - 1) / k

def boolNat (b : Bool) : Nat := if b then 1 else 0

def boolW (b : Bool) : W64 := if b then 1 else 0

/-- The n low bytes of a number, least significant first: the one place where byte order is decided (08 R193). -/
def bytesOf : Nat → Nat → List Byte
  | 0, _ => []
  | n + 1, x => BitVec.ofNat 8 x :: bytesOf n (x / 256)

/-- The number that bytes hold, least significant first. -/
def ofBytes : List Byte → Nat
  | [] => 0
  | b :: bs => b.toNat + 256 * ofBytes bs

/-- 64-bit words of a number, least significant first. -/
def wordsOf : Nat → Nat → List W64
  | 0, _ => []
  | n + 1, x => BitVec.ofNat 64 x :: wordsOf n (x / 2 ^ 64)

/-- A list of numbers of w bits each, joined least significant first. -/
def joinNat (w : Nat) : List Nat → Nat
  | [] => 0
  | x :: xs => x % 2 ^ w + 2 ^ w * joinNat w xs

/-- Element k of width w in a number. -/
def elemAt (w x k : Nat) : Nat := x / 2 ^ (w * k) % 2 ^ w

/-- n elements of width w of a number, lowest first. -/
def elemsOf (w : Nat) : Nat → Nat → List Nat
  | 0, _ => []
  | n + 1, x => x % 2 ^ w :: elemsOf w n (x / 2 ^ w)

/-- The number of set bits among the low n bits. -/
def popCount : Nat → Nat → Nat
  | 0, _ => 0
  | n + 1, x => x % 2 + popCount n (x / 2)

/-- The positions of the set bits among n bits, counting from i. -/
def setBitsOf : Nat → Nat → Nat → List Nat
  | 0, _, _ => []
  | n + 1, i, x => if x % 2 = 1 then i :: setBitsOf n (i + 1) (x / 2) else setBitsOf n (i + 1) (x / 2)

/-- A list with its element at i replaced. -/
def setNth {α : Type} : List α → Nat → α → List α
  | [], _, _ => []
  | _ :: xs, 0, v => v :: xs
  | x :: xs, i + 1, v => x :: setNth xs i v

end Sys2Proof
end

