-- ==== Sys2Proof/Machine/Xts.lean ====
section
/-! DEFINITION. AES-256 in the XTS mode, by which the memory controllers encrypt 64-byte units (01 R24). The manual names IEEE 1619 and
does not restate it. -/

namespace Sys2Proof.Machine
open Sys2Proof

/-! ## AES: bytes as numbers below 256, a block as 16 of them, column by column -/

/-- A product in GF(2^8), n bits of b from the top down. -/
def gmul (a b : Nat) : Nat → Nat
  | 0 => 0
  | n + 1 =>
    let t := 2 * gmul a (b / 2) n
    (if t ≥ 256 then Nat.xor t 0x11B else t).xor (if b % 2 = 1 then a else 0)

def mul8 (a b : Nat) : Nat := gmul a b 8

/-- The inverse in GF(2^8): the power of 254; that of 0 is 0. -/
def inv8 (a : Nat) : Nat := (List.range 6).foldl (fun x _ => mul8 (mul8 x x) a) a |> fun x => mul8 x x

def rotl8 (x n : Nat) : Nat := (x * 2 ^ n % 256) + x / 2 ^ (8 - n)

def subByte (x : Nat) : Nat :=
  let b := inv8 x
  [1, 2, 3, 4].foldl (fun y n => Nat.xor y (rotl8 b n)) (Nat.xor b 0x63)

def unsubByte (x : Nat) : Nat := inv8 ([1, 3, 6].foldl (fun y n => Nat.xor y (rotl8 x n)) 0x05)

def xorBytes (a b : List Nat) : List Nat := List.zipWith Nat.xor a b

/-- Rows shifted left by their number times k. -/
def shiftRows (k : Nat) (b : List Nat) : List Nat := (List.range 16).map fun i => b.getD ((i + 4 * k * (i % 4)) % 16) 0

/-- Each column times a fixed polynomial, given by its four coefficients. -/
def mixColumns (p b : List Nat) : List Nat :=
  (List.range 16).map fun i => (List.range 4).foldl (fun a j => Nat.xor a (mul8 (p.getD ((j + 4 - i % 4) % 4) 0) (b.getD (i / 4 * 4 + j) 0))) 0

/-- The word that follows word i of the expanded key, from the one before it and the one eight before. -/
def nextKeyWord (i : Nat) (before old : List Nat) : List Nat :=
  let rcon := (List.range (i / 8 - 1)).foldl (fun x _ => mul8 x 2) 1
  let t := if i % 8 = 0 then xorBytes ((before.tail ++ before.take 1).map subByte) [rcon, 0, 0, 0]
    else if i % 8 = 4 then before.map subByte else before
  xorBytes old t

/-- The 15 round keys of a 32-byte key. -/
def roundKeys (key : List Nat) : List (List Nat) :=
  let first := (List.range 8).map fun i => (key.drop (4 * i)).take 4
  let ws := (List.range 52).foldl (fun ws i => ws ++ [nextKeyWord (i + 8) (ws.getD (i + 7) []) (ws.getD i [])]) first
  (List.range 15).map fun r => ((ws.drop (4 * r)).take 4).flatten

def aesRounds : List (List Nat) → List Nat → List Nat
  | [], b => b
  | [k], b => xorBytes (shiftRows 1 (b.map subByte)) k
  | k :: ks, b => aesRounds ks (xorBytes (mixColumns [2, 3, 1, 1] (shiftRows 1 (b.map subByte))) k)

def aesEncrypt (ks : List (List Nat)) (b : List Nat) : List Nat := aesRounds ks.tail (xorBytes b (ks.headD []))

def unaesRounds : List (List Nat) → List Nat → List Nat
  | [], b => b
  | [k], b => xorBytes ((shiftRows 3 b).map unsubByte) k
  | k :: ks, b => unaesRounds ks (mixColumns [14, 11, 13, 9] (xorBytes ((shiftRows 3 b).map unsubByte) k))

def aesDecrypt (ks : List (List Nat)) (b : List Nat) : List Nat :=
  let back := ks.reverse
  unaesRounds back.tail (xorBytes b (back.headD []))

/-! ## XTS -/

/-- The tweak times the primitive element, once for each block. -/
def xtsDouble (t : Nat) : Nat := if t ≥ 2 ^ 127 then Nat.xor (2 * t % 2 ^ 128) 0x87 else 2 * t

/-- A 64-byte data unit through a block cipher, under the 64-byte key: its first half is the data key, its second the tweak key. -/
def xtsUnit (cipher : List (List Nat) → List Nat → List Nat) (key : List Nat) (tweak : Nat) (unit : List Nat) : List Nat :=
  let ks := roundKeys (key.take 32)
  let t0 := ofBytes ((aesEncrypt (roundKeys (key.drop 32)) ((bytesOf 16 tweak).map BitVec.toNat)).map (BitVec.ofNat 8))
  (List.range 4).flatMap fun j =>
    let t := (bytesOf 16 ((List.range j).foldl (fun t _ => xtsDouble t) t0)).map BitVec.toNat
    xorBytes (cipher ks (xorBytes ((unit.drop (16 * j)).take 16) t)) t

def xtsEncrypt (key : List Nat) (tweak : Nat) (unit : List Nat) : List Nat := xtsUnit aesEncrypt key tweak unit
def xtsDecrypt (key : List Nat) (tweak : Nat) (unit : List Nat) : List Nat := xtsUnit aesDecrypt key tweak unit

end Sys2Proof.Machine
end

