-- ==== Sys2Proof/Machine/Memory.lean ====
section
/-! DEFINITION. Memory by physical address: bytes in canonical form, the keys, owner tags and poison beside them, and the
physical map (01 R24, R39; 02 R42, R61, R65, R66). -/

namespace Sys2Proof.Machine
open Sys2Proof

/-! ## Bytes -/

/-- What an address reads as: 0 where it is not listed (02 R61 gives the slices zero at reset). -/
def cellGet : List Host.Cell → Nat → Byte
  | [], _ => 0
  | (a, b) :: m, n => if a = n then b else cellGet m n

/-- A write of one byte, keeping the canonical form: rising addresses, and no entry that reads 0. -/
def cellSet : List Host.Cell → Nat → Byte → List Host.Cell
  | [], n, v => if v = 0 then [] else [(n, v)]
  | (a, b) :: m, n, v =>
    if n < a then (if v = 0 then (a, b) :: m else (n, v) :: (a, b) :: m)
    else if n = a then (if v = 0 then m else (n, v) :: m)
    else (a, b) :: cellSet m n v

/-- Addresses strictly rising from lo up, and no entry of 0. -/
def cellsWf : Nat → List Host.Cell → Bool
  | _, [] => true
  | lo, (a, b) :: m => decide (lo ≤ a) && decide (b ≠ 0) && cellsWf (a + 1) m

def Memory.wf (m : Memory) : Bool := cellsWf 0 m.cells

/-- DESIGN CHOICE (log 2). -/
def Memory.byte (m : Memory) (pa : Nat) : Byte := cellGet m.cells pa

def Memory.setByte (m : Memory) (pa : Nat) (v : Byte) : Memory := { m with cells := cellSet m.cells pa v }

def Memory.bytes (m : Memory) : Nat → Nat → List Byte
  | _, 0 => []
  | pa, n + 1 => m.byte pa :: Memory.bytes m (pa + 1) n

def Memory.setBytes (m : Memory) : Nat → List Byte → Memory
  | _, [] => m
  | pa, b :: bs => Memory.setBytes (m.setByte pa b) (pa + 1) bs

/-! ## The physical map -/

def isSlice (pa : Nat) : Bool := decide (pa < Config.sliceEnd)
def isHbm (pa : Nat) : Bool := decide (Config.hbmBase ≤ pa) && decide (pa < Config.hbmEnd)
def isDdr (s : State) (pa : Nat) : Bool := decide (Config.ddrBase ≤ pa) && decide (pa < Config.ddrBase + s.sys.ddrSize)
def isHostWin (pa : Nat) : Bool := decide (Config.hostBase ≤ pa) && decide (pa < Config.hostEnd)
def isCtl (pa : Nat) : Bool := decide (Config.ctlBase ≤ pa) && decide (pa < Config.ctlEnd)
/-- Where tables may lie (01 R16). -/
def isTable (s : State) (pa : Nat) : Bool := isHbm pa || isDdr s pa
/-- The bay of a slice address (00 R4). -/
def bayOfPa (pa : Nat) : Nat := pa / Config.sliceSize
/-- The 64-byte line or data unit that holds an address. -/
def lineOf (pa : Nat) : Nat := pa / 64 * 64

/-! ## Keys (01 R24) -/

/-- The key that a slot holds now: its id, and the load that filled it. Id 0 is no encryption. -/
def Memory.slotKey (m : Memory) (k : Nat) : Nat := if k = 0 then 0 else k + 1024 * Map.get 0 m.loads k

/-- The slots are loaded. DESIGN CHOICE (log 9). -/
def Memory.loadKeys (m : Memory) (ks : List Nat) : Memory := { m with loads := ks.foldl (fun l k => Map.set l k (Map.get 0 l k + 1)) m.loads }

/-- The 64 bytes of a loaded key. DESIGN CHOICE (log 9). -/
def keyBytes (key : Nat) : List Nat := (List.range 64).map fun i => (Config.keyByte (key % 1024) (key / 1024) i).toNat

/-- The 64 bytes of a unit written under one key, as they read under another. -/
def crossKey (unit old new : Nat) (plain : List Byte) : List Byte :=
  let enc (key : Nat) (bs : List Nat) : List Nat := if key = 0 then bs else xtsEncrypt (keyBytes key) unit bs
  let dec (key : Nat) (bs : List Nat) : List Nat := if key = 0 then bs else xtsDecrypt (keyBytes key) unit bs
  (dec new (enc old (plain.map BitVec.toNat))).map (BitVec.ofNat 8)

/-- One byte under the key of slot k: the plain byte if its unit was written under that key. DESIGN CHOICE (log 9). -/
def Memory.keyed (m : Memory) (k pa : Nat) : Byte :=
  let u := lineOf pa
  let k0 := Map.get 0 m.keyOf u
  if isSlice pa || k0 = m.slotKey k then m.byte pa else (crossKey u k0 (m.slotKey k) (m.bytes u 64)).getD (pa - u) 0

/-- Make a unit hold what it decrypts to under the key of slot k, and belong to that key. -/
def Memory.rekey (m : Memory) (k u : Nat) : Memory :=
  if isSlice u || Map.get 0 m.keyOf u = m.slotKey k then m
  else
    let plain := (List.range 64).map fun i => m.keyed k (u + i)
    { m.setBytes u plain with keyOf := Map.put 0 m.keyOf u (m.slotKey k) }

/-! ## Owner tags and poison (02 R61, R65) -/

/-- What an access by a context meets at a line. -/
inductive LineMeets where
  | own | foreign | poisoned | orphan
  deriving DecidableEq, Repr

/-- A line whose tag is lost is orphaned, and one whose data is lost is poisoned, whether or not anything has met the error before. -/
def Memory.meets (m : Memory) (ctx : W16) (pa : Nat) : LineMeets :=
  let u := lineOf pa
  if m.orphan.contains u || m.tagLost.contains u then .orphan
  else if isSlice pa && Map.get 0 m.tags u != ctx then .foreign
  else if m.poison.contains u || m.damaged.contains u then .poisoned
  else .own

/-- A line's data is good again: it holds no poison and no error. -/
def Memory.mend (m : Memory) (u : Nat) : Memory :=
  { m with poison := m.poison.filter (· ≠ u), orphan := m.orphan.filter (· ≠ u), damaged := m.damaged.filter (· ≠ u),
           tagLost := m.tagLost.filter (· ≠ u) }

def Memory.clearLine (m : Memory) (u : Nat) (tag : W16) : Memory :=
  { (m.mend u).setBytes u (List.replicate 64 0) with tags := Map.put 0 m.tags u tag, weirs := m.weirs.filter (· ≠ u) }

/-- The error in a line's data is met: the line is poisoned. -/
def Memory.poisonLine (m : Memory) (u : Nat) : Memory :=
  { m with poison := setIns m.poison u, damaged := m.damaged.filter (· ≠ u) }

/-- The error in a line's tag is met: the line is orphaned (02 R65). -/
def Memory.orphanLine (m : Memory) (u : Nat) : Memory :=
  { m with orphan := setIns m.orphan u, tagLost := m.tagLost.filter (· ≠ u) }

/-- An uncorrectable error comes about. -/
def Memory.damage (m : Memory) : Damage → Memory
  | .line pa => { m with damaged := setIns m.damaged (lineOf pa) }
  | .tag pa => if isSlice pa then { m with tagLost := setIns m.tagLost (lineOf pa) } else m

/-- A write that reaches word 0 of a weir ends its allocation (04 R122). -/
def Memory.unweir (m : Memory) (pa n : Nat) : Memory :=
  { m with weirs := m.weirs.filter fun u => !(decide (pa < u + 8) && decide (u < pa + n)) }

/-- The lines that n bytes at pa touch. -/
def linesOf (pa n : Nat) : List Nat :=
  if n = 0 then [] else (List.range ((pa + n - 1) / 64 - pa / 64 + 1)).map fun i => (pa / 64 + i) * 64

/-- A read of n bytes by a context under a key: none where it meets poison or an orphaned line. -/
def Memory.read (m : Memory) (ctx : W16) (k pa n : Nat) : Option (List Byte) :=
  if (linesOf pa n).any fun u => m.meets ctx u = .poisoned || m.meets ctx u = .orphan then none
  else some ((List.range n).map fun i => if m.meets ctx (pa + i) = .foreign then 0 else m.keyed k (pa + i))

/-- The line of n bytes at which a read stops: poisoned, or orphaned. -/
def Memory.badLine (m : Memory) (ctx : W16) (pa n : Nat) : Nat :=
  ((linesOf pa n).find? fun u => m.meets ctx u = .poisoned || m.meets ctx u = .orphan).getD (lineOf pa)

/-- Make ready the lines a write touches: a foreign slice line is cleared and taken (02 R61), a line the write covers whole
loses its poison, and a unit under another key is carried over to the write's (01 R24). DESIGN CHOICE (log 90). -/
def Memory.claim (m : Memory) (ctx : W16) (k pa n : Nat) : List Nat → Memory
  | [] => m
  | u :: us =>
    let whole := decide (pa ≤ u) && decide (u + 64 ≤ pa + n)
    let m1 := if isSlice u && (m.meets ctx u = .foreign || (whole && m.meets ctx u ≠ .own)) then m.clearLine u ctx
      else if whole then m.mend u else m
    Memory.claim (m1.rekey k u) ctx k pa n us

/-- A write of n bytes covers part of an 8-byte word of a line. -/
def partWord (pa n u : Nat) : Bool :=
  (decide (pa % 8 ≠ 0) && decide (lineOf pa = u)) || (decide ((pa + n) % 8 ≠ 0) && decide (lineOf (pa + n) = u))

/-- Whether a write of n bytes must read a line and cannot: an orphaned line that it does not cover whole, or a poisoned line of its own
where it covers part of an 8-byte word of it, or part of a line of HBM or DDR (02 R44, R51, R65). -/
def Memory.lineBlocked (m : Memory) (ctx : W16) (pa n u : Nat) : Bool :=
  let whole := decide (pa ≤ u) && decide (u + 64 ≤ pa + n)
  (m.meets ctx u = .orphan && !whole) || (m.meets ctx u = .poisoned && !whole && (partWord pa n u || !isSlice u))

def Memory.writeBlocked (m : Memory) (ctx : W16) (pa n : Nat) : Bool := (linesOf pa n).any (m.lineBlocked ctx pa n)

/-- The line at which a write stops. -/
def Memory.blockedLine (m : Memory) (ctx : W16) (pa n : Nat) : Nat := ((linesOf pa n).find? (m.lineBlocked ctx pa n)).getD (lineOf pa)

/-- The lines of a sweep in progress that the swept context itself writes (02 R64). -/
def Memory.noteSwept (m : Memory) (ctx : W16) (pa n : Nat) : Memory :=
  let us := (linesOf pa n).filter fun u => isSlice u && m.sweeping.contains (bayOfPa u / 72, ctx)
  if us = [] then m else { m with during := us.foldl setIns m.during }

/-- A write of bytes by a context under a key. -/
def Memory.write (m : Memory) (ctx : W16) (k pa : Nat) (bs : List Byte) : Memory :=
  (((m.noteSwept ctx pa bs.length).unweir pa bs.length).claim ctx k pa bs.length (linesOf pa bs.length)).setBytes pa bs

/-- Poison every line of a range, as a poisoned source leaves it (02 R66). -/
def Memory.poisonRange (m : Memory) (ctx : W16) (pa n : Nat) : Memory :=
  (linesOf pa n).foldl (fun m u =>
    let m1 := if isSlice u && m.meets ctx u = .foreign then m.clearLine u ctx else m
    { m1 with poison := setIns m1.poison u }) m

/-- The machine's own reads: no tag is checked (02 R61), no key is used. -/
def Memory.read64 (m : Memory) (pa : Nat) : Nat := ofBytes ((List.range 8).map fun i => m.keyed 0 (pa + i))

def Memory.rawRead (m : Memory) (k pa n : Nat) : List Byte := (List.range n).map fun i => m.keyed k (pa + i)

/-- The first bad line of the bytes from lo up to hi: one whose data is poisoned or lost. -/
def Memory.badBetween (m : Memory) (lo hi : Nat) : Option Nat :=
  (m.poison ++ m.damaged).find? fun u => decide (lo ≤ u) && decide (u < hi)

/-- Its writes: a line that they cover whole holds good data from now on. -/
def Memory.rawWrite (m : Memory) (k pa : Nat) (bs : List Byte) : Memory :=
  ((linesOf pa bs.length).foldl (fun m u =>
    (if decide (pa ≤ u) && decide (u + 64 ≤ pa + bs.length) then m.mend u else m).rekey k u) (m.unweir pa bs.length)).setBytes pa bs

end Sys2Proof.Machine
end

