-- ==== Sys2Proof/Machine/Translate.lean ====
section
/-! DEFINITION. Contexts, the table walk, the leaf checks and the check of a whole access (01 R13 to R37). -/

namespace Sys2Proof.Machine
open Sys2Proof

/-! ## Leaf fields (01 R18) -/

def leafRgn (e : Nat) : Nat := bits e 63 62
def leafKey (e : Nat) : Nat := bits e 61 52
def leafGeo (e : Nat) : Nat := bits e 51 48
def leafFmt (e : Nat) : Nat := bits e 47 44
def leafPfn (e : Nat) : Nat := bits e 43 15
def leafSz (e : Nat) : Nat := bits e 14 11
def leafMt (e : Nat) : Nat := bits e 10 8
def leafSv (e : Nat) : Bool := bit e 7
def leafO (e : Nat) : Bool := bit e 6
def leafA (e : Nat) : Bool := bit e 5
def leafX (e : Nat) : Bool := bit e 4
def leafW (e : Nat) : Bool := bit e 3
def leafR (e : Nat) : Bool := bit e 2

/-- log2 of the page size of a size code, and the level its leaf stands at (01 R19). -/
def pageLog (sz : Nat) : Nat :=
  match sz with
  | 0 => 12 | 1 => 14 | 2 => 16 | 3 => 18 | 4 => 20 | 5 => 21 | 6 => 22 | 7 => 24 | 8 => 26 | 9 => 28 | 10 => 30 | _ => 32

def pageLevel (sz : Nat) : Nat := if sz ≤ 4 then 1 else if sz ≤ 9 then 2 else if sz ≤ 11 then 3 else 0

def pageSize (e : Nat) : Nat := 2 ^ pageLog (leafSz e)

/-- Formats (01 R25). -/
def fmtRaw : Nat := 0
def fmtF32 : Nat := 1
def fmtBf16 : Nat := 2
def fmtF16 : Nat := 3
def fmtI32 : Nat := 6
def fmtSb8 : Nat := 7
def fmtSb4 : Nat := 8
def fmtScale : Nat := 9

/-- Element size of the byte-exact element paths; none for SB4 (10 R265). -/
def elemSize (fmt : Nat) : Option Nat :=
  if fmt = 0 ∨ fmt = 4 ∨ fmt = 7 ∨ fmt = 9 then some 1
  else if fmt = 2 ∨ fmt = 3 ∨ fmt = 5 then some 2
  else if fmt = 1 ∨ fmt = 6 then some 4
  else none

/-! ## What keeps a lane from issuing -/

abbrev Chk (α : Type) := Except Halt α

/-- TRAPINFO of a memory cause: subcode and address (01 R36). -/
def vaInfo (sub va : Nat) : W64 := BitVec.ofNat 64 (sub * 2 ^ 56 + va % 2 ^ 56)

def badTrans {α : Type} (sub va : Nat) : Chk α := .error (.trap .translation (vaInfo sub va))
def badPerm {α : Type} (sub va : Nat) : Chk α := .error (.trap .permission (vaInfo sub va))
def badFormat {α : Type} (sub va : Nat) : Chk α := .error (.trap .format (vaInfo sub va))
def badAlign {α : Type} (va : Nat) : Chk α := .error (.trap .align (vaInfo 0 va))

/-- Check a condition, or stop for the reason given. -/
def need (b : Bool) (h : Halt) : Chk Unit := if b then .ok () else .error h

def needOp (b : Bool) (lane reason : Nat) : Chk Unit :=
  need b (.trap .illegalOp (BitVec.ofNat 64 (reason * 2 ^ 56 + lane % 2 ^ 17)))

/-! ## Access paths (01 R23) -/

/-- The paths of the access table. -/
inductive Path where
  | load (n : Nat)
  | store (n : Nat)
  | qload
  | qstore
  | amo
  | weir
  | jobRead
  | jobWrite
  | ovl
  | matRead (bay : Nat)
  | matDrain (bay : Nat)
  | rld
  | rst
  | ramo
  | ring (bay : Nat)
  | probe
  deriving DecidableEq, Repr

/-- The memory types a path takes; `pa` tells a matrix path its bay (01 R23; 10 R276; 04 R119). -/
def Path.typeOk (p : Path) (sv : Bool) (mt : Nat) (pa : Nat) : Bool :=
  match p with
  | .load n | .store n => decide (mt ≤ 3) || (decide (mt = 5) && sv && (decide (n = 4) || decide (n = 8)))
  | .qload | .qstore => decide (mt ≤ 3)
  | .amo => decide (mt ≤ 2)
  | .weir => decide (mt = 0)
  | .jobRead | .jobWrite => decide (mt ≤ 4)
  | .ovl => decide (mt ≤ 2)
  | .matRead b | .matDrain b | .ring b => decide (mt = 0) && decide (bayOfPa pa = b)
  | .rld | .rst | .ramo => decide (mt = 4)
  | .probe => true

/-- The permission a path needs: the subcode it raises without it (01 R23, R36). -/
def Path.permBad (p : Path) (e : Nat) : Option Nat :=
  match p with
  | .load _ | .qload | .jobRead | .matRead _ | .rld => if leafR e then none else some 0x10
  | .store _ | .qstore | .jobWrite | .matDrain _ | .rst => if leafW e then none else some 0x11
  | .amo | .weir | .ramo => if leafA e && leafR e && leafW e then none else some 0x13
  | .ovl => if leafX e then none else some 0x12
  | .ring _ => if !leafR e then some 0x10 else if !leafW e then some 0x11 else none
  | .probe => none

/-! ## The walk (01 R15 to R21) -/

/-- A page found: its virtual base, its leaf. -/
structure Page where
  base : Nat
  leaf : Nat
  deriving DecidableEq, Repr

/-- Why a walk finds no page. -/
inductive WalkBad where
  | sub (n : Nat)       -- TRANSLATION with this subcode
  | poison (pa : Nat)   -- poisoned table bytes
  deriving DecidableEq, Repr

def entryRsv (e : Nat) : Bool := decide (bits e 63 52 ≠ 0) || decide (bits e 11 2 ≠ 0)

/-- A table entry that leads on: valid, no leaf, no reserved bit, and its table in HBM or DDR. -/
def entryBad (s : State) (e : Nat) : Bool := bit e 1 || entryRsv e || !isTable s (bits e 51 12 * 4096)

/-! ### Translation caches (01 R29 to R31) -/

/-- The bay whose caches an access goes through. -/
def Via.bay? : Via → Option Nat
  | Via.none => Option.none
  | .core n => some (n / 4)
  | .bay b => some b

/-- The words of the walker cache that an access may meet. -/
def walkerCache (s : State) : List Walked :=
  match s.via.bay? with
  | some b => Map.get [] s.sys.walked b
  | none => []

/-- The pages that an access may find cached: its core's, then its bay's. -/
def cachedPages (s : State) : List Tlb :=
  (match s.via with
    | .core n => Map.get [] s.sys.tlb1 n
    | _ => []) ++ (match s.via.bay? with
    | some b => Map.get [] s.sys.tlb2 b
    | none => [])

/-- The word that memory holds, or an older one that no completed invalidation has removed. -/
def oldWord (s : State) (ctx : W16) (pa now : Nat) : List Walked → Nat
  | [] => now
  | w :: ws =>
    if w.ctx = ctx ∧ w.pa = pa ∧ w.word.toNat ≠ now ∧ Config.useCached s.free ctx.toNat pa then w.word.toNat
    else oldWord s ctx pa now ws

/-- A descriptor, root or table entry, read by the machine itself. DEDUCED (log 54). -/
def readEntry (s : State) (ctx : W16) (pa : Nat) : Except WalkBad Nat :=
  if s.mem.meets ctx pa = .poisoned || s.mem.meets ctx pa = .orphan then .error (.poison (s.mem.badLine ctx pa 8))
  else .ok (oldWord s ctx pa (s.mem.read64 pa) (walkerCache s))

/-- What a walk has read: its leaf, and the valid words it came by, each with the range that it leads to. -/
structure Trace where
  level : Nat
  leaf : Nat
  words : List Walked
  deriving DecidableEq, Repr

def walkedAt (ctx : W16) (pa va size word : Nat) : Walked :=
  { ctx := ctx, pa := pa, base := va / size * size, size := size, word := BitVec.ofNat 64 word }

/-- The levels below a table: the shift of each level's index, from level 4 down. A leaf is always read from memory. -/
def walkFrom (s : State) (ctx : W16) (va : Nat) : List (Nat × Nat) → Nat → List Walked → Except WalkBad Trace
  | [], _, _ => .error (.sub 0x05)
  | (level, sh) :: rest, table, seen => do
    let pa := table + 8 * (va / 2 ^ sh % 512)
    let e ← readEntry s ctx pa
    if !bit e 0 then .error (.sub 0x04)
    else if bit e 1 then .ok { level := level, leaf := e, words := seen }
    else if level = 1 || entryBad s e then .error (.sub 0x05)
    else walkFrom s ctx va rest (bits e 51 12 * 4096) (seen ++ [walkedAt ctx pa va (2 ^ sh) e])

/-- The descriptor of a context (01 R15). -/
def ctxDescriptor (s : State) (ctx : W16) : Nat := bits s.sys.ctxTable.toNat 51 24 * 2 ^ 24 + ctx.toNat % 4096 * 4096

/-- A descriptor's word is valid and of the context's generation. -/
def descriptorOk (ctx : W16) (w : Nat) : Bool := bit w 0 && decide (bits w 15 12 = ctx.toNat / 4096)

/-- Contexts other than slot 0 may translate (01 R15, R31). -/
def mayTranslate (s : State) (ctx : W16) : Bool := decide (ctx.toNat % 4096 = 0) || bit s.sys.ctxTable.toNat 0

def walkLeaf (s : State) (ctx : W16) (va : Nat) : Except WalkBad Trace := do
  if !mayTranslate s ctx then .error (.sub 0x02)
  else
    let d := ctxDescriptor s ctx
    let w ← readEntry s ctx d
    if !descriptorOk ctx w then .error (.sub 0x02)
    else
      let pa := d + 2048 + 8 * bits va 55 48
      let r ← readEntry s ctx pa
      if !bit r 0 then .error (.sub 0x03)
      else if entryBad s r then .error (.sub 0x05)
      else
        let seen := [walkedAt ctx d 0 (2 ^ 56) w, walkedAt ctx pa va (2 ^ 48) r]
        walkFrom s ctx va [(4, 39), (3, 30), (2, 21), (1, 12)] (bits r 51 12 * 4096) seen

/-- The region offset of a page (01 R20, R22). -/
def pageOffset (e : Nat) : Nat := if leafMt e = 4 then bits (leafPfn e) 28 6 * 2 ^ 18 else leafPfn e * 4096

/-- One past the last offset of a region (01 R22, R39; 05 R128). -/
def regionLimit (s : State) (e : Nat) : Nat :=
  match leafMt e with
  | 0 => Config.sliceEnd
  | 1 => Config.hbmEnd - Config.hbmBase
  | 2 => s.sys.ddrSize
  | 3 => Config.hostEnd - Config.hostBase
  | 5 => Config.ctlEnd - Config.ctlBase
  | _ =>
    match leafRgn e with
    | 0 => Config.sliceEnd
    | 1 => Config.hbmEnd - Config.hbmBase
    | 2 => 2 ^ 41
    | _ => (bits s.fab.podCfg.toNat 37 32 + 1) * bits s.fab.stripe.toNat 55 32 * 65536

/-- The base of a memory type's region (01 R22). -/
def regionBase (mt : Nat) : Nat :=
  match mt with
  | 0 => 0
  | 1 => Config.hbmBase
  | 2 => Config.ddrBase
  | 3 => Config.hostBase
  | _ => Config.ctlBase

/-- The checks of R35 step 5 that end in BAD_PTE. -/
def leafBad (s : State) (level e : Nat) : Bool :=
  let mt := leafMt e
  decide (leafSz e ≥ 12) || decide (pageLevel (leafSz e) ≠ level) || decide (pageOffset e % pageSize e ≠ 0)
    || decide (mt ≥ 6)
    || (decide (mt ≠ 4) && decide (leafRgn e ≠ 0))
    || ((decide (mt = 0) || decide (mt = 5)) && (decide (leafKey e ≠ 0) || !leafO e))
    || (decide (mt = 5) && !leafSv e)
    || (decide (mt = 4) && ((decide (leafRgn e = 0) && decide (leafKey e ≠ 0)) || !leafO e || decide (leafSz e < 3)
        || (decide (leafRgn e = 3) && decide (bits (leafPfn e) 5 0 ≠ 0))))
    || decide (pageOffset e + pageSize e > regionLimit s e)
    || (leafA e && (!leafR e || !leafW e))

/-- The checks of R35 step 5 that end in FORMAT, before the path's own. DESIGN CHOICE (log 80). -/
def leafFormat (va e : Nat) : Option Nat :=
  if leafFmt e ≥ 10 then some 0x20
  else if (leafFmt e = 7 || leafFmt e = 8) && leafGeo e > 4 then some 0x21
  else if !(leafFmt e = 7 || leafFmt e = 8) && leafGeo e ≠ 0 then some 0x21
  else if !bit va 55 && leafFmt e = 9 then some 0x24
  else if bit va 55 && leafFmt e ≠ 9 && leafFmt e ≠ 0 then some 0x24
  else none

/-- The page an address walks to now. -/
def walk (s : State) (ctx : W16) (va : Nat) : Except WalkBad Page := do
  let t ← walkLeaf s ctx va
  if leafBad s t.level t.leaf then .error (.sub 0x05) else .ok { base := va / pageSize t.leaf * pageSize t.leaf, leaf := t.leaf }

/-! ## Cached pages (01 R29, R30, R37) -/

def Page.size (p : Page) : Nat := pageSize p.leaf
def Page.holds (p : Page) (va : Nat) : Bool := decide (p.base ≤ va) && decide (va < p.base + p.size)

/-- The first cached page of an address that differs from what a walk gives and that the access uses. -/
def oldPage (s : State) (ctx : W16) (va : Nat) (now : Except WalkBad Page) : List Tlb → Except WalkBad Page
  | [] => now
  | t :: ts =>
    let p : Page := { base := t.base, leaf := t.leaf.toNat }
    if t.ctx = ctx ∧ t.base ≤ va ∧ va < t.base + t.size then
      (match now with
        | .ok q => if q = p then .ok q else if Config.useCached s.free ctx.toNat t.base then .ok p else oldPage s ctx va now ts
        | .error _ => if Config.useCached s.free ctx.toNat t.base then .ok p else oldPage s ctx va now ts)
    else oldPage s ctx va now ts

/-- The page an access uses: what memory holds, or a cached page that no completed invalidation has removed; no page at all where the
context may not translate. DEDUCED (log 10). -/
def findPage (s : State) (ctx : W16) (va : Nat) : Except WalkBad Page :=
  if mayTranslate s ctx then oldPage s ctx va (walk s ctx va) (cachedPages s) else .error (.sub 0x02)

/-- The page of an address within one access: a page that the access has found already serves every part of it (01 R20, R37). -/
def findWithin (s : State) (ctx : W16) (known : List Page) (va : Nat) : Except WalkBad Page :=
  match known.find? fun p => p.holds va with
  | some p => .ok p
  | none => findPage s ctx va

/-- The pages that some addresses of one access lie in, after those it has found. -/
def knowPages (s : State) (ctx : W16) : List Page → List Nat → List Page
  | known, [] => known
  | known, va :: rest =>
    match findWithin s ctx known va with
    | .ok p => knowPages s ctx (if known.contains p then known else known ++ [p]) rest
    | .error _ => knowPages s ctx known rest

/-- An entry put first, the oldest leaving where the cache is full; an entry already there stays. DESIGN CHOICE (log 95). -/
def keepEntry {α : Type} [DecidableEq α] (cap : Nat) (x : α) (xs : List α) : List α := if xs.contains x then xs else (x :: xs).take cap

/-- Keep the translation of an address that an access has used, and the words its walk read: 256 entries a core, 4,096 a bay. -/
def State.cache (s : State) (ctx : W16) (va : Nat) : State :=
  match walk s ctx va, walkLeaf s ctx va with
  | .ok p, .ok t =>
    let e : Tlb := { ctx := ctx, base := p.base, size := p.size, leaf := BitVec.ofNat 64 p.leaf }
    let tlb1 := match s.via with
      | .core n => Map.set s.sys.tlb1 n (keepEntry 256 e (Map.get [] s.sys.tlb1 n))
      | _ => s.sys.tlb1
    match s.via.bay? with
    | none => s
    | some b =>
      { s with sys := { s.sys with tlb1 := tlb1, tlb2 := Map.set s.sys.tlb2 b (keepEntry 4096 e (Map.get [] s.sys.tlb2 b)),
                                   walked := Map.set s.sys.walked b (t.words.foldl (fun l w => keepEntry (l.length + 1) w l) (Map.get [] s.sys.walked b)) } }
  | _, _ => s

def State.cacheAll (s : State) (ctx : W16) (vas : List Nat) : State := vas.foldl (fun s va => s.cache ctx va) s

/-- The same state, served by other caches. -/
def State.through (s : State) (v : Via) : State := { s with via := v }

/-! ## One address (01 R35, steps 2 to 6) -/

/-- Where one address leads: its page, its physical address (for a pod page, its region offset), its key. -/
structure Place where
  page : Page
  pa : Nat
  deriving DecidableEq, Repr

def Place.key (p : Place) : Nat := leafKey p.page.leaf
def Place.fmt (p : Place) : Nat := leafFmt p.page.leaf
def Place.geo (p : Place) : Nat := leafGeo p.page.leaf
def Place.mt (p : Place) : Nat := leafMt p.page.leaf

def placeOf (p : Page) (va : Nat) : Place :=
  { page := p,
    pa := if leafMt p.leaf = 4 then pageOffset p.leaf + va % pageSize p.leaf
      else regionBase (leafMt p.leaf) + pageOffset p.leaf + va % pageSize p.leaf }

/-- The checks of R35 from the leaf's FORMAT on, for a path and the formats it refuses. -/
def checkPage (s : State) (ctx : W16) (sv : Bool) (path : Path) (fmtBad : Nat → Bool) (va : Nat) (p : Page) : Chk Place :=
  let e := p.leaf
  let at_ := placeOf p va
  match leafFormat va e with
  | some sub => badFormat sub va
  | none =>
    if fmtBad (leafFmt e) then badFormat 0x22 va
    else if leafSv e && !sv then badPerm 0x14 va
    else if !path.typeOk sv (leafMt e) at_.pa then badPerm 0x15 va
    else if leafMt e ≠ 4 && leafKey e ≠ 0 && !s.sys.keys.contains (leafKey e) then badPerm 0x16 va
    else match path.permBad e with
    | some sub => badPerm sub va
    | none => if leafO e then .ok at_ else .error (.stall ctx va p.base e)

/-- The steps of R35 for one address of an access that has found some pages. -/
def translateWithin (s : State) (ctx : W16) (sv : Bool) (path : Path) (fmtBad : Nat → Bool) (known : List Page) (va : Nat) : Chk Place :=
  if va ≥ 2 ^ 56 then badTrans 0x01 va
  else match findWithin s ctx known va with
  | .error (.sub n) => badTrans n va
  | .error (.poison pa) => .error (.poison ctx pa)
  | .ok p => checkPage s ctx sv path fmtBad va p

/-- The steps of R35 for one address. -/
def translate (s : State) (ctx : W16) (sv : Bool) (path : Path) (fmtBad : Nat → Bool) (va : Nat) : Chk Place :=
  translateWithin s ctx sv path fmtBad [] va

def anyFmt : Nat → Bool := fun _ => false

/-- A piece of an access that lies in one 4 KiB granule: its address, its length, its place. -/
structure Piece where
  va : Nat
  len : Nat
  place : Place
  deriving DecidableEq, Repr

/-- Cut n bytes at va where granules end. -/
def cutRange : Nat → Nat → Nat → List (Nat × Nat)
  | 0, _, _ => []
  | f + 1, va, n =>
    if n = 0 then []
    else
      let k := min n (4096 - va % 4096)
      (va, k) :: cutRange f (va + k) (n - k)

/-- The pieces of one access that has found some pages. -/
def translateFrom (s : State) (ctx : W16) (sv : Bool) (path : Path) (fmtBad : Nat → Bool) :
    List Page → List (Nat × Nat) → Chk (List Piece)
  | _, [] => .ok []
  | known, (va, n) :: rest => do
    let p ← translateWithin s ctx sv path fmtBad known va
    let ps ← translateFrom s ctx sv path fmtBad (if known.contains p.page then known else known ++ [p.page]) rest
    .ok ({ va := va, len := n, place := p } :: ps)

def translateList (s : State) (ctx : W16) (sv : Bool) (path : Path) (fmtBad : Nat → Bool) (l : List (Nat × Nat)) : Chk (List Piece) :=
  translateFrom s ctx sv path fmtBad [] l

/-- Every page of n bytes at va, lowest address first (01 R34). -/
def translateRange (s : State) (ctx : W16) (sv : Bool) (path : Path) (fmtBad : Nat → Bool) (va n : Nat) : Chk (List Piece) :=
  translateList s ctx sv path fmtBad (cutRange (n / 4096 + 2) va n)

/-! ## Bytes by piece -/

/-- A slice that is not ON is woken first (02 R70). -/
def awake (s : State) (pa : Nat) : Chk Unit :=
  if isSlice pa then
    (if (Map.get {} s.bays (bayOfPa pa)).power = .on && (Map.get {} s.bays (bayOfPa pa)).target.isNone then .ok () else .error (.wake (bayOfPa pa)))
  else .ok ()

def readPieces (s : State) (ctx : W16) : List Piece → Chk (List Byte)
  | [] => .ok []
  | p :: ps => do
    awake s p.place.pa
    match s.mem.read ctx p.place.key p.place.pa p.len with
    | none => .error (.poison ctx (s.mem.badLine ctx p.place.pa p.len))
    | some bs => do
      let rest ← readPieces s ctx ps
      .ok (bs ++ rest)

def checkWrite (s : State) (ctx : W16) : List Piece → Chk Unit
  | [] => .ok ()
  | p :: ps => do
    awake s p.place.pa
    if s.mem.writeBlocked ctx p.place.pa p.len then .error (.poison ctx (s.mem.blockedLine ctx p.place.pa p.len)) else checkWrite s ctx ps

def writePieces (m : Memory) (ctx : W16) : List Piece → List Byte → Memory
  | [], _ => m
  | p :: ps, bs => writePieces (m.write ctx p.place.key p.place.pa (bs.take p.len)) ctx ps (bs.drop p.len)

/-- The scale byte's address for a data address (01 R27). -/
def scaleAddress (va fmt geo : Nat) : Nat :=
  2 ^ 55 + va % 2 ^ 55 / 2 ^ (if fmt = fmtSb8 then 4 + geo else 3 + geo)

/-- The checks of a scale page, on the path of its data page (01 R27), of an access that has found some pages. One that is neither SCALE nor RAW breaks R27 and R28; it raises HALF.
DESIGN CHOICE (log 80). -/
def translateScale (s : State) (ctx : W16) (sv : Bool) (path : Path) (known : List Page) (va : Nat) : Chk Place :=
  match findWithin s ctx known va with
  | .error (.sub 0x02) => badTrans 0x02 va
  | .error (.sub 0x05) => badTrans 0x05 va
  | .error (.sub _) => badTrans 0x06 va
  | .error (.poison pa) => .error (.poison ctx pa)
  | .ok p =>
    match leafFormat va p.leaf with
    | some sub => badFormat sub va
    | none => if leafFmt p.leaf ≠ fmtScale then badFormat 0x23 va else translateWithin s ctx sv path anyFmt known va

end Sys2Proof.Machine
end

