-- ==== Sys2Proof/Machine/CoreOps.lean ====
section
/-! DEFINITION. The named operations on a core: its clusters, registers, flights, queues, cue FIFOs and watch regions
(06 R147 to R164; 14 R387 to R390). -/

namespace Sys2Proof.Machine
open Sys2Proof

abbrev Out := Host.Outcome State Fault Refusal

/-! ## Cores and clusters -/

def State.core (s : State) (n : Nat) : Core := Map.get {} s.cores n
def State.putCore (s : State) (n : Nat) (c : Core) : State := { s with cores := Map.set s.cores n c }
def State.bay (s : State) (b : Nat) : Bay := Map.get {} s.bays b
def State.putBay (s : State) (b : Nat) (x : Bay) : State := { s with bays := Map.set s.bays b x }
def State.die (s : State) (d : Nat) : Die := Map.get {} s.dies d
def State.putDie (s : State) (d : Nat) (x : Die) : State := { s with dies := Map.set s.dies d x }
def State.withMem (s : State) (m : Memory) : State := { s with mem := m }
def State.withSys (s : State) (y : Sys) : State := { s with sys := y }
def State.withFab (s : State) (f : Fabric) : State := { s with fab := f }
def State.withHost (s : State) (h : HostIf) : State := { s with host := h }

/-- The bay and the die of a core (06 R146). -/
def bayOfCore (n : Nat) : Nat := n / 4
def dieOfCore (n : Nat) : Nat := n / 288

def Core.cluster (c : Core) : Cl → Cluster
  | .K => c.k
  | .L => c.l
  | .C => c.c
  | .S => c.s

def Core.putCluster (c : Core) (cl : Cl) (x : Cluster) : Core :=
  match cl with
  | .K => { c with k := x }
  | .L => { c with l := x }
  | .C => { c with c := x }
  | .S => { c with s := x }

def State.cluster (s : State) (n : Nat) (cl : Cl) : Cluster := (s.core n).cluster cl
def State.putCluster (s : State) (n : Nat) (cl : Cl) (x : Cluster) : State := s.putCore n ((s.core n).putCluster cl x)

def allCl : List Cl := [.K, .L, .C, .S]

/-- The context a core runs in. -/
def Core.ctx (c : Core) : W16 :=
  match c.sys.task with
  | some t => t.ctx
  | none => 0

def Core.det (c : Core) : Bool :=
  match c.sys.task with
  | some t => t.det
  | none => false

def Core.audit (c : Core) : Bool :=
  match c.sys.task with
  | some t => t.audit
  | none => false

/-! ## Registers (06 R147): register 0 of K, L and S reads 0 and discards writes; p0 reads all ones and discards writes -/

def vget {n : Nat} {α : Type} (d : α) (v : Vector α n) (i : Nat) : α := (v[i]?).getD d

def Regs.getX (r : Regs) (n : Nat) : W64 := if n = 0 then 0 else vget 0 r.x n
def Regs.setX (r : Regs) (n : Nat) (v : W64) : Regs := if n = 0 then r else { r with x := r.x.setIfInBounds n v }
def Regs.getLx (r : Regs) (n : Nat) : W64 := if n = 0 then 0 else vget 0 r.lx n
def Regs.setLx (r : Regs) (n : Nat) (v : W64) : Regs := if n = 0 then r else { r with lx := r.lx.setIfInBounds n v }
def Regs.getSx (r : Regs) (n : Nat) : W64 := if n = 0 then 0 else vget 0 r.sx n
def Regs.setSx (r : Regs) (n : Nat) (v : W64) : Regs := if n = 0 then r else { r with sx := r.sx.setIfInBounds n v }
def Regs.getCx (r : Regs) (n : Nat) : W64 := vget 0 r.cx n
def Regs.setCx (r : Regs) (n : Nat) (v : W64) : Regs := { r with cx := r.cx.setIfInBounds n v }
def Regs.getV (r : Regs) (n : Nat) : Vec := vget 0 r.v n
def Regs.setV (r : Regs) (n : Nat) (v : Vec) : Regs := { r with v := r.v.setIfInBounds n v }
def Regs.getP (r : Regs) (n : Nat) : W64 := if n = 0 then BitVec.allOnes 64 else vget 0 r.p n
def Regs.setP (r : Regs) (n : Nat) (v : W64) : Regs := if n = 0 then r else { r with p := r.p.setIfInBounds n v }

/-- G[n] of L and S (10 R262), and the x and cx registers of K and C. -/
def Regs.getG (r : Regs) (cl : Cl) (n : Nat) : W64 :=
  match cl with
  | .K => r.getX n
  | .L => r.getLx n
  | .S => r.getSx n
  | .C => r.getCx n

def Regs.setG (r : Regs) (cl : Cl) (n : Nat) (v : W64) : Regs :=
  match cl with
  | .K => r.setX n v
  | .L => r.setLx n v
  | .S => r.setSx n v
  | .C => r.setCx n v

def State.regs (s : State) : Regs := (s.core s.curCore).regs
def State.putRegs (s : State) (r : Regs) : State := s.putCore s.curCore { s.core s.curCore with regs := r }
def State.cc (s : State) : Core := s.core s.curCore
def State.putCc (s : State) (c : Core) : State := s.putCore s.curCore c
def State.addr (s : State) : Nat := s.cur.addr.toNat

/-! ## Pools of areas and blocks (14 R376, 15 R404) -/

def poolCount (v : W64) : Nat := min (bits v.toNat 12 0) 4096
def poolFree (v : W64) (used : List Nat) : Nat := poolCount v - used.length
/-- The lowest free index of a pool. -/
def lowestFree (used : List Nat) (count : Nat) : Option Nat := (List.range count).find? fun i => !used.contains i

/-! ## Lane addresses (08 R196) -/

def laneSpace : Nat := 0x20000
def nextLane (a : Nat) : Nat := (if a % 32 = 28 then a + 8 else a + 4) % laneSpace
/-- a + 4 × SignExtend(off), modulo the memory (08 R197). -/
def laneOff (a : Nat) (off : Int) : Nat := ((a : Int) + 4 * off).emod laneSpace |>.toNat
def frameOf (a : Nat) : Nat := a / 0x10000 % 2
def Core.frame (c : Core) (f : Nat) : Frame := if f = 0 then c.frame0 else c.frame1
def Core.putFrame (c : Core) (f : Nat) (x : Frame) : Core := if f = 0 then { c with frame0 := x } else { c with frame1 := x }
/-- Usable(f) (09 R241). -/
def Core.usable (c : Core) (f : Nat) : Bool := (c.frame f).tag == c.ctx && !(c.frame f).empty

/-! ## Flights and visibility (03 R81) -/

/-- The number of the oldest lane of a cluster that has not completed. -/
def Cluster.oldest (x : Cluster) : Nat :=
  match x.flights with
  | [] => x.flightNo
  | f :: _ => f.no

/-- The cluster that pushes a queue, and the one that pops it; q13 and q14 are popped by fetch (06 R156). -/
def queueProducer (q : Nat) : Cl :=
  if q ≤ 3 ∨ q = 9 ∨ q = 12 ∨ q = 13 then .L else if q ≤ 5 ∨ q = 10 ∨ q = 14 ∨ q = 15 then .C else if q = 11 then .S else .K

def queueConsumer (q : Nat) : Cl :=
  if q ≤ 3 ∨ q = 7 ∨ q = 12 then .C else if q = 4 ∨ q = 5 ∨ q = 8 then .S else if q = 6 ∨ q = 15 then .L else .K

def queueWide (q : Nat) : Bool := decide (q ≤ 5) || decide (q = 15)
def queueBranch (q : Nat) : Bool := decide (q = 13) || decide (q = 14)
def queueBytes (q : Nat) : Nat := if queueWide q then 256 else 8
def queueDepth (q : Nat) : Nat := if queueBranch q then 32 else if q = 15 then 4 else if queueWide q then 8 else 16

def Core.queue (c : Core) (q : Nat) : Queue := vget {} c.queues q
def Core.putQueue (c : Core) (q : Nat) (x : Queue) : Core := { c with queues := c.queues.setIfInBounds q x }

/-- An entry whose lane, and every earlier lane of its cluster, has completed, and whose data is there (06 R157). -/
def Core.entryVisible (c : Core) (q : Nat) (e : QEntry) : Bool :=
  decide (e.src < (c.cluster (queueProducer q)).oldest) && decide (e.fill = .ready)

/-- The visible head of a queue. -/
def Core.headOf (c : Core) (q : Nat) : Option QEntry :=
  match (c.queue q).chip with
  | [] => none
  | e :: _ => if c.entryVisible q e then some e else none

def Core.popQueue (c : Core) (q : Nat) : Core := c.putQueue q { c.queue q with chip := (c.queue q).chip.tail }

/-! ### Sluices (06 R159 to R161; 04 R111, R112) -/

/-- A `ref.exec` waits for the packages that it writes to (15 R410). -/
def Cluster.refWaits (x : Cluster) : Bool := x.flights.any fun f => decide (f.kind = .remote)

def Queue.sluiced (x : Queue) : Bool := bit x.cfg.toNat 63
def Queue.size (x : Queue) : Nat := (bits x.cfg.toNat 59 56 + 1) * 4096
def Queue.quota (x : Queue) : Nat := (min (bits x.cfg.toNat 55 52) (bits x.cfg.toNat 59 56) + 1) * 4096

/-- The physical address of a ring offset. -/
def Queue.ringPa (x : Queue) (o : Nat) : Nat := x.pages.getD (o / 4096) 0 + o % 4096

/-- Room for k more entries: some true to go on, some false to wait, for a refill where the ring alone is full, none for SLUICE_QUOTA. -/
def Core.room (c : Core) (q k : Nat) : Option Bool :=
  let x := c.queue q
  if x.sluiced then
    let spill := if x.ring = [] then k - (queueDepth q - x.chip.length) else k
    if spill = 0 || (x.ring.length + spill) * queueBytes q ≤ x.quota then some true
    else if x.chip.length + x.ring.length + k ≤ queueDepth q + x.quota / queueBytes q then some false else none
  else some (decide (x.chip.length + k ≤ queueDepth q))

/-! ## Cues (06 R162, R163): FIFOs LC, CL, CS, SC numbered 0 to 3 -/

def cueProducer (f : Nat) : Cl := if f = 0 then .L else if f = 3 then .S else .C

def Core.cue (c : Core) (f : Nat) : List Nat := vget [] c.cues f
def Core.putCue (c : Core) (f : Nat) (x : List Nat) : Core := { c with cues := c.cues.setIfInBounds f x }

def Core.cueVisible (c : Core) (f : Nat) : Bool :=
  match c.cue f with
  | [] => false
  | t :: _ => decide (t < (c.cluster (cueProducer f)).oldest)

/-- Tokens of a cue FIFO that are visible. -/
def Core.visTokens (c : Core) (f : Nat) : Nat :=
  ((c.cue f).takeWhile fun t => decide (t < (c.cluster (cueProducer f)).oldest)).length

def cuePops (cl : Cl) (cue : Nat) : List Nat :=
  match cl with
  | .K => []
  | .L => if bit cue 1 then [1] else []
  | .C => (if bit cue 1 then [3] else []) ++ (if bit cue 3 then [0] else [])
  | .S => if bit cue 3 then [2] else []

def cuePushes (cl : Cl) (cue : Nat) : List Nat :=
  match cl with
  | .K => []
  | .L => if bit cue 0 then [0] else []
  | .C => (if bit cue 0 then [2] else []) ++ (if bit cue 2 then [1] else [])
  | .S => if bit cue 2 then [3] else []

/-! ## Watch regions (14 R387 to R390) -/

/-- The agents of WATCH_CTL.AGENTS, by their bit less 2. -/
def agentK : Nat := 0
def agentL : Nat := 1
def agentS : Nat := 2
def agentJob : Nat := 3
def agentOperand : Nat := 4
def agentDrain : Nat := 5

/-- The first element of a region that bytes [va, va + n) touch: its row and column, least row first. Elements count in bits, so
that SB4's nibbles have size 4. -/
def watchElem (base rows cols pitch esBits va n : Nat) : Nat → Nat → Option (Nat × Nat)
  | 0, _ => none
  | f + 1, e =>
    if esBits * e ≥ (va + n - base) * 8 then none
    else
      let r := if rows = 1 then 0 else e / pitch
      let c := if rows = 1 then e else e % pitch
      if e ≥ 2 ^ 32 || r ≥ rows then none
      else if c < cols then some (r, c)
      else if rows = 1 then none
      else watchElem base rows cols pitch esBits va n f ((r + 1) * pitch)

/-- One region against one access (14 R388): scale bytes match only a region in the scale half. -/
def watchRegion (s : State) (c : Core) (i agent : Nat) (wr : Bool) (va n : Nat) : Option (Nat × Nat) :=
  let base := bits (vget 0 c.csr.watchBase i).toNat 55 0
  let sh := (vget 0 c.csr.watchShape i).toNat
  let ctl := (vget 0 c.csr.watchCtl i).toNat
  let rows := bits sh 63 48
  let cols := bits sh 47 32
  let pitch := bits sh 31 0
  if !bit ctl (2 + agent) || !bit ctl (if wr then 1 else 0) || rows = 0 || cols = 0 || (rows > 1 && pitch < cols)
      || (bit va 55 && !bit base 55) then none
  else match findPage s c.ctx base with
  | .error _ => none
  | .ok p =>
    if leafFmt p.leaf ≥ 10 then none
    else
      let es := if leafFmt p.leaf = fmtSb4 then 4 else 8 * (elemSize (leafFmt p.leaf)).getD 1
      if va + n ≤ base then none
      else
        let first := if va ≤ base then 0 else (va - base) * 8 / es
        watchElem base rows cols pitch es va n 2 first

def lexLess (a b : Nat × Nat) : Bool := decide (a.1 < b.1) || (decide (a.1 = b.1) && decide (a.2 < b.2))

/-- The least element of a region that any range of an access touches. -/
def watchRanges (s : State) (c : Core) (i agent : Nat) (wr : Bool) : List (Nat × Nat) → Option (Nat × Nat)
  | [] => none
  | (va, n) :: rest =>
    match watchRegion s c i agent wr va n, watchRanges s c i agent wr rest with
    | none, r => r
    | some a, none => some a
    | some a, some b => if lexLess b a then some b else some a

/-- The match of an access: TRAPINFO, and every region that matches (14 R390). -/
def watchMatch (s : State) (c : Core) (agent : Nat) (wr : Bool) (ranges : List (Nat × Nat)) : Option (W64 × List Nat) :=
  let hits := (List.range 8).filterMap fun i => (watchRanges s c i agent wr ranges).map fun rc => (i, rc)
  match hits with
  | [] => none
  | (i, r, col) :: _ =>
    some (BitVec.ofNat 64 (i * 2 ^ 61 + boolNat wr * 2 ^ 60 + agent * 2 ^ 56 + r * 2 ^ 16 + col), hits.map Prod.fst)

/-- No region applies to a supervisor's lane, or once after SKIPW (14 R371, R389). -/
def watchOff (c : Core) (cl : Cl) : Bool := c.sys.sv || (c.cluster cl).skipw

/-- A read match stops the lane before it issues (14 R389). -/
def watchRead (s : State) (n : Nat) (cl : Cl) (agent : Nat) (ranges : List (Nat × Nat)) : Chk Unit :=
  if watchOff (s.core n) cl then .ok ()
  else match watchMatch s (s.core n) agent false ranges with
  | none => .ok ()
  | some (info, hits) => .error (.watch info hits)

/-- A write match is raised when the lane completes (14 R389). -/
def watchWrite (s : State) (n : Nat) (cl : Cl) (agent : Nat) (ranges : List (Nat × Nat)) : Option (W64 × List Nat) :=
  if watchOff (s.core n) cl then none else watchMatch s (s.core n) agent true ranges

/-- The regions that trap: HIT is set, and a ONCE region's MODE cleared (14 R387). -/
def Csrs.watchHit (c : Csrs) (hits : List Nat) : Csrs :=
  { c with watchCtl := hits.foldl (fun v i =>
      let x := (vget 0 v i).toNat
      let y := setBits x 15 15 1
      v.setIfInBounds i (BitVec.ofNat 64 (if bit x 16 then setBits y 1 0 0 else y))) c.watchCtl }

/-- An access wakes a slice that is not ON; one in transition it waits for (02 R70; 17 R440). DEDUCED (log 67). -/
def State.wakeSlice (s : State) (b : Nat) : State :=
  let y := s.bay b
  if y.target.isSome then s else s.putBay b { y with target := some .on }

/-- What was due for a slice is written, in order. -/
def Due.apply (m : Memory) (d : Due) : Memory :=
  match d.data with
  | some bs => m.write d.ctx 0 d.pa bs
  | none => m.poisonRange d.ctx d.pa d.len

/-- What was due for a bay's slice is there now. -/
def State.settleDue (s : State) (b : Nat) : State :=
  let mine (d : Due) : Bool := decide (bayOfPa d.pa = b)
  (s.withMem ((s.sys.due.filter mine).foldl Due.apply s.mem)).withSys { s.sys with due := s.sys.due.filter fun d => !mine d }

/-- A slice at rest is on again; one that was off holds nothing but what was due for it. -/
def State.sliceOn (s : State) (b : Nat) : State :=
  let y := s.bay b
  let s1 := s.putBay b { y with power := .on, target := none }
  let mine (a : Nat) : Bool := decide (bayOfPa a = b)
  let s2 := match y.power with
  | .off =>
    let m := s.mem
    s1.withMem { m with cells := m.cells.filter fun c => !mine c.1, tags := m.tags.filter fun (t : Nat × W16) => !mine t.1,
                        poison := m.poison.filter fun a => !mine a, orphan := m.orphan.filter fun a => !mine a,
                        damaged := m.damaged.filter fun a => !mine a, tagLost := m.tagLost.filter fun a => !mine a }
  | _ => s1
  s2.settleDue b

/-- The lines of n bytes, each with its part of them. -/
def lineParts (pa : Nat) (bs : List Byte) : List (Nat × List Byte) :=
  (linesOf pa bs.length).map fun u => (max pa u, (bs.drop (max pa u - pa)).take (u + 64 - max pa u))

/-- What an engine leaves in memory: at once, or where a slice is not on, when it is; the slice is woken (02 R66, R70). -/
def State.leave (s : State) (d : Due) : State :=
  match awake s d.pa with
  | .ok _ => s.withMem (d.apply s.mem)
  | .error _ => (s.withSys { s.sys with due := s.sys.due ++ [d] }).wakeSlice (bayOfPa d.pa)

/-- Bytes that an engine writes without a key. -/
def State.leaveBytes (s : State) (ctx : W16) (pa : Nat) (bs : List Byte) : State :=
  (lineParts pa bs).foldl (fun s p => s.leave { ctx := ctx, pa := p.1, len := p.2.length, data := some p.2 }) s

/-- Every line of a range is left poisoned. -/
def State.leavePoison (s : State) (ctx : W16) (pa n : Nat) : State :=
  (linesOf pa n).foldl (fun s u => s.leave { ctx := ctx, pa := u, len := 64, data := none }) s

/-! ## The up ring (17 R434 to R437) -/

def ringBase (r : W64) : Nat := Config.hostBase + r.toNat / 4096 * 4096 % (Config.hostEnd - Config.hostBase)
def ringSlots (r : W64) : Nat := 2 ^ (min (r.toNat % 16) 10 + 6)

/-- Where entry SEQ of the up ring lies. -/
def upSlot (ring : W64) (seq : W32) : Nat := ringBase ring + 64 * ((seq.toNat + 2 ^ 32 - 1) % 2 ^ 32 % ringSlots ring)

/-- The link that carries ring traffic: die 0's while it is up, die 2's otherwise (17 R433). -/
def HostIf.link (h : HostIf) : BitVec 1 := if h.linkUp then 0 else 1

/-- An entry written and kept until the host acknowledges it, or another takes its slot. -/
def HostIf.keep (h : HostIf) (seq : W32) (bs : List Byte) : HostIf :=
  let kept := h.unread ++ [(seq, bs)]
  { h with lastUp := seq, ringLink := h.link, unread := kept.drop (kept.length - ringSlots h.ringUp) }

/-- One entry of the up ring: the next SEQ, and the last down-ring SEQ consumed as ACK. -/
def State.postUp (s : State) (kind op : Nat) (ws : List Nat) : State :=
  let seq := s.host.lastUp + 1
  let w0 := seq.toNat * 2 ^ 32 + s.host.lastDown.toNat % 2 ^ 16 * 2 ^ 16 + kind * 2 ^ 12 + op
  let bs := bytesOf 64 (joinNat 64 (w0 :: ws))
  (s.withMem (s.mem.rawWrite 0 (upSlot s.host.ringUp seq) bs)).withHost (s.host.keep seq bs)

/-! ## The error log (02 R69) -/

def State.logError (s : State) (die : Nat) (ctx : W16) (array kind loc : Nat) : State :=
  let d := s.die die
  let w0 := BitVec.ofNat 64 (ctx.toNat * 2 ^ 48 + array * 2 ^ 40 + kind * 2 ^ 32 + s.sys.frame.toNat % 2 ^ 32)
  s.putDie die { d with errlog := Map.set d.errlog (d.errHead.toNat % 64) (w0, BitVec.ofNat 64 loc), errHead := d.errHead + 1 }

/-- A record, and its notice to the management complex and the host for KIND 1 and 4. -/
def State.logEvent (s : State) (die : Nat) (ctx : W16) (array kind loc : Nat) : State :=
  let s1 := s.logError die ctx array kind loc
  if kind = 1 || kind = 4 then
    let r := Map.get (0, 0) (s1.die die).errlog ((s.die die).errHead.toNat % 64)
    s1.postUp 2 0x083 [r.1.toNat, r.2.toNat]
  else s1

/-- The die that logs an error at a physical address: the slice's die, the stack's, the channel's (02 R49, R50). -/
def dieOfPa (pa : Nat) : Nat :=
  if isSlice pa then bayOfPa pa / 72
  else if isHbm pa then (pa - Config.hbmBase) / 4096 % 12 / 3
  else (pa - Config.ddrBase) / 4096 % 8 / 2

def arrayOfPa (pa : Nat) : Nat := if isSlice pa then 0 else if isHbm pa then 11 else 12

/-! ## Scopes (13 R364, R365) -/

def rootScope (s : State) (ctx : W16) : W16 := BitVec.ofNat 16 (bits (s.mem.read64 (ctxDescriptor s ctx)) 35 20)

/-- The slot of a context serves its generation still (01 R13, R15). -/
def currentCtx (s : State) (ctx : W16) : Bool := decide (ctx ≠ 0) && descriptorOk ctx (s.mem.read64 (ctxDescriptor s ctx))

def State.scope? (s : State) (id : W16) : Option Scope := Map.find? s.scopes id.toNat
def State.putScope (s : State) (id : W16) (sc : Scope) : State := { s with scopes := Map.set s.scopes id.toNat sc }
def scopeDie (id : W16) : Nat := id.toNat / 16384

/-- The scope and its ancestors, nearest first. -/
def scopePath (s : State) : Nat → W16 → List W16
  | 0, _ => []
  | f + 1, id =>
    match s.scope? id with
    | none => [id]
    | some sc => id :: (match sc.parent with
      | none => []
      | some p => scopePath s f p)

def State.pathOf (s : State) (id : W16) : List W16 := scopePath s (s.scopes.length + 1) id

/-- a is anc or one of its descendants. -/
def State.under (s : State) (a anc : W16) : Bool := (s.pathOf a).contains anc

/-- A kill recorded at the callboard: of a scope that is not already being killed; descendants whose own kill is in progress are swept
(13 R365). -/
def State.killScope (s : State) (id : W16) (cause : Cause) : State :=
  match s.scope? id with
  | none => s
  | some sc =>
    if sc.killing then s
    else
      let s1 := s.putScope id { sc with killing := true, cause := cause }
      { s1 with scopes := s1.scopes.map fun e =>
          if e.1 ≠ id.toNat && e.2.killing && !e.2.written && s.under (BitVec.ofNat 16 e.1) id then (e.1, { e.2 with swept := true }) else e }

/-- The root scope of a context that its slot still serves, made known where nothing has run in it yet (01 R15). -/
def State.rootOf (s : State) (ctx : W16) : Option (W16 × State) :=
  let r := rootScope s ctx
  if !currentCtx s ctx then none
  else match s.scope? r with
  | some sc => if sc.ctx = ctx then some (r, s) else none
  | none => some (r, s.putScope r { ctx := ctx, parent := none })

/-- An uncorrectable event ends one context: a kill of its root scope (02 R65, R67, R68). A context that its slot serves no longer has
nothing left to end. -/
def State.endContext (s : State) (ctx : W16) : State :=
  match s.rootOf ctx with
  | some (r, s1) => s1.killScope r .uncorrectable
  | none => s

/-! ### Errors that an access meets (02 R65, R69) -/

/-- A context meets an error at a line. One that nothing has met before is recorded as uncorrectable, or as a tag orphaned; poison met
again as a poisoned unit read. DESIGN CHOICE (log 81). -/
def State.poisonMet (s : State) (ctx : W16) (pa : Nat) : State :=
  let u := lineOf pa
  let die := dieOfPa pa
  (if s.mem.tagLost.contains u then (s.withMem (s.mem.orphanLine u)).logEvent die ctx 1 4 pa
    else if s.mem.orphan.contains u then s.logEvent die ctx 1 1 pa
    else if s.mem.damaged.contains u then (s.withMem (s.mem.poisonLine u)).logEvent die ctx (arrayOfPa pa) 1 pa
    else s.logEvent die ctx (arrayOfPa pa) 3 pa).endContext ctx

/-- A request of another package meets an error at a line: no context of this one ends (05 R129). -/
def State.poisonFound (s : State) (pa : Nat) : State :=
  let u := lineOf pa
  let die := dieOfPa pa
  if s.mem.tagLost.contains u then (s.withMem (s.mem.orphanLine u)).logEvent die 0 1 4 pa
  else if s.mem.orphan.contains u then s.logEvent die 0 1 2 pa
  else if s.mem.damaged.contains u then (s.withMem (s.mem.poisonLine u)).logEvent die 0 (arrayOfPa pa) 2 pa
  else s.logEvent die 0 (arrayOfPa pa) 3 pa

/-- LOC of a unit without a physical address. DESIGN CHOICE (log 39). -/
def unitLoc (bay unit index : Nat) : Nat := bay % 72 * 2 ^ 24 + unit * 2 ^ 16 + index

/-- A context meets a poisoned unit of a core: a slot row, or a word of its bank. DESIGN CHOICE (log 81). -/
def State.unitMet (s : State) (n : Nat) (ctx : W16) (array index : Nat) : State :=
  (s.logEvent (dieOfCore n) ctx array 3 (unitLoc (bayOfCore n) (n % 4) index)).endContext ctx

/-! ## Pushes -/

/-- The next push of a queue goes into its ring. -/
def Queue.spills (x : Queue) (q : Nat) : Bool := x.sluiced && (decide (queueDepth q ≤ x.chip.length) || decide (x.ring ≠ []))

/-- A push: on chip while there is a place and nothing is spilled, else into the ring (06 R161), whose owner writes it (02 R61, R65). -/
def State.pushQueue (s : State) (n q : Nat) (e : QEntry) : State :=
  let c := s.core n
  let x := c.queue q
  if x.spills q then
    let w := queueBytes q
    let pa := x.ringPa x.tail
    let s1 := if s.mem.writeBlocked e.tag pa w then s.poisonMet e.tag (s.mem.blockedLine e.tag pa w)
      else s.withMem (s.mem.write e.tag 0 pa (bytesOf w e.data.toNat))
    s1.putCore n (c.putQueue q { x with ring := x.ring ++ [e], tail := (x.tail + w) % x.size })
  else s.putCore n (c.putQueue q { x with chip := x.chip ++ [e] })

end Sys2Proof.Machine
end

