-- ==== Sys2Proof/Machine/Graph.lean ====
section
/-! DEFINITION. The callboard's named operations: scopes and kills, graph and node records, faults, cones, settling, and nests
(13 R340 to R366). -/

namespace Sys2Proof.Machine
open Sys2Proof

/-! ## Records in memory, read and written in a context -/

/-- The pages of an access of the sequencer. One that the host has refused to a step that waited for it fails (01 R41). -/
def State.seqRange (s : State) (ctx : W16) (sv : Bool) (path : Path) (va n : Nat) : Chk (List Piece) :=
  match translateRange s ctx sv path anyFmt va n with
  | .error (.stall c at_ base leaf) =>
    if s.sys.refused.contains (c, base) then .error (.trap .migration (vaInfo 0x31 at_)) else .error (.stall c at_ base leaf)
  | r => r

def State.vaReadAs (s : State) (ctx : W16) (sv : Bool) (path : Path) (va n : Nat) : Chk (List Byte) := do
  let ps ← s.seqRange ctx sv path va n
  readPieces s ctx ps

def State.vaRead (s : State) (ctx : W16) (path : Path) (va n : Nat) : Chk (List Byte) := s.vaReadAs ctx false path va n

def words64 (n : Nat) (bs : List Byte) : List W64 := wordsOf n (ofBytes bs)

def State.vaWordsAs (s : State) (ctx : W16) (sv : Bool) (va n : Nat) : Chk (List W64) := do
  let bs ← s.vaReadAs ctx sv (.load 8) va (8 * n)
  .ok (words64 n bs)

def State.vaWords (s : State) (ctx : W16) (va n : Nat) : Chk (List W64) := s.vaWordsAs ctx false va n

def wordAt (ws : List W64) (i : Nat) : Nat := (ws.getD i 0).toNat

/-- The cause of a trap record, from what kept an access from being performed. What only delays (`Halt.delays`) is never recorded. -/
def Halt.toTrap : Halt → Trap
  | .trap c info => { cause := c, info := info }
  | .watch info _ => { cause := .watch, info := info }
  | .poison _ _ => { cause := .uncorrectable, info := 0 }
  | .stall _ va _ _ => { cause := .migration, info := vaInfo 0x31 va }
  | _ => { cause := .killed, info := 0 }

/-- What only delays an agent of the memory side: a wait, a host-owned page, a slice asleep. -/
def Halt.delays : Halt → Bool
  | .wait => true
  | .stall _ _ _ _ => true
  | .wake _ => true
  | _ => false

def Cause.code : Cause → Nat
  | .laneKind => 0x01 | .lineKind => 0x02 | .illegalOp => 0x03 | .priv => 0x04 | .translation => 0x05 | .permission => 0x06
  | .format => 0x07 | .align => 0x08 | .watch => 0x09 | .understudy => 0x0A | .uncorrectable => 0x0B | .sluiceQuota => 0x0C
  | .hazardCheck => 0x0D | .nondet => 0x0E | .lease => 0x0F | .migration => 0x10 | .peerGone => 0x11 | .fabricError => 0x12
  | .killed => 0x13 | .timetableSlip => 0x14 | .break => 0x15 | .queueProtocol => 0x16 | .collectiveAborted => 0x17

/-! ## Replies (17 R436) -/

/-- The one reply to a request: its OP, its STATUS and its results. -/
def State.reply (s : State) (op status result : Nat) (ws : List Nat) : State :=
  s.postUp 1 op ((status + result * 256) :: ws)

/-! ## Delays (01 R40; 02 R70) -/

/-- A page the memory side waits for: the management complex asks the host once (01 R40). -/
def State.askFlip (s : State) (ctx : W16) (base leaf : Nat) : State :=
  if s.sys.flips.any fun f => f.ctx = ctx ∧ f.base.toNat = base ∧ !f.late then s
  else
    let pa := pageOffset leaf + regionBase (leafMt leaf)
    let f : Flip := { ctx := ctx, base := BitVec.ofNat 64 base, sz := leafSz leaf, pa := pa }
    (s.withSys { s.sys with flips := s.sys.flips ++ [f] }).postUp 0 0x040 [ctx.toNat, base, leafSz leaf, pa]

/-- The effect of a delay, the same whatever agent it holds. -/
def State.delayed (s : State) : Halt → State
  | .stall ctx _ base leaf => s.askFlip ctx base leaf
  | .wake b => s.wakeSlice b
  | .poison ctx pa => s.poisonMet ctx pa
  | _ => s

/-- The launch that a graph came from: graphs are numbered in the order they were launched. -/
def launchOf (s : State) (g : Nat) : Nat := ((Map.find? s.graphs g).map Graph.root).getD g

/-! ### Steps of the sequencer

A step of the sequencer or a callboard makes many accesses of its own. One that meets a host-owned page or a slice asleep is only delayed
(01 R40; 02 R70): the whole step waits, with nothing of it done, and is taken again. -/

/-- What an access of the step in hand meets: poison ends its context, a delay holds the step. -/
def State.met (s : State) : Halt → State
  | .poison ctx pa => s.poisonMet ctx pa
  | .trap _ _ => s
  | .watch _ _ => s
  | h => { s with blocked := some (s.blocked.getD h) }

/-- The step waits: its page is asked for once, its slice woken. -/
def State.waitFor (s : State) (h : Halt) : State :=
  let s1 := s.delayed h
  match h with
  | .stall c _ base _ =>
    s1.withSys { s1.sys with flips := s1.sys.flips.map fun f => if f.ctx = c ∧ f.base.toNat = base then { f with queued := true } else f }
  | _ => s1

/-- A page refused to the step has been told to it. -/
def State.tellRefused (s t : State) (f : State → State) : State :=
  if s.sys.refused = [] then t
  else match (f (s.withSys { s.sys with refused := [] })).blocked with
    | some (.stall c _ base _) => t.withSys { t.sys with refused := t.sys.refused.erase (c, base) }
    | _ => t

/-- A step taken whole; where it has to wait, `g` says how. -/
def State.wholeOr (s : State) (f g : State → State) : State :=
  let t := f s
  match t.blocked with
  | none => s.tellRefused t f
  | some h => if s.blocked.isSome then t else g (s.waitFor h)

/-- A step taken whole, or not yet. -/
def State.whole (s : State) (f : State → State) : State := s.wholeOr f id

/-- A write of the sequencer's: nothing is written where the page does not take it. -/
def State.vaWrite (s : State) (ctx : W16) (path : Path) (va : Nat) (bs : List Byte) : State :=
  match s.seqRange ctx false path va bs.length with
  | .error h => s.met h
  | .ok ps =>
    match checkWrite s ctx ps with
    | .error h => s.met h
    | .ok _ => s.withMem (writePieces s.mem ctx ps bs)

def State.vaStore (s : State) (ctx : W16) (va n v : Nat) : State := s.vaWrite ctx (.store n) va (bytesOf n v)

/-- A write of the network engine's: it alone waits for a host-owned page or a slice asleep, and nothing is written where the page does
not take it. -/
def State.vaPost (s : State) (ctx : W16) (path : Path) (va : Nat) (bs : List Byte) : State :=
  let hold (t : State) : State := t.withSys { t.sys with heldWrites := t.sys.heldWrites ++ [(ctx, va, bs)] }
  match translateRange s ctx false path anyFmt va bs.length with
  | .error h => if h.delays then hold (s.delayed h) else s.delayed h
  | .ok ps =>
    match checkWrite s ctx ps with
    | .error h => if h.delays then hold (s.delayed h) else s.delayed h
    | .ok _ => s.withMem (writePieces s.mem ctx ps bs)

/-- The writes that waited are tried again, in order. -/
def State.retryWrites (s : State) : State :=
  s.sys.heldWrites.foldl (fun s w => s.vaPost w.1 .jobWrite w.2.1 w.2.2) (s.withSys { s.sys with heldWrites := [] })

/-! ## Scopes (13 R364) -/

def killingScope (s : State) (id : W16) : Bool :=
  match s.scope? id with
  | some sc => sc.killing && !sc.written
  | none => false

/-- The nearest scope on the path whose kill is in progress. -/
def State.killer (s : State) (id : W16) : Option W16 := (s.pathOf id).find? fun a => killingScope s a

/-- A member of a killed subtree. -/
def State.dying (s : State) (id : W16) : Bool := (s.pathOf id).any fun a =>
  match s.scope? a with
  | some sc => sc.killing
  | none => false

/-- A root scope, made known when its context first runs work (01 R15). -/
def State.ensureRoot (s : State) (ctx : W16) : State :=
  match s.scope? (rootScope s ctx) with
  | some sc => if sc.ctx = ctx then s else s.putScope (rootScope s ctx) { ctx := ctx, parent := none }
  | none => s.putScope (rootScope s ctx) { ctx := ctx, parent := none }

/-! ### What keeps a scope from having gone -/

def taskIn (s : State) (anc : W16) (t : Task) : Bool := s.under t.scope anc

def coreHolds (s : State) (anc : W16) (c : Core) : Bool :=
  (match c.sys.task with
    | some t => taskIn s anc t
    | none => false) || c.sys.prefetch.any (taskIn s anc)
    || c.mem.remote.any (fun o => decide (o.op ≠ 0) && s.under o.who.scope anc)
    || (c.mem.transit ++ c.mem.refused).any (fun u => s.under u.who.scope anc)
    || (c.mem.opens ++ c.mem.closes).any (fun o => s.under o.who.scope anc) || c.mem.drops.any (fun d => s.under d.who.scope anc)

def nestHolds (s : State) (anc : W16) (n : Nest) : Bool := !n.stopped && s.under n.scope anc || n.requeued.any (taskIn s anc)

def graphHolds (s : State) (anc : W16) (g : Graph) : Bool :=
  decide (g.settled = none) && (s.under g.scope anc ||
    g.nodes.any fun n => (n.2.status = 1 || n.2.status = 2 || n.2.status = 6) &&
      (match n.2.scope with
        | some x => s.under x anc
        | none => false))

def bayHolds (s : State) (anc : W16) (b : Bay) : Bool := b.jobs.any fun j => s.under j.who.scope anc

/-- A serving unit holds an update of the subtree's. -/
def unitHolds (s : State) (anc : W16) (gs : List Group) : Bool := gs.any fun g => g.held.any fun u => s.under u.who.scope anc

/-- A task, nest or job of the subtree is left, or a group operation, a remote operation or a weir membership of its tasks. -/
def State.holds (s : State) (id : W16) : Bool :=
  s.cores.any (fun c => coreHolds s id c.2) || s.nests.any (fun n => nestHolds s id n.2)
    || s.bays.any (fun b => bayHolds s id b.2) || s.units.any fun u => unitHolds s id u.2

/-- Nothing of the subtree is left, and no graph. -/
def State.gone (s : State) (id : W16) : Bool := !s.holds id && !(s.graphs.any fun g => graphHolds s id g.2)

/-- A scope that exists and has not ended: a root until it is killed, another while it has a member or an unfinished kill. -/
def State.liveScope (s : State) (id : W16) : Bool :=
  match s.scope? id with
  | none => false
  | some sc => if sc.killing then !sc.written else sc.parent.isNone || !s.gone id

/-! ### Indices -/

/-- The first index from n on that no entry takes, below the bound. -/
def firstGap {α : Type} : Map α → Nat → Nat
  | [], n => n
  | (k, _) :: m, n => if k < n then firstGap m n else if k = n then firstGap m (n + 1) else n

/-- Scopes whose state is no longer kept lose their index (09 R248). -/
def State.reap (s : State) : State :=
  { s with scopes := s.scopes.filter fun e =>
      e.2.parent.isNone || s.liveScope (BitVec.ofNat 16 e.1) || (e.2.kept && (match e.2.parent with
        | some p => s.liveScope p
        | none => true)) }

/-- A free scope id of a die: its indices are given in turn, those in use passed over. DESIGN CHOICE (log 98). -/
def State.freeScope (s : State) (die : Nat) : Option W16 :=
  let n := firstGap s.scopes (die * 16384 + (s.die die).nextScope)
  if n < (die + 1) * 16384 then some (BitVec.ofNat 16 n)
  else
    let m := firstGap s.scopes (die * 16384)
    if m < (die + 1) * 16384 then some (BitVec.ofNat 16 m) else none

/-- The index given last. -/
def State.giveScope (s : State) (die : Nat) (id : W16) : State :=
  s.putDie die { s.die die with nextScope := (id.toNat + 1) % 16384 }

def State.newScope (s : State) (die : Nat) (ctx : W16) (parent : W16) (curtain : Option W64) : Option (W16 × State) :=
  match s.reap.freeScope die with
  | none => none
  | some id => some (id, (s.reap.giveScope die id).putScope id { ctx := ctx, parent := some parent, curtain := curtain })

/-! ### Kills (13 R365) -/

/-- A kill recorded; descendants whose own kill is in progress are swept. DEDUCED (log 74). -/
def State.kill (s : State) (id : W16) (cause : Cause) : State :=
  if !s.liveScope id || killingScope s id then s
  else s.killScope id cause

def State.countKill (s : State) (id : W16) (f : Scope → Scope) : State :=
  match s.killer id with
  | none => s
  | some k =>
    match s.scope? k with
    | none => s
    | some sc => s.putScope k (f sc)

/-! ## Graphs and nodes -/

def State.graph? (s : State) (g : Nat) : Option Graph := Map.find? s.graphs g
def State.putGraph (s : State) (g : Nat) (x : Graph) : State := { s with graphs := Map.set s.graphs g x }
def State.node (s : State) (g i : Nat) : NodeSt :=
  match s.graph? g with
  | some x => Map.get {} x.nodes i
  | none => {}
def State.putNode (s : State) (g i : Nat) (n : NodeSt) : State :=
  match s.graph? g with
  | some x => s.putGraph g { x with nodes := Map.set x.nodes i n }
  | none => s

def Graph.nodesVa (g : Graph) : Nat := wordAt g.words 1
def Graph.fqVa (g : Graph) : Nat := wordAt g.words 2
def Graph.fqCap (g : Graph) : Nat := bits (wordAt g.words 3) 47 32
def Graph.curtVa (g : Graph) : Nat := wordAt g.words 4
def Graph.nodeVa (g : Graph) (i : Nat) : Nat := g.nodesVa + 128 * i

/-- The level's field in word 7: domain code and default scope. -/
def levelDomain (word7 : W64) (l : Nat) : Nat := bits word7.toNat (7 * l + 6) (7 * l + 4)
def levelScope (word7 : W64) (l : Nat) : Nat := bits word7.toNat (7 * l + 3) (7 * l)

/-- Change a word of a record in memory. DEDUCED (log 65). -/
def State.vaModify (s : State) (ctx : W16) (va : Nat) (f : Nat → Nat) : State :=
  match s.vaWords ctx va 1 with
  | .ok ws => s.vaStore ctx va 8 (f (wordAt ws 0))
  | .error h => s.met h

/-- GSTAT (R344). -/
def State.putGstat (s : State) (g st : Nat) : State :=
  match s.graph? g with
  | none => s
  | some x => s.vaModify x.ctx x.va.toNat (fun w => setBits w 47 44 st)

/-- STATUS of a node, in the callboard and in the record (R347, R349). -/
def State.putStatus (s : State) (g i st : Nat) : State :=
  match s.graph? g with
  | none => s
  | some x => (s.putNode g i { s.node g i with status := st }).vaModify x.ctx (x.nodeVa i) (fun w => setBits w 48 45 st)

/-- A fault-queue entry (R352). -/
def State.faultEntry (s : State) (g node kind : Nat) (cause : Cause) (tid core : Nat) (info : W64) (lseq : BitVec 48) : State :=
  match s.graph? g with
  | none => s
  | some x =>
    match s.vaWords x.ctx (x.va.toNat + 24) 1 with
    | .ok ws =>
      let w := wordAt ws 0
      let count := w % 2 ^ 32
      let w0 := node % 4096 * 2 ^ 52 + kind * 2 ^ 48 + cause.code * 2 ^ 40 + tid % 2 ^ 32
      let w2 := core * 2 ^ 53 + lseq.toNat
      let e := bytesOf 32 (joinNat 64 [w0, info.toNat, w2, s.sys.frame.toNat])
      let s1 := s.vaWrite x.ctx (.store 8) (x.fqVa + 32 * (count % max 1 x.fqCap)) e
      let s2 := s1.vaStore x.ctx (x.va.toNat + 24) 8 (setBits w 31 0 (count + 1))
      s2.putGraph g { x with firstFault := some (x.firstFault.getD { cause := cause, info := info }) }
    | .error h => s.met h

/-! ### Node records (R346) -/

def nodeId (w0 : Nat) : Nat := bits w0 63 52
def nodeKind (w0 : Nat) : Nat := bits w0 51 49
def nodeStatus (w0 : Nat) : Nat := bits w0 48 45
def nodePrio (w0 : Nat) : Nat := bits w0 44 43
def nodeDomain (w0 : Nat) : Nat := bits w0 42 39
def nodePolicy (w0 : Nat) : Nat := bits w0 38 37
def nodeRetries (w0 : Nat) : Nat := bits w0 36 33
def nodeUsed (w0 : Nat) : Nat := bits w0 32 29
def nodeAudit (w0 : Nat) : Bool := bit w0 28

/-! Region words (04 R97) -/

def granule (w : Nat) : Nat :=
  match bits w 63 62 with
  | 0 => 64
  | 1 => 4096
  | 2 => 0x40000
  | _ => 0x1000000

def regionBad (w : Nat) : Bool := decide (bits w 49 0 * 64 % granule w ≠ 0)

def domainOk (d : Nat) : Bool := decide (d ≤ 5) || decide (d = 15)

/-- A node record that breaks its layout. -/
def nodeMalformed (i : Nat) (ws : List W64) : Bool :=
  let w0 := wordAt ws 0
  let w1 := wordAt ws 1
  let w11 := wordAt ws 11
  decide (nodeId w0 ≠ i) || decide (nodeKind w0 > 4) || decide (nodeStatus w0 > 6) || !domainOk (nodeDomain w0)
    || decide (nodePolicy w0 = 3) || (decide (nodePolicy w0 = 1) && decide (nodeRetries w0 = 0))
    || (decide (nodePolicy w0 ≠ 1) && decide (nodeRetries w0 ≠ 0)) || decide (bits w0 27 16 ≠ 0)
    || decide (bits w1 15 0 ≠ 0) || decide (bits w1 31 16 > 4096) || decide (wordAt ws 2 % 2 ≠ 0)
    || decide (bits w11 55 32 ≠ 0) || decide (wordAt ws 13 ≠ 0) || decide (wordAt ws 14 ≠ 0) || decide (wordAt ws 15 ≠ 0)
    || (decide (nodeKind w0 = 4) && decide (wordAt ws 12 ≠ 0))
    || (List.range 4).any fun k => regionBad (wordAt ws (5 + k))

def NodeSt.w (n : NodeSt) (i : Nat) : Nat := wordAt n.words i

/-! ### Nest descriptors (R341, R342) -/

def nestLoops (ws : List W64) : Nat := bits (wordAt ws 0) 61 59
def nestExtent (ws : List W64) (i : Nat) : Nat :=
  if i < nestLoops ws then bits (wordAt ws (5 + i / 2)) (32 * (i % 2) + 31) (32 * (i % 2) + 16) else 1
def nestStep (ws : List W64) (i : Nat) : Int :=
  if i < nestLoops ws then signed 16 (bits (wordAt ws (5 + i / 2)) (32 * (i % 2) + 15) (32 * (i % 2))) else 0
def nestCap (ws : List W64) : Nat := bits (wordAt ws 0) 48 37
def nestTotal (ws : List W64) : Nat := nestExtent ws 0 * nestExtent ws 1 * nestExtent ws 2 * nestExtent ws 3
def nestDomain (ws : List W64) : Nat := bits (wordAt ws 0) 52 49
def nestEntry (ws : List W64) : Nat := bits (wordAt ws 0) 36 23
def nestOvlLen (ws : List W64) : Nat := bits (wordAt ws 3) 16 0
def nestHasBank (ws : List W64) : Bool := bit (wordAt ws 3) 17

def loopWord (ws : List W64) (i : Nat) : Nat := bits (wordAt ws (5 + i / 2)) (32 * (i % 2) + 31) (32 * (i % 2))

/-- A nest descriptor that breaks its layout; `isNode` : its DOMAIN is ignored. -/
def nestMalformed (isNode : Bool) (ws : List W64) : Bool :=
  let w0 := wordAt ws 0
  decide (bits w0 63 62 ≠ 0) || decide (nestLoops ws > 4) || decide (bits w0 58 54 > 23)
    || (!isNode && !domainOk (nestDomain ws)) || decide (bits w0 22 0 ≠ 0)
    || decide (wordAt ws 1 % 32 ≠ 0) || decide (bits (wordAt ws 3) 63 18 ≠ 0)
    || decide (nestOvlLen ws < 32) || decide (nestOvlLen ws > 65536) || decide (nestOvlLen ws % 32 ≠ 0)
    || (!nestHasBank ws && decide (wordAt ws 4 ≠ 0))
    || (List.range 4).any (fun i => if i < nestLoops ws then decide (nestExtent ws i = 0) else decide (loopWord ws i ≠ 0))
    || decide (nestTotal ws > 2 ^ 32) || (!isNode && decide (wordAt ws 7 % 64 ≠ 0))

/-- The permutation of rank r of a list, in lexicographic order. -/
def permOf : Nat → Nat → List Nat → List Nat
  | 0, _, _ => []
  | n + 1, r, xs =>
    let f := (List.range n).foldl (fun a k => a * (k + 1)) 1
    let x := xs.getD (r / f) 0
    x :: permOf n (r % f) (xs.filter (fun y => y ≠ x))

def nestOrder (ws : List W64) : List Nat := permOf 4 (bits (wordAt ws 0) 58 54) [0, 1, 2, 3]

/-- The odometer's digits of a walk position, in loop order o0 to o3. -/
def odometer (ws : List W64) : List Nat → Nat → List (Nat × Nat)
  | [], _ => []
  | o :: os, t =>
    let inner := os.foldl (fun a k => a * nestExtent ws k) 1
    (o, t / inner % max 1 (nestExtent ws o)) :: odometer ws os t

/-- x1 to x4 of iteration t (R342). -/
def nestIndices (ws : List W64) (t : Nat) : List W64 :=
  let digits := odometer ws (nestOrder ws) t
  let inner := ((nestOrder ws).filter (fun o => decide (o < nestLoops ws))).getLast?
  (List.range 4).map fun i =>
    let n := (digits.lookup i).getD 0
    let flip := bit (wordAt ws 0) 53 && decide (inner = some i) && decide (t / max 1 (nestExtent ws i) % 2 = 1)
    trunc64 (((if flip then nestExtent ws i - 1 - n else n : Nat) : Int) * nestStep ws i)

/-! ### Launch records (R344, R345) -/

def smallestScope (d : Nat) : Nat := min d 4 + 1

/-- A level's field; one of zeros above level 0 declares nothing, as in the launch records of the manual's programs (19, 20).
DEDUCED (log 43). -/
def levelOk (word7 : W64) (l : Nat) : Bool :=
  let d := levelDomain word7 l
  let sc := levelScope word7 l
  (l ≠ 0 && d = 0 && sc = 0) || decide (d ≤ 5) && (if d = 5 then decide (sc = 6) || decide (sc = 8) else decide (smallestScope d ≤ sc) && decide (sc ≤ 8))

/-- A launch record that breaks its layout; `root` : a root launch's. DESIGN CHOICE (log 108). -/
def launchMalformed (root : Bool) (ws : List W64) : Bool :=
  let w0 := wordAt ws 0
  let w3 := wordAt ws 3
  decide (bits w0 63 62 ≠ 1) || decide (bits w0 60 48 = 0) || decide (bits w0 60 48 > 4096) || decide (bits w0 47 44 > 5)
    || decide (bits w0 43 11 ≠ 0) || decide (wordAt ws 1 % 128 ≠ 0) || decide (wordAt ws 2 % 32 ≠ 0)
    || decide (bits w3 63 48 ≠ 0) || decide (bits w3 47 32 = 0) || decide (bits (wordAt ws 6) 63 16 ≠ 0)
    || (if root then decide (wordAt ws 6 = 0) || decide (bits w0 10 0 ≥ Config.cores) || decide (bits (wordAt ws 7) 63 56 ≠ 0)
          || !(List.range 8).all (fun l => levelOk (ws.getD 7 0) l)
        else bit w0 61 || decide (bits w0 10 0 ≠ 0) || decide (wordAt ws 5 ≠ 0) || decide (wordAt ws 6 ≠ 0) || decide (wordAt ws 7 ≠ 0))

/-- The cores of a domain: whether core n lies in the one that contains the anchor. -/
def inDomain (d anchor n : Nat) : Bool :=
  match d with
  | 0 => decide (n = anchor)
  | 1 => decide (n / 4 = anchor / 4)
  | 2 => decide (n / 16 = anchor / 16)
  | 3 => decide (n / 288 = anchor / 288)
  | _ => true

def domainOf (g : Graph) (d : Nat) : Nat := if d = 15 then levelDomain g.word7 g.level else d

/-! ### Firing (R348) -/

/-- The scope of a node's curtain slot. -/
def nodeCurtain (g : Graph) (i : Nat) : W64 := BitVec.ofNat 64 (g.curtVa + 64 * i)

def freshKey {α : Type} (m : Map α) : Nat := firstGap m 0

/-- A key above every key of the map, so that entries stand in the order they were made. -/
def nextKey {α : Type} (m : Map α) : Nat :=
  match m.getLast? with
  | none => 0
  | some (k, _) => k + 1

/-- Whether a node's root area can be used (15 R402). -/
def rootArea (s : State) (g : Graph) (n : NodeSt) (tasks : Nat) : Chk Unit := do
  if !nodeAudit (n.w 0) then .ok ()
  else if n.w 9 = 0 || n.w 9 % 32 ≠ 0 then needOp false 0 0x11
  else
    let _ ← s.seqRange g.ctx false (.store 8) (n.w 9) (32 * (tasks + 1))
    .ok ()

/-- Where a firing goes wrong: the payload of a nest node, read at firing. DEDUCED (log 79). -/
def firePayload (s : State) (g : Graph) (n : NodeSt) : Chk (List W64) := do
  if nodeKind (n.w 0) = 0 then
    if n.w 12 % 64 ≠ 0 then needOp false 0 0x11
    let ws ← s.vaWords g.ctx (n.w 12) 8
    needOp (!nestMalformed true ws) 0 0x11
    rootArea s g n (nestTotal ws)
    .ok ws
  else do
    rootArea s g n (if nodeKind (n.w 0) = 2 then 1 else 0)
    .ok []

/-- The node takes a slot if its callboard has one (R348). -/
def slotsUsed (s : State) (die : Nat) : Nat :=
  s.graphs.foldl (fun a g => if g.2.die = die then a + (g.2.nodes.filter (fun n => n.2.slot)).length else a) 0

def State.takeSlot (s : State) (g i : Nat) : State :=
  match s.graph? g with
  | none => s
  | some x => if slotsUsed s x.die < 4096 then s.putNode g i { s.node g i with slot := true } else s

/-- A READY node of a die that was fired before and has no slot yet: it comes first (R348). -/
def slotWaits (s : State) (die : Nat) : Bool := (s.die die).ready.any fun e => (s.node e.1 e.2).status = 1 && !(s.node e.1 e.2).slot

/-- The TRAPINFO of a node that has no last fault: zero from its firing on (19 R454). DEDUCED (log 99). -/
def State.clearInfo (s : State) (x : Graph) (i : Nat) (ws : List W64) : State :=
  if bits (wordAt ws 11) 63 56 = 0 && wordAt ws 10 ≠ 0 then s.vaStore x.ctx (x.nodeVa i + 80) 8 0 else s

/-- READY under a scope: the record read, SCOPE and STATUS written; a nest node's nest made. A re-walk keeps the level that ageing has
raised the node to (R360). -/
def State.readyNode (s : State) (g i : Nat) (scope : W16) (ws desc : List W64) : State :=
  match s.graph? g with
  | none => s
  | some x =>
    let st := s.node g i
    let raised := if st.status = 6 then max st.raised (nodePrio (wordAt ws 0)) else nodePrio (wordAt ws 0)
    let s1 := s.putNode g i { st with words := ws, scope := some scope, lastTick := s.sys.frame.toNat, raised := raised,
                                      cancelAfter := false, ignoreAfter := false, roots := [], trap := none, sub := none,
                                      released := false, waitFrom := none }
    let s2 := (s1.clearInfo x i ws).vaModify x.ctx (x.nodeVa i) (fun w => setBits w 15 0 scope.toNat)
    let ready := s2.putStatus g i 1
    let s3 := if slotWaits s2 x.die then ready else ready.takeSlot g i
    let d := s3.die x.die
    let s4 := s3.putDie x.die { d with ready := d.ready ++ [(g, i)] }
    if nodeKind (wordAt ws 0) = 0 && decide (desc ≠ []) then
      let nest : Nest := { desc := desc, ctx := x.ctx, scope := scope, graph := g, node := some i, owner := some (g, i),
                           level := x.level, anchor := x.anchor, domain := domainOf x (nodeDomain (wordAt ws 0)),
                           prio := nodePrio (wordAt ws 0) }
      { s4 with nests := Map.set s4.nests (nextKey s4.nests) nest }
    else s4

/-! ### Settling (R351) -/

def Graph.active (g : Graph) : Bool := g.nodes.any fun n => n.2.status = 1 || n.2.status = 2 || n.2.status = 6

/-! ### Faults (R353, R354, R356) -/

/-- The successor ids of a node; none where its list cannot be read. -/
def State.successors (s : State) (g i : Nat) : Chk (List Nat) :=
  match s.graph? g with
  | none => .ok []
  | some x =>
    let list : Chk (List Nat) := do
      let ws ← if (s.node g i).words = [] then s.vaWords x.ctx (x.nodeVa i) 16 else .ok (s.node g i).words
      let n := bits (wordAt ws 1) 31 16
      let bs ← s.vaRead x.ctx (.load 2) (wordAt ws 2) (2 * n)
      .ok ((List.range n).map fun k => ofBytes ((bs.drop (2 * k)).take 2))
    match list with
    | .error (.trap _ _) => .ok []
    | r => r

/-- The successors of some nodes, put to a set. -/
def State.reach (s : State) (g : Nat) : List Nat → List Nat → Chk (List Nat)
  | [], c => .ok c
  | i :: is, c => do
    let ks ← s.successors g i
    s.reach g is (ks.foldl setIns c)

/-- Every node reachable through successor lists: rounds of closure, once a node. -/
def coneOf (s : State) (g : Nat) : Nat → List Nat → Chk (List Nat)
  | 0, c => .ok c
  | f + 1, c => do
    let c1 ← s.reach g c c
    if c1 = c then .ok c else coneOf s g f c1

/-- A node leaves its callboard slot and the ready list. -/
def State.leaveSlot (s : State) (g i : Nat) : State :=
  match s.graph? g with
  | none => s
  | some x =>
    let s1 := s.putNode g i { s.node g i with slot := false }
    let d := s1.die x.die
    s1.putDie x.die { d with ready := d.ready.filter (fun e => e ≠ (g, i)) }

def State.stopNests (s : State) (p : Nest → Bool) : State :=
  { s with nests := s.nests.map fun e => if p e.2 then (e.1, { e.2 with stopped := true }) else e }

def State.terminal (s : State) (g i st : Nat) : State :=
  ((s.putStatus g i st).leaveSlot g i).stopNests (fun n => n.node = some i && n.graph = g)

/-- A member that a cone walk cancels: not terminal, and not being cancelled by an earlier walk (R356, R370). -/
def takenByCone (n : NodeSt) : Bool := n.status = 0 || ((n.status = 1 || n.status = 2 || n.status = 6) && !n.cancelAfter)

/-- A firing waits for a scope index: the node's curtain, if it had one, is written. -/
def firingWaits (s : State) (g k : Nat) : Bool :=
  match s.graph? g with
  | some x => (s.die x.die).creations.contains (g, k)
  | none => false

def State.dropFiring (s : State) (g k : Nat) : State :=
  match s.graph? g with
  | some x => s.putDie x.die { s.die x.die with creations := (s.die x.die).creations.filter fun c => c ≠ (g, k) }
  | none => s

/-- One member of a cone: CANCELLED at once if it has not fired, or waits to fire again, else its scope is killed and it is cancelled after its
curtain. -/
def State.cancelMember (s : State) (g k : Nat) (cause : Cause) : State :=
  let n := s.node g k
  if firingWaits s g k then (s.dropFiring g k).terminal g k 5
  else if n.status = 0 then s.terminal g k 5
  else
    let s1 := s.putNode g k { n with cancelAfter := true }
    match n.scope with
    | some sc => s1.kill sc cause
    | none => s1

/-- The cone walk of a faulted node. -/
def State.coneWalk (s : State) (g i : Nat) (t : Trap) : State :=
  match s.graph? g with
  | none => s
  | some x =>
    match coneOf s g x.nnodes [i] with
    | .error h => s.met h
    | .ok members =>
      let others := members.filter fun k => k ≠ i
      let taken := others.filter fun k => takenByCone (s.node g k)
      let s1 := taken.foldl (fun s k => s.cancelMember g k t.cause) s
      match s1.graph? g with
      | some y => s1.putGraph g { y with cones := y.cones ++ [{ node := i, members := others, taken := taken, trap := t }] }
      | none => s1

/-- The kill of a node's own scope, while the node still holds it. DEDUCED (log 19). -/
def State.killNode (s : State) (g i : Nat) (t : Trap) : State :=
  match (s.node g i).scope with
  | some sc => s.kill sc t.cause
  | none => s

/-- A fault of a node: recorded, then its policy. `task` and `core` stand in the fault-queue entry; `hard` : a supervisor's
kill or a malformed record, which cancels the cone whatever the policy. A member of a cone that is being walked becomes CANCELLED, and no
second walk starts (R370). -/
def State.nodeFault (s : State) (g i : Nat) (t : Trap) (task core : Nat) (hard : Bool) : State :=
  match s.graph? g with
  | none => s
  | some x =>
    let n := s.node g i
    if !(n.status = 1 || n.status = 2) || n.untold.isSome then s.faultEntry g i 4 t.cause task core t.info t.lseq
    else
      let s1 := (s.vaStore x.ctx (x.nodeVa i + 80) 8 t.info.toNat).vaModify x.ctx (x.nodeVa i + 88)
        (fun w => setBits w 63 56 t.cause.code)
      let s2 := (s1.faultEntry g i 0 t.cause task core t.info t.lseq).putNode g i { n with trap := some t }
      let w0 := n.w 0
      if n.cancelAfter then s2
      else if !hard && nodePolicy w0 = 1 && nodeUsed w0 < nodeRetries w0 then
        ((s2.putStatus g i 6).faultEntry g i 2 t.cause task core t.info t.lseq).killNode g i t
      else if !hard && nodePolicy w0 = 2 then
        let s3 := ((s2.killNode g i t).putStatus g i 4).leaveSlot g i
        s3.putNode g i { s3.node g i with ignoreAfter := true }
      else (((s2.killNode g i t).putStatus g i 4).leaveSlot g i).coneWalk g i t

/-- A report that comes after retirement, or from an earlier walk (R353). -/
def State.lateReport (s : State) (g i : Nat) (t : Trap) (task core : Nat) : State :=
  s.faultEntry g i 4 t.cause task core t.info t.lseq

/-- Fire a node: its record is read and a child scope made; where no index is free, the firing waits (R348, R364). -/
def State.fire (s : State) (g i : Nat) : State :=
  match s.graph? g with
  | none => s
  | some x =>
    match s.newScope x.die x.ctx x.scope (some (nodeCurtain x i)) with
    | none =>
      let d := s.die x.die
      s.putDie x.die { d with creations := d.creations ++ [(g, i)] }
    | some (id, s1) =>
      match s1.vaWords x.ctx (x.nodeVa i) 16 with
      | .error h => ((s1.met h).readyNode g i id [] []).nodeFault g i h.toTrap 0 x.anchor true
      | .ok ws =>
        let bad : Trap := { cause := .illegalOp, info := BitVec.ofNat 64 (0x11 * 2 ^ 56) }
        if nodeMalformed i ws then (s1.readyNode g i id ws []).nodeFault g i bad 0 x.anchor true
        else
          match firePayload s1 x { s1.node g i with words := ws } with
          | .ok desc => s1.readyNode g i id ws desc
          | .error h => ((s1.met h).readyNode g i id ws []).nodeFault g i h.toTrap 0 x.anchor
              (match h with
                | .trap .illegalOp _ => true
                | _ => false)

/-! ### Completion (R349, R350) -/

/-- One decrement of a successor; a graph that a wrong one has halted fires nothing more. A record that cannot be read halts the graph as a wrong
decrement does. DEDUCED (log 82). -/
def State.decrement (s : State) (g i k : Nat) : State :=
  match s.graph? g with
  | none => s
  | some x =>
    match s.vaWords x.ctx (x.nodeVa k + 8) 1 with
    | .ok ws =>
      let w := wordAt ws 0
      let live := bits w 47 32
      if k ≥ x.nnodes || (s.node g k).status ≠ 0 || live = 0 then
        let info := BitVec.ofNat 64 (Config.choice s.free)
        let s1 := s.faultEntry g k 0 .illegalOp i x.anchor info 0
        (match s1.graph? g with
          | some y => s1.putGraph g { y with halted := true }
          | none => s1)
      else
        let s1 := s.vaStore x.ctx (x.nodeVa k + 8) 8 (setBits w 47 32 (live - 1))
        if live = 1 && !x.halted then s1.fire g k else s1
    | .error h =>
      let s1 := (s.met h).faultEntry g k 0 h.toTrap.cause i x.anchor h.toTrap.info 0
      match s1.graph? g with
      | some y => s1.putGraph g { y with halted := true }
      | none => s1

def State.decrementAll (s : State) (g i : Nat) : State :=
  match s.successors g i with
  | .ok ks => ks.foldl (fun s k => s.decrement g i k) s
  | .error h => s.met h

end Sys2Proof.Machine
end

