-- ==== Sys2Proof/Machine/Hash.lean ====
section
/-! DEFINITION. BLAKE3 in its hash mode, SHA-256, and the tree of 15 R400 over hashes. The manual names the two functions and
does not restate them (13 R363; 15 R398, R399, R406); they are written here from their public definitions. -/

namespace Sys2Proof.Machine
open Sys2Proof

/-! ## 32-bit words -/

def add32 (a b : Nat) : Nat := (a + b) % 2 ^ 32
def ror32 (n a : Nat) : Nat := a / 2 ^ n + a % 2 ^ n * 2 ^ (32 - n)

/-- 32-bit words of a byte list, least significant byte first. -/
def wordsLe : Nat → List Byte → List Nat
  | 0, _ => []
  | n + 1, bs => ofBytes (bs.take 4) :: wordsLe n (bs.drop 4)

def bytesLe (ws : List Nat) : List Byte := ws.flatMap fun w => bytesOf 4 w

/-! ## BLAKE3 -/

def blakeIv : List Nat :=
  [0x6A09E667, 0xBB67AE85, 0x3C6EF372, 0xA54FF53A, 0x510E527F, 0x9B05688C, 0x1F83D9AB, 0x5BE0CD19]

def blakePerm : List Nat := [2, 6, 3, 10, 7, 0, 4, 13, 1, 11, 12, 5, 9, 14, 15, 8]

/-- The quarter-round on places a, b, c, d of the state with message words x and y. -/
def blakeG (v : List Nat) (a b c d x y : Nat) : List Nat :=
  let va := add32 (add32 (v.getD a 0) (v.getD b 0)) x
  let vd := ror32 16 (v.getD d 0 ^^^ va)
  let vc := add32 (v.getD c 0) vd
  let vb := ror32 12 (v.getD b 0 ^^^ vc)
  let va := add32 (add32 va vb) y
  let vd := ror32 8 (vd ^^^ va)
  let vc := add32 vc vd
  let vb := ror32 7 (vb ^^^ vc)
  setNth (setNth (setNth (setNth v a va) b vb) c vc) d vd

def blakeRound (v m : List Nat) : List Nat :=
  let g (v : List Nat) (p : (Nat × Nat) × (Nat × Nat) × Nat) : List Nat :=
    blakeG v p.1.1 p.1.2 p.2.1.1 p.2.1.2 (m.getD (2 * p.2.2) 0) (m.getD (2 * p.2.2 + 1) 0)
  [((0, 4), (8, 12), 0), ((1, 5), (9, 13), 1), ((2, 6), (10, 14), 2), ((3, 7), (11, 15), 3),
   ((0, 5), (10, 15), 4), ((1, 6), (11, 12), 5), ((2, 7), (8, 13), 6), ((3, 4), (9, 14), 7)].foldl g v

def blakeRounds : Nat → List Nat → List Nat → List Nat
  | 0, v, _ => v
  | n + 1, v, m => blakeRounds n (blakeRound v m) (blakePerm.map fun i => m.getD i 0)

/-- The first eight output words of the compression function. -/
def blakeCompress (cv m : List Nat) (counter len flags : Nat) : List Nat :=
  let v := blakeRounds 7 (cv ++ blakeIv.take 4 ++ [counter % 2 ^ 32, counter / 2 ^ 32 % 2 ^ 32, len, flags]) m
  (List.range 8).map fun i => v.getD i 0 ^^^ v.getD (i + 8) 0

/-- The blocks of one chunk; `last` flags the last block. -/
def blakeBlocks : Nat → List Nat → List Byte → Nat → Nat → Bool → List Nat
  | 0, cv, _, _, _, _ => cv
  | f + 1, cv, bs, counter, last, isFirst =>
    let start := if isFirst then 1 else 0
    let m := wordsLe 16 (bs.take 64)
    if bs.length ≤ 64 then blakeCompress cv m counter bs.length (start + 2 + last)
    else blakeBlocks f (blakeCompress cv m counter 64 start) (bs.drop 64) counter last false

def blakeChunk (bs : List Byte) (counter root : Nat) : List Nat := blakeBlocks 16 blakeIv bs counter root true

/-- The largest power of two below n, for n ≥ 2. -/
def splitPow (n : Nat) : Nat := 2 ^ Nat.log2 (n - 1)

/-- A subtree over n chunks from a counter. -/
def blakeTree : Nat → List Byte → Nat → Nat → Nat → List Nat
  | 0, bs, counter, _, root => blakeChunk bs counter root
  | f + 1, bs, counter, n, root =>
    if n ≤ 1 then blakeChunk bs counter root
    else
      let h := splitPow n
      let left := blakeTree f (bs.take (1024 * h)) counter h 0
      let right := blakeTree f (bs.drop (1024 * h)) (counter + h) (n - h) 0
      blakeCompress blakeIv (left ++ right) 0 64 (4 + root)

/-- BLAKE3, 32 bytes. -/
def blake3 (bs : List Byte) : List Byte :=
  bytesLe (blakeTree 64 bs 0 (ceilDiv bs.length 1024) 8)

/-! ## SHA-256 -/

def shaK : List Nat :=
  [0x428A2F98, 0x71374491, 0xB5C0FBCF, 0xE9B5DBA5, 0x3956C25B, 0x59F111F1, 0x923F82A4, 0xAB1C5ED5,
   0xD807AA98, 0x12835B01, 0x243185BE, 0x550C7DC3, 0x72BE5D74, 0x80DEB1FE, 0x9BDC06A7, 0xC19BF174,
   0xE49B69C1, 0xEFBE4786, 0x0FC19DC6, 0x240CA1CC, 0x2DE92C6F, 0x4A7484AA, 0x5CB0A9DC, 0x76F988DA,
   0x983E5152, 0xA831C66D, 0xB00327C8, 0xBF597FC7, 0xC6E00BF3, 0xD5A79147, 0x06CA6351, 0x14292967,
   0x27B70A85, 0x2E1B2138, 0x4D2C6DFC, 0x53380D13, 0x650A7354, 0x766A0ABB, 0x81C2C92E, 0x92722C85,
   0xA2BFE8A1, 0xA81A664B, 0xC24B8B70, 0xC76C51A3, 0xD192E819, 0xD6990624, 0xF40E3585, 0x106AA070,
   0x19A4C116, 0x1E376C08, 0x2748774C, 0x34B0BCB5, 0x391C0CB3, 0x4ED8AA4A, 0x5B9CCA4F, 0x682E6FF3,
   0x748F82EE, 0x78A5636F, 0x84C87814, 0x8CC70208, 0x90BEFFFA, 0xA4506CEB, 0xBEF9A3F7, 0xC67178F2]

def wordsBe : Nat → List Byte → List Nat
  | 0, _ => []
  | n + 1, bs => ofBytes (bs.take 4).reverse :: wordsBe n (bs.drop 4)

def shaSmall (a b c x : Nat) : Nat := ror32 a x ^^^ ror32 b x ^^^ (x / 2 ^ c)
def shaBig (a b c x : Nat) : Nat := ror32 a x ^^^ ror32 b x ^^^ ror32 c x

/-- The message schedule, from the sixteen words of a block, newest first. -/
def shaSchedule : Nat → List Nat → List Nat
  | 0, w => w
  | n + 1, w =>
    let t := add32 (add32 (shaSmall 17 19 10 (w.getD 1 0)) (w.getD 6 0)) (add32 (shaSmall 7 18 3 (w.getD 14 0)) (w.getD 15 0))
    shaSchedule n (t :: w)

def shaRound (v : List Nat) (kw : Nat × Nat) : List Nat :=
  let e := v.getD 4 0
  let a := v.getD 0 0
  let ch := (e &&& v.getD 5 0) ^^^ ((2 ^ 32 - 1 - e) &&& v.getD 6 0)
  let maj := (a &&& v.getD 1 0) ^^^ (a &&& v.getD 2 0) ^^^ (v.getD 1 0 &&& v.getD 2 0)
  let t1 := add32 (add32 (add32 (v.getD 7 0) (shaBig 6 11 25 e)) ch) (add32 kw.1 kw.2)
  let t2 := add32 (shaBig 2 13 22 a) maj
  [add32 t1 t2, a, v.getD 1 0, v.getD 2 0, add32 (v.getD 3 0) t1, e, v.getD 5 0, v.getD 6 0]

def shaBlock (h : List Nat) (bs : List Byte) : List Nat :=
  let w := (shaSchedule 48 (wordsBe 16 bs).reverse).reverse
  let v := (shaK.zip w).foldl shaRound h
  (List.range 8).map fun i => add32 (h.getD i 0) (v.getD i 0)

def shaBlocks : Nat → List Nat → List Byte → List Nat
  | 0, h, _ => h
  | n + 1, h, bs => shaBlocks n (shaBlock h (bs.take 64)) (bs.drop 64)

/-- SHA-256, 32 bytes. -/
def sha256 (bs : List Byte) : List Byte :=
  let n := bs.length
  let pad := (119 - n % 64) % 64
  let m := bs ++ [0x80] ++ List.replicate pad 0 ++ (bytesOf 8 (8 * n)).reverse
  (shaBlocks (m.length / 64) blakeIv m).flatMap fun w => (bytesOf 4 w).reverse

/-! ## Trees (15 R399, R400) -/

def leafHash (record : List Byte) : List Byte :=
  blake3 (0x4C :: (record.take 8 ++ List.replicate 8 0 ++ record.drop 16))

def nodeHash (l r : List Byte) : List Byte := blake3 (0x4E :: (l ++ r))

def zeroRoot : List Byte := List.replicate 32 0

def treeRootFuel : Nat → List (List Byte) → List Byte
  | 0, _ => zeroRoot
  | _ + 1, [] => zeroRoot
  | _ + 1, [h] => h
  | f + 1, hs =>
    let k := splitPow hs.length
    nodeHash (treeRootFuel f (hs.take k)) (treeRootFuel f (hs.drop k))

/-- The root of the tree over leaf hashes in order. -/
def treeRoot (hs : List (List Byte)) : List Byte := treeRootFuel (hs.length + 1) hs

/-- The task root over the three cluster roots. -/
def taskRoot (l c s : List Byte) : List Byte := blake3 (0x54 :: (l ++ c ++ s))

end Sys2Proof.Machine
end

