-- ==== Sys2Proof/Machine/Tree.lean ====
section
/-! DEFINITION. The Erxus log, leaf records, the trees of an audited task and their image (15 R393 to R409). -/

namespace Sys2Proof.Machine
open Sys2Proof

/-! ## The log (R404) -/

/-- The ring: its base, its capacity in records and its key; none while the log is off. -/
def logRing (s : State) (d : Die) : Option (Nat × Nat × Nat) :=
  let v := d.erxLog.toNat
  let size := bits v 4 0
  let base := bits v 51 12 * 4096
  let bytes := 2 ^ size * 4096
  if size > 20 then none
  else if isHbm base && isHbm (base + bytes - 1) || isDdr s base && isDdr s (base + bytes - 1)
      || isHostWin base && isHostWin (base + bytes - 1) then some (base, 16 * 2 ^ size, bits v 63 54)
  else none

def logUsed (d : Die) : Nat := (d.erxHead - d.erxTail).toNat

/-- Room for one record. -/
def logRoom (s : State) (die : Nat) : Bool :=
  match logRing s (s.die die) with
  | none => true
  | some (_, cap, _) => (s.die die).logWait.isEmpty && decide (logUsed (s.die die) ≠ cap)

/-- Task root records wait for the next batch's signature (R406). -/
def isTaskRoot (r : List Byte) : Bool := decide (ofBytes (r.take 8) / 2 ^ 48 % 256 = 5)

def State.logWrite (s : State) (die : Nat) (r : List Byte) : State :=
  let d := s.die die
  match logRing s d with
  | none => s
  | some (base, cap, key) =>
    let k := d.erxHead.toNat
    (s.withMem (s.mem.rawWrite key (base + 256 * (k % cap)) r)).putDie die
      { d with erxHead := d.erxHead + 1, batch := if isTaskRoot r then d.batch ++ [(k, r)] else d.batch }

/-- The log index that the next record will have. -/
def logIndex (d : Die) : Nat := d.erxHead.toNat + d.logWait.length

/-- Append a record, or queue it while the ring is full. -/
def State.logAppend (s : State) (die : Nat) (r : List Byte) : State :=
  if logRoom s die then s.logWrite die r
  else
    let d := s.die die
    s.putDie die { d with logWait := d.logWait ++ [r] }

/-- Records that waited are appended, in order, while there is room. -/
def drainLog (die : Nat) : Nat → State → State
  | 0, s => s
  | f + 1, s =>
    let d := s.die die
    match d.logWait with
    | [] => s
    | r :: rest =>
      let s1 := s.putDie die { d with logWait := [] }
      if logRoom s1 die then
        let s2 := s1.logWrite die r
        drainLog die f (s2.putDie die { s2.die die with logWait := rest })
      else s

def State.drain (s : State) (die : Nat) : State := drainLog die (s.die die).logWait.length s

/-! ## Leaf records (R395 to R397) -/

def clNumber : Cl → Nat
  | .K => 0
  | .L => 1
  | .C => 2
  | .S => 3

/-- An operand field: address, geometry, digest. -/
structure Operand where
  addr : Nat
  geom : Nat := 0
  digest : List Byte := List.replicate 32 0
  deriving DecidableEq, Repr

def noOperand : Operand := { addr := 0 }

def Operand.bytes (o : Operand) : List Byte := bytesOf 8 o.addr ++ bytesOf 8 o.geom ++ o.digest.take 32

/-- What a leaf says of its producer. -/
structure LeafParts where
  cluster : Nat
  kind : Nat := 1
  walk : Nat := 0
  pkg : Nat := 0
  core : Nat
  iseq : Nat := 0
  mode : Nat := 0
  task : Nat := 0
  node : Nat := 0
  lane : Nat := 0
  param : List Byte := List.replicate 64 0
  a : Operand := noOperand
  b : Operand := noOperand
  res : Operand := noOperand
  deriving DecidableEq, Repr

/-- Bytes 0 to 39 of every record. -/
def recordHead (cluster kind lseq walk pkg core iseq mode task node : Nat) : List Byte :=
  bytesOf 8 (cluster * 2 ^ 56 + kind * 2 ^ 48 + lseq % 2 ^ 48)
    ++ bytesOf 8 (walk % 16 * 2 ^ 24 + pkg % 64 * 2 ^ 16 + core % 2048)
    ++ bytesOf 8 (iseq % 2 ^ 48) ++ bytesOf 4 mode ++ bytesOf 4 task ++ bytesOf 8 (node % 4096 * 2 ^ 52)

/-- The 256 bytes of a leaf, with LSEQ 0: it takes its number when it is appended. -/
def LeafParts.bytes (p : LeafParts) : List Byte :=
  recordHead p.cluster p.kind 0 p.walk p.pkg p.core p.iseq p.mode p.task p.node
    ++ bytesOf 4 p.lane ++ bytesOf 4 0 ++ (p.param ++ List.replicate 64 0).take 64 ++ p.a.bytes ++ p.b.bytes ++ p.res.bytes

def withLseq (r : List Byte) (n : Nat) : List Byte := bytesOf 6 n ++ r.drop 6

/-- MODE (R396). -/
def modeWord (sv us tt det : Bool) (gr fr gb fb ga fa : Nat) : Nat :=
  boolNat sv * 2 ^ 27 + boolNat us * 2 ^ 26 + boolNat tt * 2 ^ 25 + boolNat det * 2 ^ 24
    + gr * 2 ^ 20 + fr * 2 ^ 16 + gb * 2 ^ 12 + fb * 2 ^ 8 + ga * 2 ^ 4 + fa

def pkgId (s : State) : Nat := bits s.fab.podCfg.toNat 45 40

/-- A leaf's parts for a lane that a task has issued on a core. -/
def leafOfTask (s : State) (task : Option Task) (n : Nat) (cl : Cl) (kind : Nat) (iseq : BitVec 48) (word : W32) (sv : Bool) : LeafParts :=
  match task with
  | none => { cluster := clNumber cl, kind := kind, core := n }
  | some t =>
    { cluster := clNumber cl, kind := kind, walk := t.walk, pkg := pkgId s, core := n, iseq := if sv then 0 else iseq.toNat,
      mode := modeWord sv false t.tt t.det 0 0 0 0 0 0, task := t.tid.toNat, node := t.nodeId, lane := word.toNat }

/-- The same for the task that the core runs. -/
def taskLeaf (s : State) (n : Nat) (cl : Cl) (kind : Nat) (iseq : BitVec 48) (word : W32) (sv : Bool) : LeafParts :=
  leafOfTask s (s.core n).sys.task n cl kind iseq word sv

/-! ## Trees of a task (R394, R405) -/

def TreeBlock.tree (b : TreeBlock) (cl : Cl) : Tree :=
  match cl with
  | .L => b.l
  | .C => b.c
  | _ => b.s

def TreeBlock.putTree (b : TreeBlock) (cl : Cl) (t : Tree) : TreeBlock :=
  match cl with
  | .L => { b with l := t }
  | .C => { b with c := t }
  | _ => { b with s := t }

def Core.block (c : Core) : Option TreeBlock :=
  match c.sys.task with
  | some t => t.block
  | none => none

def Core.putBlock (c : Core) (b : TreeBlock) : Core :=
  match c.sys.task with
  | some t => { c with sys := { c.sys with task := some { t with block := some b } } }
  | none => c

def Core.modifyTree (c : Core) (cl : Cl) (f : Tree → Tree) : Core :=
  match c.block with
  | none => c
  | some b => c.putBlock (b.putTree cl (f (b.tree cl)))

/-- Where a routed lane stands among all that fetch has routed (R394). -/
def Entry.place (e : Entry) : Nat := e.line * 2 ^ 17 + e.addr.toNat

/-- The place of a leaf-bearing lane, at its issue, with the records that are known by then. DEDUCED (log 60). -/
def Core.holdLeaf (c : Core) (cl : Cl) (flight place : Nat) (recs : List (List Byte)) : Core :=
  c.modifyTree cl fun t => { t with held := t.held ++ [{ flight := flight, place := place, recs := recs }] }

/-- The lane completes with the records it was issued with. -/
def Core.readyLeaf (c : Core) (cl : Cl) (flight : Nat) : Core :=
  c.modifyTree cl fun t => { t with held := t.held.map fun l => if l.flight = flight && !l.note then { l with ready := true } else l }

/-- The lanes of L, C and S that make leaves (R393). -/
def bearsLeaf (cl : Cl) (w : Nat) : Bool :=
  let op := bits w 27 21
  match cl with
  | .K => false
  | .L => decide (0x18 ≤ op) && decide (op ≤ 0x1C)
  | .C => decide (0x52 ≤ op) && decide (op ≤ 0x58)
  | .S => op = 0x01 || op = 0x02 || op = 0x03 || op = 0x04 || (op = 0x10 && decide (bits w 20 16 ≤ 5)) || op = 0x18 || op = 0x19
      || op = 0x1A || op = 0x1C

/-- Its records, when it completes; none where it failed. -/
def Core.fillLeaf (c : Core) (cl : Cl) (flight : Nat) (recs : List (List Byte)) : Core :=
  c.modifyTree cl fun t => { t with held := t.held.map fun l =>
    if l.flight = flight && !l.note && !l.ready then { l with recs := recs, ready := true } else l }

/-- Markers of `tree.note` with no leaf-bearing lane ahead of them in S's issue queue take their place (R394). -/
def takeMarks : List Entry → List Entry × List Leaf
  | [] => ([], [])
  | e :: es =>
    match e.mark with
    | none =>
      if bearsLeaf .S e.word.toNat then (e :: es, [])
      else
        let (q, ls) := takeMarks es
        (e :: q, ls)
    | some r =>
      let (q, ls) := takeMarks es
      (q, { flight := 0, place := e.place, recs := if r = [] then [] else [r], ready := decide (r ≠ []), note := true } :: ls)

def Core.settleMarks (c : Core) : Core :=
  let (q, ls) := takeMarks c.s.iq
  let c1 := { c with s := { c.s with iq := q } }
  if ls = [] then c1 else c1.modifyTree .S fun t => { t with held := t.held ++ ls }

/-- The marks of a queue, each with the number of lanes ahead of it (R394). -/
def marksOf : Nat → List Entry → List (Nat × Entry)
  | _, [] => []
  | n, e :: es => if e.mark.isSome then (n, e) :: marksOf n es else marksOf (n + 1) es

/-- Marks back in their places among the lanes. -/
def putMarks (marks : List (Nat × Entry)) : Nat → List Entry → List Entry
  | n, [] => (marks.filter fun m => decide (n ≤ m.1)).map Prod.snd
  | n, e :: es => (marks.filter fun m => m.1 = n).map Prod.snd ++ e :: putMarks marks (n + 1) es

/-- The notes that K has issued, behind lanes of S that never will be. -/
def issuedNotes (es : List Entry) : List Leaf :=
  es.filterMap fun e => e.mark.bind fun r => if r = [] then none else some { flight := 0, place := e.place, recs := [r], ready := true, note := true }

/-- The first note that waits for its lane, filled: in the held list, else in S's issue queue, else at the end. -/
def fillNote (r : List Byte) : List Leaf → Option (List Leaf)
  | [] => none
  | l :: ls => if l.note && !l.ready then some ({ l with recs := [r], ready := true } :: ls) else (fillNote r ls).map (l :: ·)

def fillMark (r : List Byte) : List Entry → Option (List Entry)
  | [] => none
  | e :: es => if e.mark = some [] then some ({ e with mark := some r } :: es) else (fillMark r es).map (e :: ·)

def Core.noteLeaf (c : Core) (place : Nat) (r : List Byte) : Core :=
  match c.block with
  | none => c
  | some b =>
    match fillNote r b.s.held with
    | some held => c.putBlock { b with s := { b.s with held := held } }
    | none =>
      match fillMark r c.s.iq with
      | some q => { c with s := { c.s with iq := q } }
      | none => c.putBlock { b with s := { b.s with held := b.s.held ++ [{ flight := 0, place := place, recs := [r], ready := true, note := true }] } }

/-! ## The image (R407) -/

def Image.pa (i : Image) (off : Nat) : Nat := (i.pages.getD (off / 4096) (0, 0)).1 + off % 4096
def Image.key (i : Image) (off : Nat) : Nat := (i.pages.getD (off / 4096) (0, 0)).2

/-- Writes of at most 32 bytes that stay in one 4 KiB of the image. -/
def imageWrite (m : Memory) (ctx : W16) (i : Image) (off : Nat) (bs : List Byte) : Memory := m.write ctx (i.key off) (i.pa off) bs

/-- A leaf's hash into the image, with the cluster's count; a leaf it has no place for sets INCOMPLETE. -/
def mirrorLeaf (m : Memory) (ctx : W16) (b : TreeBlock) (cl : Cl) (k : Nat) (h : List Byte) : Memory × TreeBlock :=
  match b.image with
  | none => (m, b)
  | some i =>
    let ci := clNumber cl - 1
    let b1 := if k < i.cap then b else { b with incomplete := b.incomplete ||| BitVec.ofNat 3 (2 ^ ci) }
    let m1 := if k < i.cap then imageWrite m ctx i (256 + 32 * (ci * i.cap + k)) h
      else imageWrite m ctx i 0 (bytesOf 4 b1.incomplete.toNat)
    (imageWrite m1 ctx i (8 + 8 * ci) (bytesOf 8 (k + 1)), b1)

/-- A line of a task's tree block that cannot be read (R413). -/
def treeBad (s : State) (b : TreeBlock) : Option Nat :=
  let base := bits (s.die b.die).erxPool.toNat 51 14 * 0x4000 + b.block * 0x4000
  s.mem.badBetween base (base + 0x4000)

/-- One record of the head leaf of a tree is appended: its number, its hash, the log, the image. An error in its block ends
the task's context (R413). -/
def State.appendRecord (s : State) (n : Nat) (cl : Cl) : State :=
  let c := s.core n
  match c.block with
  | none => s
  | some b =>
    let t := b.tree cl
    match t.held with
    | [] => s
    | l :: rest =>
      if !l.ready && !l.opened then s
      else match l.recs with
      | [] => if l.ready then s.putCore n (c.putBlock (b.putTree cl { t with held := rest })) else s
      | r :: rs =>
        if !logRoom s (dieOfCore n) then s
        else match treeBad s b with
        | some u => s.poisonMet c.ctx u
        | none =>
          let k := t.hashes.length
          let r1 := withLseq r k
          let h := leafHash r1
          let t1 : Tree := { t with hashes := t.hashes ++ [h], places := t.places ++ [l.place], held := if rs = [] && l.ready then rest else { l with recs := rs } :: rest }
          let (m, b1) := mirrorLeaf s.mem c.ctx (b.putTree cl t1) cl k h
          ((s.withMem m).putCore n (c.putBlock b1)).logAppend (dieOfCore n) r1

/-- Every leaf is in. -/
def TreeBlock.drained (b : TreeBlock) : Bool := b.l.held.isEmpty && b.c.held.isEmpty && b.s.held.isEmpty

def TreeBlock.roots (b : TreeBlock) : List (List Byte) := [treeRoot b.l.hashes, treeRoot b.c.hashes, treeRoot b.s.hashes]

def rootsTask (rs : List (List Byte)) : List Byte := taskRoot (rs.getD 0 zeroRoot) (rs.getD 1 zeroRoot) (rs.getD 2 zeroRoot)

/-- The roots into an open image's header. -/
def sealImage (m : Memory) (ctx : W16) (b : TreeBlock) (roots : List (List Byte)) : Memory :=
  match b.image with
  | none => m
  | some i =>
    ((roots ++ [rootsTask roots]).zip [64, 96, 128, 160]).foldl (fun m p => imageWrite m ctx i p.2 p.1) m

/-! ## Root records (R401 to R403) -/

/-- A task root record (KIND 5). -/
def taskRootRecord (s : State) (n : Nat) (t : Task) (b : TreeBlock) : List Byte :=
  let rs := b.roots
  let total := b.l.hashes.length + b.c.hashes.length + b.s.hashes.length
  recordHead 0 5 total t.walk (pkgId s) n 0 (modeWord false false t.tt t.det 0 0 0 0 0 0) t.tid.toNat t.nodeId
    ++ bytesOf 8 s.sys.frame.toNat ++ rootsTask rs ++ rs.flatten ++ List.replicate 80 0

/-- A node root (KIND 6) or graph root (KIND 7) record. -/
def rootRecord (s : State) (kind lseq walk core mode node : Nat) (root : List Byte) (manifest : Nat) : List Byte :=
  recordHead 0 kind lseq walk (pkgId s) core 0 mode 0 node ++ bytesOf 8 s.sys.frame.toNat ++ root
    ++ (if kind = 7 then bytesOf 8 manifest else List.replicate 8 0) ++ List.replicate 168 0

end Sys2Proof.Machine
end

