-- ==== Sys2Proof/Machine/Control.lean ====
section
/-! DEFINITION. The control region's registers, as aligned words: the translation block (01 R31), the pod block (05 R126, R127),
and each die's callboard block (13 R369; 14 R376; 15), die block (02 R55, R63, R69) and router blocks (02 R55). -/

namespace Sys2Proof.Machine
open Sys2Proof

/-! ## RW fields -/

/-- A write to a register whose writable bits are those of a mask: the others are kept (00 R8). -/
def maskWrite (old new mask : Nat) : W64 :=
  BitVec.ofNat 64 ((old &&& (2 ^ 64 - 1 - mask)) ||| (new &&& mask))

def ctxTableMask : Nat := 0x000FFFFFFF000001
def podCfgMask : Nat := 0xFFFF3F3F00000001
def stripeMask : Nat := 0x00FFFFFF00FFFFFF
def peerMask : Nat := 0xFFFF000000000003
def cutPoolMask : Nat := 0xFFCFFFFFFFF81FFF
def erxPoolMask : Nat := 0xFFCFFFFFFFFFDFFF
def erxLogMask : Nat := 0xFFCFFFFFFFFFF01F

/-! ## Invalidation requests (01 R31, R32) -/

def xinvOf (v : Nat) : Xinv :=
  { kind := bits v 63 60, ctx := BitVec.ofNat 16 (bits v 59 44), vpn := BitVec.ofNat 44 (bits v 43 0) }

/-- A request arrives: into the FIFO of 8, or held until space frees. DEDUCED (log 56). -/
def State.xinv (s : State) (r : Xinv) : State :=
  if s.sys.xinvFifo.length < 8 && s.sys.xinvHeld.isEmpty then
    s.withSys { s.sys with xinvFifo := s.sys.xinvFifo ++ [r], xinvIssued := s.sys.xinvIssued + 1 }
  else s.withSys { s.sys with xinvHeld := s.sys.xinvHeld ++ [r] }

/-- A sweep reaches the head of its die's FIFO. -/
def State.beginSweep (s : State) (die : Nat) (ctx : W16) : State :=
  s.withMem { s.mem with sweeping := s.mem.sweeping.filter (fun p => p.1 ≠ die) ++ [(die, ctx)],
                         during := s.mem.during.filter fun u => bayOfPa u / 72 ≠ die }

/-- A tag sweep arrives: into the die's FIFO of 4, or held (02 R63). -/
def State.sweep (s : State) (die : Nat) (ctx : W16) : State :=
  let d := s.die die
  if d.sweepFifo.length < 4 && d.sweepHeld.isEmpty then
    let s1 := s.putDie die { d with sweepFifo := d.sweepFifo ++ [ctx], sweepIssued := d.sweepIssued + 1 }
    if d.sweepFifo.isEmpty then s1.beginSweep die ctx else s1
  else s.putDie die { d with sweepHeld := d.sweepHeld ++ [ctx] }

/-! ## Reads -/

def ctlDie (pa : Nat) : Nat := (pa - Config.ctlBase) / 0x4000000
def ctlOff (pa : Nat) : Nat := (pa - Config.ctlBase) % 0x4000000

def tableWord (r : Router) (bank slot : Nat) : Nat := (Map.get 0 r.table (bank * 256 + slot)).toNat

def memberWord (f : Fabric) (k : Nat) : Nat := ofBytes ((List.range 8).map fun i => vget 0 f.member (8 * k + i))

/-- The 8-byte word of the control region at an aligned address; an offset that holds no register reads 0. -/
def ctlWord (s : State) (pa : Nat) : Nat :=
  let d := s.die (ctlDie pa)
  let o := ctlOff pa
  if ctlDie pa = 0 && o = 0x10000 then s.sys.ctxTable.toNat
  else if ctlDie pa = 0 && o = 0x10010 then s.sys.xinvIssued.toNat
  else if ctlDie pa = 0 && o = 0x10018 then s.sys.xinvDone.toNat
  else if ctlDie pa = 0 && o = 0x300000 then s.fab.podCfg.toNat
  else if ctlDie pa = 0 && o = 0x300008 then s.fab.stripe.toNat
  else if ctlDie pa = 0 && o = 0x300010 then s.fab.timeout.toNat
  else if ctlDie pa = 0 && o = 0x300018 then s.fab.peerStale.toNat
  else if ctlDie pa = 0 && o = 0x300020 then s.fab.combFlagged.toNat
  else if ctlDie pa = 0 && 0x300040 ≤ o && o < 0x300080 then memberWord s.fab ((o - 0x300040) / 8)
  else if ctlDie pa = 0 && 0x300100 ≤ o && o < 0x300300 then (vget 0 s.fab.peer ((o - 0x300100) / 8)).toNat
  else if o = 0x100000 then d.cbCtx.toNat
  else if o = 0x100010 then d.cbIssued.toNat
  else if o = 0x100018 then d.cbDone.toNat
  else if o = 0x100020 then d.cutPool.toNat
  else if o = 0x100028 then poolFree d.cutPool d.cutUsed
  else if o = 0x100030 then d.erxPool.toNat
  else if o = 0x100038 then poolFree d.erxPool d.erxUsed
  else if o = 0x100040 then d.erxLog.toNat
  else if o = 0x100048 then d.erxHead.toNat
  else if o = 0x100050 then d.erxTail.toNat
  else if o = 0x1F0000 then d.slotSwap.toNat
  else if o = 0x1F0008 then s.sys.pkgCycle.toNat
  else if o = 0x1F0018 then d.sweepIssued.toNat
  else if o = 0x1F0020 then d.sweepDone.toNat
  else if o = 0x1F0028 then d.errHead.toNat
  else if 0x1F1000 ≤ o && o < 0x1F1400 then
    let r := Map.get (0, 0) d.errlog ((o - 0x1F1000) / 16)
    if o % 16 = 0 then r.1.toNat else r.2.toNat
  else if 0x200000 ≤ o && o < 0x200000 + 72 * 0x1000 then
    let r := Map.get {} s.routers (ctlDie pa * 72 + (o - 0x200000) / 0x1000)
    let q := o % 0x1000
    if q < 0x800 then tableWord r (q / 0x400) (q % 0x400 / 4) + 2 ^ 32 * tableWord r (q / 0x400) (q % 0x400 / 4 + 1)
    else if q = 0x800 then r.ctl.toNat else 0
  else 0

/-- A supervisor's load of 4 or 8 bytes. -/
def ctlRead (s : State) (pa n : Nat) : List Byte :=
  let w := ctlWord s (pa / 8 * 8)
  bytesOf n (if n = 8 then w else w / 2 ^ (8 * (pa % 8)))

/-! ## Writes -/

def State.putRouter (s : State) (i : Nat) (r : Router) : State := { s with routers := Map.set s.routers i r }

/-- A slot-table entry: writes to the active bank are ignored (02 R55). A written entry's parity is good again (02 R58). -/
def State.writeSlot (s : State) (i bank slot v : Nat) : State :=
  let r := Map.get {} s.routers i
  if boolNat (bit r.ctl.toNat 1) = bank then s
  else s.putRouter i { r with table := Map.put (0 : W32) r.table (bank * 256 + slot) (BitVec.ofNat 32 (v % 2 ^ 24)),
                              bad := r.bad.filter (fun k => k ≠ bank * 256 + slot) }

/-- SLOT_CTL: VER_STAGED, ARM and EN are written, ERR is cleared by a 1. -/
def slotCtlWrite (old v : Nat) : W64 :=
  let a := setBits (setBits (setBits old 47 32 (bits v 47 32)) 2 2 (bits v 2 2)) 0 0 (bits v 0 0)
  BitVec.ofNat 64 (if bit v 3 then setBits a 3 3 0 else a)

/-- Commands of a reserved code complete as no-ops, in their turn (13 R369). DESIGN CHOICE (log 46). -/
def skipNoops : List CbCmd → List CbCmd × Nat
  | [] => ([], 0)
  | c :: cs => if c.op ≥ 5 then let r := skipNoops cs; (r.1, r.2 + 1) else (c :: cs, 0)

def Die.settleCmds (d : Die) : Die :=
  let r := skipNoops d.cbFifo
  { d with cbFifo := r.1, cbDone := d.cbDone + BitVec.ofNat 32 r.2 }

/-- A command is accepted. -/
def Die.pushCmd (d : Die) (c : CbCmd) : Die := ({ d with cbFifo := d.cbFifo ++ [c], cbIssued := d.cbIssued + 1 }).settleCmds

/-- The head command completes. -/
def Die.popCmd (d : Die) : Die := ({ d with cbFifo := d.cbFifo.tail, cbDone := d.cbDone + 1 }).settleCmds

/-- What is outstanding to a package now (05 R143): requests of cores and of jobs by their tags, and the jobs and combining entries of the collectives
that it is a member of. -/
def fallOf (s : State) (pkg : Nat) : Fall :=
  { pkg := pkg
    tags := (s.cores.flatMap fun c => (c.2.mem.remote.filter fun r => r.home = pkg).map RemoteOp.tag)
      ++ s.bays.flatMap fun b => b.2.jobs.flatMap fun j => (j.reqs.filter fun r => r.home = pkg).map JobReq.tag
    jobs := s.bays.flatMap fun b => (b.2.jobs.filter fun j => bits (wordAt j.card 0) 63 60 = 3 && bit j.mask.toNat pkg).map fun j => (b.1, j.seq)
    combs := (s.fab.combs.filter fun e => bit e.first.mask.toNat pkg).map fun e => (e.ctx, e.group, e.dst) }

/-- A write of the 8-byte word at an aligned address; none while it must be held. -/
def ctlWriteWord (s : State) (pa v : Nat) : Option State :=
  let die := ctlDie pa
  let d := s.die die
  let o := ctlOff pa
  let keep (x : Die) : Option State := some (s.putDie die x)
  if die = 0 && o = 0x10000 then some (s.withSys { s.sys with ctxTable := maskWrite s.sys.ctxTable.toNat v ctxTableMask })
  else if die = 0 && o = 0x10008 then
    (if s.sys.xinvFifo.length < 8 && s.sys.xinvHeld.isEmpty then some (s.xinv (xinvOf v)) else none)
  else if die = 0 && o = 0x300000 then some (s.withFab { s.fab with podCfg := maskWrite s.fab.podCfg.toNat v podCfgMask })
  else if die = 0 && o = 0x300008 then some (s.withFab { s.fab with stripe := maskWrite s.fab.stripe.toNat v stripeMask })
  else if die = 0 && o = 0x300010 then some (s.withFab { s.fab with timeout := BitVec.ofNat 32 v })
  else if die = 0 && 0x300040 ≤ o && o < 0x300080 then
    let k := (o - 0x300040) / 8
    let member := (List.range 8).foldl
      (fun (m : Vector Byte 64) i => m.setIfInBounds (8 * k + i) (BitVec.ofNat 8 (v / 2 ^ (8 * i) % 64))) s.fab.member
    some (s.withFab { s.fab with member := member })
  else if die = 0 && 0x300100 ≤ o && o < 0x300300 then
    let i := (o - 0x300100) / 8
    some (s.withFab { s.fab with peer := s.fab.peer.setIfInBounds i (maskWrite (vget 0 s.fab.peer i).toNat v peerMask),
                                 falls := if v % 4 = 1 then s.fab.falls else s.fab.falls ++ [fallOf s i] })
  else if o = 0x100000 then keep { d with cbCtx := BitVec.ofNat 16 v }
  else if o = 0x100008 then
    (if d.cbFifo.length < 8 then keep (d.pushCmd { op := bits v 63 60, ctx := d.cbCtx, arg := BitVec.ofNat 56 v }) else none)
  else if o = 0x100020 then (if d.cutUsed.isEmpty then keep { d with cutPool := maskWrite d.cutPool.toNat v cutPoolMask } else some s)
  else if o = 0x100030 then (if d.erxUsed.isEmpty then keep { d with erxPool := maskWrite d.erxPool.toNat v erxPoolMask } else some s)
  else if o = 0x100040 then (if d.erxHead = d.erxTail then keep { d with erxLog := maskWrite d.erxLog.toNat v erxLogMask } else some s)
  else if o = 0x100050 then some ((s.putDie die { d with erxTail := BitVec.ofNat 48 v }).drain die)
  else if o = 0x1F0000 then keep { d with slotSwap := BitVec.ofNat 64 v }
  else if o = 0x1F0010 then (if d.sweepFifo.length < 4 && d.sweepHeld.isEmpty then some (s.sweep die (BitVec.ofNat 16 v)) else none)
  else if 0x200000 ≤ o && o < 0x200000 + 72 * 0x1000 then
    let i := die * 72 + (o - 0x200000) / 0x1000
    let r := Map.get {} s.routers i
    let q := o % 0x1000
    if q < 0x800 then
      some ((s.writeSlot i (q / 0x400) (q % 0x400 / 4) (v % 2 ^ 32)).writeSlot i (q / 0x400) (q % 0x400 / 4 + 1) (v / 2 ^ 32))
    else if q = 0x800 then some (s.putRouter i { r with ctl := slotCtlWrite r.ctl.toNat v }) else some s
  else some s

/-- What holds a write back: of an agent whose write waits at the port, the request stands in its queue. DEDUCED (log 56). -/
def State.ctlHold (s : State) (pa v : Nat) : State :=
  if ctlDie pa = 0 && ctlOff pa = 0x10008 then s.xinv (xinvOf v)
  else if ctlOff pa = 0x1F0010 then s.sweep (ctlDie pa) (BitVec.ofNat 16 v)
  else s

/-- A supervisor's store of 4 or 8 bytes. A 4-byte store reaches the slot tables only. DEDUCED (log 55). -/
def ctlWrite (s : State) (pa n v : Nat) : Option State :=
  if n = 8 then ctlWriteWord s pa v
  else
    let o := ctlOff pa
    if 0x200000 ≤ o && o < 0x200000 + 72 * 0x1000 && o % 0x1000 < 0x800 then
      some (s.writeSlot (ctlDie pa * 72 + (o - 0x200000) / 0x1000) (o % 0x1000 / 0x400) (o % 0x400 / 4) v)
    else some s

end Sys2Proof.Machine
end

