-- ==== Sys2Proof/Machine/Packet.lean ====
section
/-! DEFINITION. Packets and flits: the bytes of each kind of packet, read and written (16 R414 to R416), and a flit's check and parity
symbols (16 R423). -/

namespace Sys2Proof.Machine
open Sys2Proof

/-! ## A packet's header (R415) -/

/-- What stands in every packet. `opk` : its kind. -/
structure PktHead where
  opk : Nat
  dst : Nat
  src : Nat
  core : Nat := 0
  tag : Nat := 0
  sInc : W16 := 0
  rInc : W16 := 0
  ctx : W16 := 0
  deriving DecidableEq, Repr

/-- Flits that n payload bytes need. -/
def flitsFor (n : Nat) : Nat := max 1 (ceilDiv n 120)

def PktHead.bytes (h : PktHead) (flits : Nat) : List Byte :=
  bytesOf 2 (h.opk * 2 ^ 12 + h.dst % 64 * 2 ^ 6 + h.src % 64) ++ bytesOf 2 (h.core % 2048) ++ bytesOf 4 h.tag
    ++ bytesOf 4 (h.sInc.toNat * 2 ^ 16 + h.rInc.toNat) ++ bytesOf 4 (h.ctx.toNat * 2 ^ 16 + (flits - 1))

/-- Bytes of a payload from an offset, as a number. -/
def payAt (bs : List Byte) (off n : Nat) : Nat := ofBytes ((bs.drop off).take n)

def headOfPacket (bs : List Byte) : PktHead :=
  let a := payAt bs 0 2
  let c := payAt bs 8 4
  { opk := bits a 15 12, dst := bits a 11 6, src := bits a 5 0, core := bits (payAt bs 2 2) 10 0, tag := payAt bs 4 4,
    sInc := BitVec.ofNat 16 (bits c 31 16), rInc := BitVec.ofNat 16 (bits c 15 0), ctx := BitVec.ofNat 16 (bits (payAt bs 12 4) 31 16) }

/-- The flit count a first flit gives. -/
def packetFlits (bs : List Byte) : Nat := bits (payAt bs 12 4) 5 0 + 1

/-! ## The fields of each kind (R416) -/

inductive Packet where
  | request (r : RemoteReq)
  | response (r : RemoteResp)
  | management (h : PktHead) (pkg state : Nat) (inc : W16)
  | abort (h : PktHead) (group : Nat) (mask : W64)
  | abortAck (h : PktHead) (group : Nat) (mask : W64)
  | contrib (p : Contrib) (core : Nat)
  deriving DecidableEq, Repr

def reqHead (r : RemoteReq) : PktHead :=
  { opk := 0, dst := r.dst, src := r.src, core := r.core, tag := r.tag, sInc := r.sInc, rInc := r.rInc, ctx := r.ctx }

def respHead (r : RemoteResp) : PktHead :=
  { opk := 1, dst := r.dst, src := r.src, core := r.core, tag := r.tag, sInc := r.sInc, rInc := r.rInc, ctx := r.ctx }

def contribHead (p : Contrib) (dst core : Nat) : PktHead :=
  { opk := 5, dst := dst, src := p.src, core := core, tag := p.tag, sInc := p.sInc, rInc := p.rInc, ctx := p.ctx }

def reqFields (r : RemoteReq) : List Byte :=
  bytesOf 8 (boolNat r.striped * 2 ^ 56 + r.op % 16 * 2 ^ 52 + r.addr % 2 ^ 52)
    ++ bytesOf 4 (r.key % 1024 * 2 ^ 13 + r.aop % 16 * 2 ^ 9 + (r.len - 1) % 512)
    ++ (if r.data = [] then [] else List.replicate 4 0 ++ r.data)

def respFields (r : RemoteResp) : List Byte :=
  let n := r.data.length
  bytesOf 4 (r.status % 16) ++ bytesOf 4 (if n = 0 then 0 else 2 ^ 9 + (n - 1) % 512)
    ++ (if n = 0 then [] else List.replicate 8 0 ++ r.data)

def contribFields (p : Contrib) : List Byte :=
  bytesOf 2 p.group ++ bytesOf 2 (boolNat p.place * 64 + boolNat p.isPrefix * 32 + boolNat p.flagged * 16 + p.op % 16)
    ++ bytesOf 4 p.idx ++ bytesOf 8 p.dst ++ bytesOf 8 p.mask.toNat ++ bytesOf 4 (p.ilen % 2 ^ 21) ++ bytesOf 4 (p.olen % 2 ^ 21)
    ++ p.tile.flatMap fun x => bytesOf 4 x.toNat

/-- A packet's header and the bytes after it. -/
def Packet.parts (dst : Nat) : Packet → PktHead × List Byte
  | .request r => (reqHead r, reqFields r)
  | .response r => (respHead r, respFields r)
  | .management h pkg state inc => (h, bytesOf 1 0 ++ bytesOf 1 (pkg % 64) ++ bytesOf 2 (state % 4) ++ bytesOf 2 inc.toNat)
  | .abort h group mask => (h, bytesOf 8 group ++ bytesOf 8 mask.toNat)
  | .abortAck h group mask => (h, bytesOf 8 group ++ bytesOf 8 mask.toNat)
  | .contrib p core => (contribHead p dst core, contribFields p)

def Packet.payload (dst : Nat) (p : Packet) : List Byte :=
  let (h, bs) := p.parts dst
  h.bytes (flitsFor (16 + bs.length)) ++ bs

/-- The packet that payload bytes hold, and its destination; none where it is dropped. -/
def packetOf (bs : List Byte) : Option (Nat × Packet) :=
  let h := headOfPacket bs
  let w := payAt bs 16 8
  let v := payAt bs 24 4
  match h.opk with
  | 0 =>
    if bits w 55 52 > 2 then none
    else
      let len := bits v 8 0 + 1
      let n := if bits w 55 52 = 1 then len else if bits w 55 52 = 2 then 16 else 0
      some (h.dst, .request { src := h.src, dst := h.dst, core := h.core, tag := h.tag, sInc := h.sInc, rInc := h.rInc, ctx := h.ctx,
                              addr := bits w 51 0, op := bits w 55 52, striped := bit w 56, len := len, aop := bits v 12 9,
                              key := bits v 22 13, cls := 0, data := (bs.drop 32).take n })
  | 1 =>
    let d := payAt bs 20 4
    some (h.dst, .response { src := h.src, dst := h.dst, core := h.core, tag := h.tag, sInc := h.sInc, rInc := h.rInc, ctx := h.ctx,
                             status := bits (payAt bs 16 4) 3 0, data := if bit d 9 then (bs.drop 32).take (bits d 8 0 + 1) else [] })
  | 2 => if payAt bs 16 1 ≠ 0 then none
    else some (h.dst, .management h (payAt bs 17 1 % 64) (payAt bs 18 1 % 4) (BitVec.ofNat 16 (payAt bs 20 2)))
  | 3 => some (h.dst, .abort h (payAt bs 16 2) (BitVec.ofNat 64 (payAt bs 24 8)))
  | 4 => some (h.dst, .abortAck h (payAt bs 16 2) (BitVec.ofNat 64 (payAt bs 24 8)))
  | 5 =>
    let f := payAt bs 18 1
    some (h.dst, .contrib { src := h.src, tag := h.tag, sInc := h.sInc, rInc := h.rInc, ctx := h.ctx, group := payAt bs 16 2, op := bits f 3 0,
                            flagged := bit f 4, isPrefix := bit f 5, place := bit f 6, idx := payAt bs 20 4, dst := payAt bs 24 8,
                            mask := BitVec.ofNat 64 (payAt bs 32 8), ilen := payAt bs 40 4 % 2 ^ 21, olen := payAt bs 44 4 % 2 ^ 21,
                            tile := (List.range 16).map fun i => BitVec.ofNat 32 (payAt bs (48 + 4 * i) 4) } h.core)
  | _ => none

/-! ## Flits (R414) -/

def flitHead (cls pos seq ack : Nat) (av circ : Bool) : Nat :=
  cls * 2 ^ 30 + pos * 2 ^ 28 + seq * 2 ^ 20 + ack * 2 ^ 12 + boolNat av * 2 ^ 11 + boolNat circ * 2 ^ 10

def flitClass (f : BitVec 1024) : Nat := bits f.toNat 31 30
def flitPos (f : BitVec 1024) : Nat := bits f.toNat 29 28
def flitSeq (f : BitVec 1024) : Nat := bits f.toNat 27 20
def flitAck (f : BitVec 1024) : Nat := bits f.toNat 19 12
def flitAv (f : BitVec 1024) : Bool := bit f.toNat 11
def flitCirc (f : BitVec 1024) : Bool := bit f.toNat 10
def flitPayload (f : BitVec 1024) : List Byte := bytesOf 120 (f.toNat / 2 ^ 32)
def flitByte (f : BitVec 1024) (i : Nat) : Nat := bits f.toNat (8 * i + 7) (8 * i)

/-- The flits of a payload, without their sequence numbers and check. -/
def flitsOf (cls : Nat) (circ : Bool) (bs : List Byte) : List (BitVec 1024) :=
  let n := flitsFor bs.length
  (List.range n).map fun i =>
    let pos := if n = 1 then 3 else if i = 0 then 1 else if i = n - 1 then 2 else 0
    BitVec.ofNat 1024 (flitHead cls pos 0 0 false circ + ofBytes ((bs.drop (120 * i)).take 120) * 2 ^ 32)

/-! ## CRC-32 (R423) -/

/-- One byte into the reflected register. -/
def crcBits : Nat → Nat → Nat
  | 0, c => c
  | n + 1, c => crcBits n (if c % 2 = 1 then c / 2 ^^^ 0xEDB88320 else c / 2)

def crc32 (bs : List Byte) : Nat := (bs.foldl (fun c b => crcBits 8 (c ^^^ b.toNat)) 0xFFFFFFFF) ^^^ 0xFFFFFFFF

/-- A flit with its header's sequence and acknowledgement fields and its CRC filled in. -/
def sealFlit (f : BitVec 1024) (seq ack : Nat) (av : Bool) : BitVec 1024 :=
  let h := setBits (setBits (setBits (f.toNat % 2 ^ 32) 27 20 seq) 19 12 ack) 11 11 (boolNat av)
  let low := h + f.toNat / 2 ^ 32 % 2 ^ 960 * 2 ^ 32
  BitVec.ofNat 1024 (low + crc32 (bytesOf 124 low) * 2 ^ 992)

def crcOk (f : BitVec 1024) : Bool := decide (f.toNat / 2 ^ 992 = crc32 (bytesOf 124 (f.toNat % 2 ^ 992)))

/-! ## Parity symbols (R423) -/

/-- Multiplication in GF(2^10) on x^10 + x^3 + 1. -/
def gfMul : Nat → Nat → Nat → Nat
  | 0, _, _ => 0
  | n + 1, a, b =>
    let a2 := if 2 * a ≥ 1024 then (2 * a) ^^^ 0x409 else 2 * a
    (if b % 2 = 1 then a else 0) ^^^ gfMul n a2 (b / 2)

def flitSymbols (f : BitVec 1024) : List Nat := elemsOf 10 103 f.toNat

/-- The sum over j of dj · x^j, by Horner's rule. -/
def gfEval (x : Nat) : List Nat → Nat
  | [] => 0
  | d :: ds => d ^^^ gfMul 10 (gfEval x ds) x

def gfPow (x : Nat) : Nat → Nat
  | 0 => 1
  | n + 1 => gfMul 10 (gfPow x n) x

def paritySymbol (f : BitVec 1024) (k : Nat) : Nat := gfEval (gfPow 2 (k + 1)) (flitSymbols f)

/-- P(r) of R422. -/
def parityCount (r : Nat) : Nat := 8 * 2 ^ r

def paritySymbols (f : BitVec 1024) (lo hi : Nat) : List Nat := (List.range (hi - lo)).map fun i => paritySymbol f (lo + i)

/-- The trailer of a flit. -/
def baseParity (f : BitVec 1024) : BitVec 80 := BitVec.ofNat 80 (joinNat 10 (paritySymbols f 0 8))

end Sys2Proof.Machine
end

