-- ==== Sys2Proof/Machine/Cut.lean ====
section
/-! DEFINITION. The cut as a record, its layout in a cut area, and reading it back (14 R376 to R378, R381). -/

namespace Sys2Proof.Machine
open Sys2Proof

/-! ## Places in a section, as one number -/

/-- Values at byte offsets. -/
def atBytes (fs : List (Nat × Nat)) : Nat := fs.foldl (fun a p => a + p.2 * 2 ^ (8 * p.1)) 0

/-- n bits at a byte offset. -/
def fieldAt (x off n : Nat) : Nat := x / 2 ^ (8 * off) % 2 ^ n

def word64 (x off : Nat) : Nat := fieldAt x off 64

/-- Words at consecutive 8-byte places. -/
def wordsAt (off : Nat) (ws : List Nat) : List (Nat × Nat) := ws.zipIdx.map fun p => (off + 8 * p.2, p.1)

/-! ## Section headers and issue images -/

structure CutHead where
  cause : Nat := 0
  skipw : Bool := false
  abandoned : Bool := false
  iseq : Nat := 0
  fpc : Nat := 0
  pc : Nat := 0
  info : Nat := 0
  lseq : Nat := 0
  next0 : Nat := 0
  next1 : Nat := 0
  fetch0 : Nat := 0
  fetch1 : Nat := 0
  heldCause : Nat := 0
  heldInfo : Nat := 0
  job : Nat := 0
  heldJob : Nat := 0
  image : List Entry := []

def entryWords (e : Entry) : List Nat :=
  [e.word.toNat * 2 ^ 32 + boolNat e.lit.isSome * 2 ^ 20 + e.cont.length * 2 ^ 17 + e.addr.toNat,
   (e.lit.getD 0).toNat, wordAt e.cont 0, wordAt e.cont 1, wordAt e.cont 2, 0]

def CutHead.fields (h : CutHead) : List (Nat × Nat) :=
  [(0, h.cause * 2 ^ 56 + boolNat h.skipw * 2 ^ 55 + boolNat h.abandoned * 2 ^ 54 + h.image.length * 2 ^ 49 + h.iseq),
   (8, h.fpc * 2 ^ 32 + h.pc), (16, h.info), (24, h.lseq), (32, h.next0), (40, h.next1), (48, h.fetch0), (56, h.fetch1),
   (64, h.heldCause), (72, h.heldInfo), (80, h.job), (88, h.heldJob)]
    ++ wordsAt 128 (h.image.flatMap entryWords)

def entryAt (x off : Nat) : Entry :=
  let w := word64 x off
  { word := BitVec.ofNat 32 (w / 2 ^ 32), addr := BitVec.ofNat 17 w,
    lit := if bit w 20 then some (BitVec.ofNat 32 (word64 x (off + 8))) else none,
    cont := (List.range (bits w 19 17)).map fun i => BitVec.ofNat 64 (word64 x (off + 16 + 8 * i)) }

def headAt (x : Nat) : CutHead :=
  let w := word64 x 0
  { cause := bits w 63 56, skipw := bit w 55, abandoned := bit w 54, iseq := bits w 47 0,
    fpc := bits (word64 x 8) 48 32, pc := bits (word64 x 8) 16 0, info := word64 x 16, lseq := bits (word64 x 24) 47 0,
    next0 := word64 x 32, next1 := word64 x 40, fetch0 := word64 x 48, fetch1 := word64 x 56,
    heldCause := bits (word64 x 64) 7 0, heldInfo := word64 x 72, job := word64 x 80, heldJob := word64 x 88,
    image := (List.range (bits w 53 49)).map fun i => entryAt x (128 + 48 * i) }

/-! ## Queue images -/

/-- An entry's bytes. A failed entry of a 64-bit queue has no byte 8: its class stays with the task. DEDUCED (log 30). -/
def QEntry.image (q : Nat) (e : QEntry) : Nat :=
  match e.fill with
  | .failed va cls _ => va.toNat + (if queueWide q then cls.toNat * 2 ^ 64 else 0)
  | _ => e.data.toNat % 2 ^ (8 * queueBytes q)

def QEntry.isFailed (e : QEntry) : Bool :=
  match e.fill with
  | .failed _ _ _ => true
  | _ => false

def queueFields (off q : Nat) (x : Queue) : List (Nat × Nat) :=
  let fail := (x.chip.zipIdx.filter fun e => e.1.isFailed).foldl (fun a e => a + 2 ^ e.2) 0
  [(off, x.cfg.toNat), (off + 8, x.chip.length * 2 ^ 59 + fail * 2 ^ 32 + x.head * 2 ^ 16 + x.tail)]
    ++ x.chip.zipIdx.map fun e => (off + 16 + queueBytes q * e.2, e.1.image q)

/-- A queue's image, read back. DEDUCED (log 30). -/
def queueAt (x off q : Nat) (tag : W16) : Queue :=
  let w := word64 x (off + 8)
  let cfg := BitVec.ofNat 64 (word64 x off)
  let entry (i : Nat) : QEntry :=
    let o := off + 16 + queueBytes q * i
    if bit w (32 + i) then
      { data := 0, tag := tag, fill := .failed (BitVec.ofNat 64 (word64 x o)) (BitVec.ofNat 2 (if queueWide q then word64 x (o + 8) else 0)) 0 }
    else { data := BitVec.ofNat 2048 (fieldAt x o (8 * queueBytes q)), tag := tag }
  let size := (bits cfg.toNat 59 56 + 1) * 4096
  let head := bits w 31 16
  let tail := bits w 15 0
  let held := if bit cfg.toNat 63 then (tail + size - head) % size else 0
  { chip := (List.range (bits w 63 59)).map entry, ring := List.replicate (held / queueBytes q) { data := 0, tag := tag },
    head := head, tail := tail, cfg := cfg }

def branchFields (off : Nat) (x : Queue) : List (Nat × Nat) :=
  [(off, x.chip.length * 2 ^ 32 + (x.chip.zipIdx.foldl (fun a e => a + (e.1.data.toNat % 2) * 2 ^ e.2) 0))]

def branchAt (x off : Nat) (tag : W16) : Queue :=
  let w := word64 x off
  { chip := (List.range (bits w 37 32)).map fun i => { data := BitVec.ofNat 2048 (bits w i i), tag := tag } }

/-! ## Saved commands -/

structure SavedCmd where
  skipw : Bool
  gen : Nat
  index : Nat
  card : List Nat

def SavedCmd.words (c : SavedCmd) : List Nat :=
  (boolNat c.skipw * 2 ^ 19 + c.gen * 2 ^ 15 + c.index) :: (List.range 8).map fun i => c.card.getD i 0

def savedFields (off : Nat) (cs : List SavedCmd) : List (Nat × Nat) := (off, cs.length) :: wordsAt (off + 8) (cs.flatMap SavedCmd.words)

def savedAt (x off : Nat) : List SavedCmd :=
  (List.range (bits (word64 x off) 3 0)).map fun i =>
    let o := off + 8 + 72 * i
    let w := word64 x o
    { skipw := bit w 19, gen := bits w 18 15, index := bits w 14 0, card := (List.range 8).map fun k => word64 x (o + 8 + 8 * k) }

/-! ## The cut -/

/-- Memberships and participation slots stand with their place of 8 and of 4. -/
structure Cut where
  k : CutHead
  l : CutHead
  s : CutHead
  c : CutHead
  regs : Regs
  ctx : Nat
  apart : Bool
  gen : Nat
  img0 : Nat
  img1 : Nat
  fills0 : Nat
  fills1 : Nat
  len0 : Nat
  len1 : Nat
  bankSrc : Nat
  weirs : List (Nat × Nat × Nat)
  weirStale : Nat
  queues : Vector Queue 16
  cues : List Nat
  cmdsL : List SavedCmd
  cmdsS : List SavedCmd
  parts : List (Nat × Nat × Nat × Nat)
  slots : Bool
  lease : Nat

def Cut.queue (x : Cut) (q : Nat) : Queue := vget {} x.queues q

def Cut.kSection (x : Cut) : Nat := atBytes (x.k.fields
  ++ wordsAt 896 ((List.range 31).map fun i => (x.regs.getX (i + 1)).toNat)
  ++ [(1144, x.ctx * 2 ^ 48 + boolNat x.apart * 2 ^ 4 + x.gen), (1152, x.img0), (1160, x.img1),
      (1168, x.fills1 * 2 ^ 16 + x.fills0), (1176, x.bankSrc), (1312, x.weirStale), (1320, x.len1 * 2 ^ 32 + x.len0)]
  ++ x.weirs.flatMap (fun w => wordsAt (1184 + 16 * w.1) [w.2.1, 2 ^ 63 + w.2.2 * 2 ^ 32])
  ++ queueFields 1328 6 (x.queue 6) ++ queueFields 1472 7 (x.queue 7) ++ queueFields 1616 8 (x.queue 8))

def Cut.lSection (x : Cut) : Nat := atBytes (x.l.fields
  ++ wordsAt 896 ((List.range 15).map fun i => (x.regs.getLx (i + 1)).toNat)
  ++ queueFields 1024 0 (x.queue 0) ++ queueFields 3088 1 (x.queue 1) ++ queueFields 5152 2 (x.queue 2)
  ++ queueFields 7216 3 (x.queue 3) ++ queueFields 9280 9 (x.queue 9) ++ queueFields 9424 12 (x.queue 12)
  ++ branchFields 9568 (x.queue 13) ++ [(9576, x.cues.getD 0 0)] ++ savedFields 9584 x.cmdsL)

def Cut.sSection (x : Cut) : Nat := atBytes (x.s.fields
  ++ wordsAt 896 ((List.range 15).map fun i => (x.regs.getSx (i + 1)).toNat)
  ++ queueFields 1024 11 (x.queue 11) ++ [(1168, x.cues.getD 3 0)] ++ savedFields 1176 x.cmdsS
  ++ x.parts.flatMap (fun p => wordsAt (1760 + 16 * p.1) [2 ^ 63 + p.2.2.1 * 2 ^ 16 + p.2.1, p.2.2.2]))

def Cut.cSection (x : Cut) : Nat := atBytes (x.c.fields
  ++ wordsAt 896 ((List.range 16).map fun i => (x.regs.getCx i).toNat)
  ++ (List.range 32).map (fun i => (1024 + 256 * i, (x.regs.getV i).toNat))
  ++ wordsAt 9216 ((List.range 8).map fun i => (x.regs.getP i).toNat)
  ++ queueFields 9280 4 (x.queue 4) ++ queueFields 11344 5 (x.queue 5) ++ queueFields 13408 10 (x.queue 10)
  ++ queueFields 13552 15 (x.queue 15) ++ branchFields 14592 (x.queue 14)
  ++ [(14600, x.cues.getD 1 0), (14608, x.cues.getD 2 0), (14616, boolNat x.slots * 2 ^ 63 + x.lease)])

/-- The cut that four sections hold. -/
def cutAt (k l c s : Nat) : Cut :=
  let tag := BitVec.ofNat 16 (bits (word64 k 1144) 63 48)
  let r0 : Regs := {}
  let regs : Regs :=
    { x := r0.x.mapIdx fun i _ => if i = 0 then 0 else BitVec.ofNat 64 (word64 k (888 + 8 * i))
      lx := r0.lx.mapIdx fun i _ => if i = 0 then 0 else BitVec.ofNat 64 (word64 l (888 + 8 * i))
      sx := r0.sx.mapIdx fun i _ => if i = 0 then 0 else BitVec.ofNat 64 (word64 s (888 + 8 * i))
      cx := r0.cx.mapIdx fun i _ => BitVec.ofNat 64 (word64 c (896 + 8 * i))
      v := r0.v.mapIdx fun i _ => BitVec.ofNat 2048 (fieldAt c (1024 + 256 * i) 2048)
      p := r0.p.mapIdx fun i _ => if i = 0 then 0 else BitVec.ofNat 64 (word64 c (9216 + 8 * i)) }
  let places : List (Nat × Nat × Nat) :=
    [(0, l, 1024), (1, l, 3088), (2, l, 5152), (3, l, 7216), (4, c, 9280), (5, c, 11344), (6, k, 1328), (7, k, 1472), (8, k, 1616),
     (9, l, 9280), (10, c, 13408), (11, s, 1024), (12, l, 9424), (15, c, 13552)]
  let q0 : Vector Queue 16 := Vector.replicate 16 {}
  let q1 := places.foldl (fun (v : Vector Queue 16) p => v.setIfInBounds p.1 (queueAt p.2.1 p.2.2 p.1 tag)) q0
  let q2 := (q1.setIfInBounds 13 (branchAt l 9568 tag)).setIfInBounds 14 (branchAt c 14592 tag)
  { k := headAt k, l := headAt l, s := headAt s, c := headAt c, regs := regs, ctx := tag.toNat, apart := bit (word64 k 1144) 4,
    gen := bits (word64 k 1144) 3 0, img0 := word64 k 1152, img1 := word64 k 1160, fills0 := bits (word64 k 1168) 14 0,
    fills1 := bits (word64 k 1168) 30 16, len0 := bits (word64 k 1320) 16 0, len1 := bits (word64 k 1320) 48 32,
    bankSrc := word64 k 1176,
    weirs := (List.range 8).filterMap fun i =>
      let w := word64 k (1192 + 16 * i)
      if bit w 63 then some (i, word64 k (1184 + 16 * i), bits w 47 32) else none
    weirStale := bits (word64 k 1312) 31 0, queues := q2,
    cues := [bits (word64 l 9576) 3 0, bits (word64 c 14600) 3 0, bits (word64 c 14608) 3 0, bits (word64 s 1168) 3 0],
    cmdsL := savedAt l 9584, cmdsS := savedAt s 1176,
    parts := (List.range 4).filterMap fun i =>
      let w := word64 s (1760 + 16 * i)
      if bit w 63 then some (i, bits w 15 0, bits w 23 16, word64 s (1768 + 16 * i)) else none
    slots := bit (word64 c 14616) 63, lease := bits (word64 c 14616) 1 0 }

/-- The reserved bits of the words that are kept whole: LOOP, the words at 80 and 88, QCFG. -/
def headClean (h : CutHead) : Bool :=
  [h.next0, h.next1, h.fetch0, h.fetch1].all (fun w => !bit w 62) && [h.job, h.heldJob].all fun w => decide (bits w 61 48 = 0)

def cfgClean (x : Queue) : Bool := decide (bits x.cfg.toNat 62 60 = 0) && decide (bits x.cfg.toNat 51 44 = 0)

def headOk (h : CutHead) : Bool :=
  decide (h.image.length ≤ 16) && decide (h.pc % 4 = 0) && decide (h.fpc % 4 = 0) && headClean h
    && h.image.all (fun e => decide (e.addr.toNat % 4 = 0) && decide (e.cont.length ≤ 3))

/-- Counts within their limits, PCs lane addresses, and every reserved bit and byte of the sections zero: they read back as they are written.
p0 is not held (06 R147). -/
def cutOk (x : Cut) (k l c s : Nat) : Bool :=
  headOk x.k && headOk x.l && headOk x.c && headOk x.s
    && (List.range 16).all (fun q => decide ((x.queue q).chip.length ≤ queueDepth q) && cfgClean (x.queue q))
    && x.cues.all (fun n => decide (n ≤ 8)) && decide (x.cmdsL.length ≤ 8) && decide (x.cmdsS.length ≤ 8)
    && decide (x.kSection = k) && decide (x.lSection = l) && decide (x.sSection = s)
    && decide (x.cSection = c + (2 ^ 64 - 1) * 2 ^ (8 * 9216) - word64 c 9216 * 2 ^ (8 * 9216))

end Sys2Proof.Machine
end

