-- ==== Sys2Proof/Machine/Sequencer.lean ====
section
/-! DEFINITION. The graph sequencer: completion and settling, launches, resumes and manifests, nests, dispatch and retirement
(13 R348 to R363; 15 R401, R402, R406). -/

namespace Sys2Proof.Machine
open Sys2Proof

/-! ## Signing (15 R406) -/

/-- A signed entry of the signature ring waits for the management complex to write it: die, kind, first log index, records. -/
def State.signLater (s : State) (die kind first : Nat) (rs : List (List Byte)) : State :=
  s.withHost { s.host with sigWait := s.host.sigWait ++ [(die, kind, first, rs)] }

/-! ## Graph settling (R351) -/

def graphKilled (s : State) (g : Graph) : Bool := s.dying g.scope

/-- The node roots of a graph, in node-id order; a node that is not COMPLETE or has AUDIT 0 gives zeros. -/
def graphRoot (g : Graph) : List Byte :=
  treeRoot ((List.range g.nnodes).map fun i =>
    let n := Map.get {} g.nodes i
    if n.status = 3 && n.root.length = 32 then n.root else zeroRoot)

/-- The DETMODE value of a graph (R362). -/
def detMode (lcores : W16) (det tt : Bool) : Nat := lcores.toNat * 2 ^ 32 + boolNat tt * 2 + boolNat det

/-- GSTAT of a settled graph. DEDUCED (log 79). -/
def settledStat (s : State) (g : Graph) : Nat :=
  if graphKilled s g then 4
  else if !g.halted && (List.range g.nnodes).all (fun i => (Map.get {} g.nodes i).status = 3) then 2 else 3

/-- No node is active and no firing waits: the graph settles. What its parent node or its host sees of it is `settle`'s result. -/
def State.canSettle (s : State) (g : Nat) : Bool :=
  match s.graph? g with
  | none => false
  | some x => decide (x.settled = none) && !x.active && !((s.die x.die).creations.any fun c => c.1 = g)
      && !x.nodes.any (fun n => n.2.cancelAfter || n.2.ignoreAfter) && decide (x.cones = [])

/-- The settling itself: GSTAT, the graph root's record and signature, the host's reply. -/
def State.settleGraph (s : State) (g : Nat) : State :=
  match s.graph? g with
  | none => s
  | some x =>
    let st := settledStat s x
    let s1 := (s.putGstat g st).putGraph g { x with settled := some st, parked := false, parking := false }
    let die := scopeDie x.scope
    let root := graphRoot x
    let r := rootRecord s1 7 x.nnodes 0 x.anchor (modeWord false false x.det x.det 0 0 0 0 0 0) 0 root x.manifest.toNat
    let s2 := (s1.logAppend die r).signLater die 1 (logIndex (s1.die die)) [r]
    match x.hostSeq with
    | some (_, op) => s2.reply op.toNat 0 st []
    | none => s2

/-! ## Node completion (R349, R350; 15 R401, R402) -/

/-- The digest of an audited node: its root, its log record, and the root written at DIGEST. -/
def State.nodeRoot (s : State) (g i : Nat) (root : List Byte) (covered : Nat) : State :=
  match s.graph? g with
  | none => s
  | some x =>
    let n := s.node g i
    if !nodeAudit (n.w 0) then s
    else
      let s1 := (s.putNode g i { n with root := root }).vaWrite x.ctx (.store 8) (n.w 9) root
      s1.logAppend x.die (rootRecord s1 6 covered (nodeUsed (n.w 0)) x.anchor (modeWord false false x.det x.det 0 0 0 0 0 0) i root 0)

/-- The root area as it is read back: `n` roots from DIGEST + 32 on; the roots as they were written where the area cannot be read.
DEDUCED (log 82). -/
def areaRoots (s : State) (ctx : W16) (n : NodeSt) : Chk (List (List Byte)) :=
  match s.vaRead ctx (.load 8) (n.w 9 + 32) (32 * n.roots.length) with
  | .ok bs => .ok ((List.range n.roots.length).map fun k => (bs.drop (32 * k)).take 32)
  | .error (.trap _ _) => .ok (n.roots.map Prod.snd)
  | .error h => .error h

/-- The root of a node from what it ran, and how many roots it covers. -/
def nodeRootOf (s : State) (ctx : W16) (n : NodeSt) : Chk (List Byte × Nat) := do
  if !nodeAudit (n.w 0) then .ok (zeroRoot, 0)
  else match nodeKind (n.w 0) with
  | 0 =>
    let rs ← areaRoots s ctx n
    .ok (treeRoot rs, rs.length)
  | 1 =>
    match n.sub.bind s.graph? with
    | some y => .ok (graphRoot y, y.nnodes)
    | none => .ok (zeroRoot, 0)
  | 2 =>
    let rs ← areaRoots s ctx n
    .ok (rs.headD zeroRoot, 1)
  | _ => .ok (zeroRoot, 0)

/-- A node may become COMPLETE: it is READY or RUNNING, no cone takes it and no kill has reached it (R349, R370). -/
def mayComplete (s : State) (n : NodeSt) : Bool :=
  (n.status = 1 || n.status = 2) && !n.cancelAfter && n.untold.isNone && (match n.scope with
    | some sc => !s.dying sc
    | none => true)

/-- COMPLETE: the root, the status, then the successors in list order. -/
def State.completeNode (s : State) (g i : Nat) : State :=
  match s.graph? g with
  | none => s
  | some x =>
    if !mayComplete s (s.node g i) then s
    else match nodeRootOf s x.ctx (s.node g i) with
    | .error h => s.met h
    | .ok (root, covered) => ((s.nodeRoot g i root covered).terminal g i 3).decrementAll g i

/-- Settle the graph if it can, then tell its parent node, level by level up: a subgraph that did not complete makes its node FAULTED, and
no RETRY applies (R351). -/
def settleUp : Nat → Nat → State → State
  | 0, _, s => s
  | f + 1, g, s =>
    if !s.canSettle g then s
    else
      let s1 := s.settleGraph g
      match s1.graph? g with
      | none => s1
      | some x =>
        match x.parent with
        | none => s1
        | some (pg, pi) =>
          if (s1.node pg pi).status ≠ 2 then s1
          else if x.settled = some 2 then settleUp f pg (s1.completeNode pg pi)
          else
            let t : Trap := x.firstFault.getD { cause := .killed, info := 0 }
            settleUp f pg (s1.nodeFault pg pi t 0 x.anchor (nodePolicy ((s1.node pg pi).w 0) ≠ 2))

def State.settle (s : State) (g : Nat) : State := settleUp (s.graphs.length + 1) g s

/-- A fault of a node and what its graph then makes of it. -/
def State.faultNode (s : State) (g i : Nat) (t : Trap) (task core : Nat) (hard : Bool) : State :=
  (s.nodeFault g i t task core hard).settle g

/-- Nodes that hold a scope. -/
def nodesOf (s : State) (id : W16) : List (Nat × Nat) :=
  s.graphs.flatMap fun g => g.2.nodes.filterMap fun n => if n.2.scope = some id then some (g.1, n.1) else none

/-- The fault KILLED of a node of a graph. -/
def killedNode (s : State) (g : Nat) : Untold :=
  { trap := { cause := .killed, info := 0 }, tid := 0, core := ((s.graph? g).map Graph.anchor).getD 0, hard := true }

def State.tellNode (s : State) (g i : Nat) (u : Untold) : State := s.faultNode g i u.trap u.tid u.core u.hard

/-- A kill by a supervisor or by the host: a node whose own scope it is faults with KILLED (R353). -/
def State.superKill (s : State) (id : W16) : State :=
  if !s.liveScope id || killingScope s id then s
  else (nodesOf s id).foldl (fun s p => s.tellNode p.1 p.2 (killedNode s p.1)) (s.kill id .killed)

/-- A kill recorded, the fault that it is told to its node later. -/
def State.killUntold (s : State) (id : W16) (nodes : List ((Nat × Nat) × Untold)) : State :=
  nodes.foldl (fun s (p : (Nat × Nat) × Untold) =>
    let n := s.node p.1.1 p.1.2
    if n.status = 1 || n.status = 2 then s.putNode p.1.1 p.1.2 { n with untold := some (n.untold.getD p.2) } else s) (s.kill id .killed)

/-- The faults not told yet are told. -/
def State.tellUntold (s : State) : State :=
  (s.graphs.flatMap fun g => g.2.nodes.filterMap fun n => n.2.untold.map fun u => ((g.1, n.1), u)).foldl (fun s (p : (Nat × Nat) × Untold) =>
    (s.putNode p.1.1 p.1.2 { s.node p.1.1 p.1.2 with untold := none }).tellNode p.1.1 p.1.2 p.2) s

/-! ## Launch (R348, R355, R363) -/

/-- Every node record of a launch. -/
def readNodes (s : State) (ctx : W16) (sv : Bool) (nodes : Nat) : Nat → Nat → Chk (List (List W64))
  | 0, _ => .ok []
  | f + 1, i => do
    let ws ← s.vaWordsAs ctx sv (nodes + 128 * i) 16
    let rest ← readNodes s ctx sv nodes f (i + 1)
    .ok (ws :: rest)

/-- How a launch fails: a record that cannot be read, or one that is malformed. -/
inductive LaunchBad where
  | unread (h : Halt)
  | malformed

/-- The records of a launch: UNFIRED or COMPLETE nodes with LIVE within INIT. `sv` : they are read for a supervisor (09 R246). -/
def launchRecordsAs (s : State) (ctx : W16) (sv : Bool) (va : Nat) (root : Bool) : Except LaunchBad (List W64 × List (List W64)) :=
  match s.vaWordsAs ctx sv va 8 with
  | .error h => .error (.unread h)
  | .ok ws =>
    if va % 64 ≠ 0 || launchMalformed root ws then .error .malformed
    else match readNodes s ctx sv (wordAt ws 1) (bits (wordAt ws 0) 60 48) 0 with
    | .error h => .error (.unread h)
    | .ok ns =>
      let bad := (List.range ns.length).any fun i =>
        let r := ns.getD i []
        let w1 := wordAt r 1
        nodeMalformed i r || !(nodeStatus (wordAt r 0) = 0 || nodeStatus (wordAt r 0) = 3) || decide (bits w1 47 32 > bits w1 63 48)
      if bad then .error .malformed else .ok (ws, ns)

def launchRecords (s : State) (ctx : W16) (va : Nat) (root : Bool) : Except LaunchBad (List W64 × List (List W64)) :=
  launchRecordsAs s ctx false va root

/-- The digest of a nest node's overlay image: 32 zero bytes where the descriptor or the image cannot be had. A page that is the host's
or a slice asleep is waited for. -/
def overlayDigest (s : State) (ctx : W16) (r : List W64) : Chk (List Byte) :=
  let image : Chk (List Byte) := do
    let ds ← s.vaWords ctx (wordAt r 12) 8
    if nestMalformed true ds || wordAt r 12 % 64 ≠ 0 then .ok zeroRoot
    else
      let bs ← s.vaRead ctx .ovl (wordAt ds 1) (nestOvlLen ds)
      .ok (blake3 bs)
  match image with
  | .error h => if h.delays then .error h else .ok zeroRoot
  | r => r

def overlayDigests (s : State) (ctx : W16) : List (List W64) → Chk (List Byte)
  | [] => .ok []
  | r :: rs => do
    let d ← overlayDigest s ctx r
    let ds ← overlayDigests s ctx rs
    .ok (d ++ ds)

def routerVersions (s : State) : List Byte :=
  (List.range Config.bays).flatMap fun i => bytesOf 2 (bits (Map.get {} s.routers i).ctl.toNat 63 48)

/-- The manifest record of a root launch. -/
def manifestRecord (s : State) (ctx : W16) (ws : List W64) (ns : List (List W64)) : Chk (List Byte) := do
  let images ← overlayDigests s ctx (ns.filter fun r => decide (nodeKind (wordAt r 0) = 0))
  let det := bit (wordAt ws 0) 61
  let lcores := BitVec.ofNat 16 (wordAt ws 6)
  .ok (bytesOf 8 (detMode lcores det det) ++ bytesOf 8 (wordAt ws 5)
    ++ bytesOf 8 (lcores.toNat + ns.length * 2 ^ 32) ++ bytesOf 8 0
    ++ blake3 images ++ blake3 (routerVersions s) ++ List.replicate 32 0)

/-- The nodes a launch fires, in ascending id. -/
def fireReady (g : Nat) (ns : List (List W64)) (s : State) : State :=
  (List.range ns.length).foldl (fun s i =>
    let r := ns.getD i []
    if nodeStatus (wordAt r 0) = 0 && bits (wordAt r 1) 47 32 = 0 then s.fire g i else s) s

/-- The node root of a node that a resume keeps COMPLETE: what stands at its DIGEST (15 R401, R402). -/
def keptRoot (s : State) (ctx : W16) (ws : List W64) : Chk (List Byte) :=
  if nodeStatus (wordAt ws 0) = 3 && nodeAudit (wordAt ws 0) then
    (match s.vaRead ctx (.load 8) (wordAt ws 9) 32 with
      | .error h => if h.delays then .error h else .ok []
      | r => r)
  else .ok []

/-- The nodes of a launch as its records give them, from number i on. -/
def launchNodes (s : State) (ctx : W16) : Nat → List (List W64) → Chk (Map NodeSt)
  | _, [] => .ok []
  | i, ws :: rest => do
    let root ← keptRoot s ctx ws
    let more ← launchNodes s ctx (i + 1) rest
    .ok ((i, { status := nodeStatus (wordAt ws 0), words := ws, root := root }) :: more)

/-- A graph put in hand: RUNNING, its manifest if it is a root launch, its first nodes fired. -/
def State.startGraph (s : State) (g : Nat) (x : Graph) (ns : List (List W64)) : State :=
  let isRoot := x.parent.isNone && x.spawner.isNone
  let found : Chk (Map NodeSt × List Byte) := do
    let nodes ← launchNodes s x.ctx 0 ns
    let rec0 ← if isRoot then manifestRecord s x.ctx x.words ns else .ok []
    .ok (nodes, rec0)
  match found with
  | .error h => s.met h
  | .ok (nodes, rec0) =>
    let s1 := if isRoot then s.vaWrite x.ctx (.store 8) (x.curtVa + 64 * (x.nnodes + 1)) rec0 else s
    let manifest := if isRoot then BitVec.ofNat 64 (ofBytes ((blake3 rec0).take 8)) else x.manifest
    let s2 := (s1.putGraph g { x with nodes := nodes, manifest := manifest }).putGstat g 1
    (fireReady g ns s2).settle g

/-- A root launch's graph at a die's callboard, under its context's root scope. -/
def rootGraph (die : Nat) (ctx : W16) (va : W64) (ws : List W64) (scope : W16) (g : Nat) : Graph :=
  { ctx := ctx, va := va, die := die, root := g, scope := scope, level := 0, anchor := bits (wordAt ws 0) 10 0,
    nnodes := bits (wordAt ws 0) 60 48, det := bit (wordAt ws 0) 61, lcores := BitVec.ofNat 16 (wordAt ws 6),
    word7 := ws.getD 7 0, words := ws }

/-- The graphs of an earlier launch of the same record leave the table once settled. -/
def State.dropSettled (s : State) (ctx : W16) (va : W64) : State :=
  { s with graphs := s.graphs.filter fun g => !(g.2.ctx = ctx && g.2.va = va && g.2.settled.isSome) }

/-- What becomes of a launch command. -/
inductive Launched where
  | held (h : Halt)            -- it waits for a page or a slice
  | full                       -- no scope index is free
  | refused (status : Nat)     -- 1 a record cannot be read, or a resume fails; 2 malformed
  | started (g : Nat) (s : State)

/-- A resume of a graph that runs or is parked (R358), which fails before its node records are looked at. DEDUCED (log 20). -/
def resumeBusy (s : State) (ctx : W16) (va : Nat) : Bool :=
  match s.vaWords ctx va 8 with
  | .error _ => false
  | .ok ws => decide (va % 64 = 0) && !launchMalformed true ws && (bits (wordAt ws 0) 47 44 = 1 || bits (wordAt ws 0) 47 44 = 5)

/-- The scope of a settled graph that a resume takes up again (19 R454). -/
def settledScope (s : State) (die : Nat) (ctx : W16) (va : W64) : Option W16 :=
  (List.find? (fun (g : Nat × Graph) => decide (g.2.ctx = ctx) && decide (g.2.va = va) && g.2.settled.isSome
    && decide (scopeDie g.2.scope = die) && !s.liveScope g.2.scope) s.graphs).map fun (g : Nat × Graph) => g.2.scope

/-- The scope of a root launch: a new one, or the graph's own again. DEDUCED (log 99). -/
def State.launchScope (s : State) (die : Nat) (ctx : W16) (va : W64) (resume : Bool) : Option (W16 × State) :=
  match if resume then settledScope s die ctx va else none with
  | some id => some (id, s.reap.putScope id { ctx := ctx, parent := some (rootScope s ctx), curtain := none })
  | none => (s.dropSettled ctx va).newScope die ctx (rootScope s ctx) none

/-- Launch or resume of a root graph (R348, R355, R358). Slot 0 is never given to a task (01 R13). DESIGN CHOICE (log 83). -/
def State.launchRoot (s : State) (die : Nat) (ctx : W16) (va : W64) (resume : Bool) (hostSeq : Option (W32 × BitVec 12)) : Launched :=
  if ctx.toNat % 4096 = 0 then .refused 2
  else if resume && resumeBusy s ctx va.toNat then .refused 1
  else match launchRecords s ctx va.toNat true with
  | .error .malformed => .refused 2
  | .error (.unread h) => if h.delays then .held h else .refused 1
  | .ok (ws, ns) =>
      match (s.ensureRoot ctx).launchScope die ctx va resume with
      | none => .full
      | some (id, s0) =>
        let s1 := s0.dropSettled ctx va
        let curt := BitVec.ofNat 64 (wordAt ws 4 + 64 * bits (wordAt ws 0) 60 48)
        let s2 := match s1.scope? id with
          | some sc => s1.putScope id { sc with curtain := some curt }
          | none => s1
        let g := nextKey s2.graphs
        .started g (s2.startGraph g { rootGraph die ctx va ws id g with hostSeq := hostSeq } ns)

/-! ## Nests (R342, R359) -/

/-- A spawned nest's or a node's raised priority. -/
def nestPrio (s : State) (n : Nest) : Nat :=
  match n.owner with
  | some (g, i) => max n.prio (s.node g i).raised
  | none => n.prio

def Nest.total (n : Nest) : Nat := nestTotal n.desc

def Nest.left (n : Nest) : Bool := !n.stopped && (decide (n.requeued ≠ []) || decide (n.queued ≠ []) || decide (n.next < n.total))

def Nest.capFree (n : Nest) : Bool := nestCap n.desc = 0 || decide (n.out < nestCap n.desc)

/-- The task of the next iteration. -/
def nestTask (s : State) (n : Nest) (key : Nat) : Task :=
  let g := (s.graph? n.graph).getD (rootGraph 0 n.ctx 0 [] n.scope n.graph)
  let t := n.next
  { ctx := n.ctx, tid := BitVec.ofNat 32 t, scope := n.scope, graph := n.graph, node := n.node, nest := some key, owner := n.owner,
    level := n.level, ovl := n.desc.getD 1 0, ovlLen := nestOvlLen n.desc,
    bank := if nestHasBank n.desc then some (n.desc.getD 4 0) else none, entry := nestEntry n.desc, arg := n.desc.getD 2 0,
    index := nestIndices n.desc t, det := g.det, tt := g.det,
    audit := (match n.node with
      | some i => nodeAudit ((s.node n.graph i).w 0)
      | none => false),
    lcores := g.lcores, manifest := g.manifest,
    walk := (match n.node with
      | some i => nodeUsed ((s.node n.graph i).w 0)
      | none => 0),
    nodeId := (match n.node, n.owner with
      | some i, _ => i
      | none, some (_, i) => i
      | none, none => 0),
    prio := n.prio }

/-- A nest ended: all its tasks retired. A node's nest completes its node. -/
def Nest.finished (n : Nest) : Bool := decide (n.next ≥ n.total) && decide (n.queued = []) && decide (n.out = 0) && decide (n.requeued = []) && !n.stopped

def State.putNest (s : State) (k : Nat) (n : Nest) : State := { s with nests := Map.set s.nests k n }

/-- One task of a nest is over: retired, or ended by a kill. -/
def State.nestTaskOver (s : State) (k : Nat) : State :=
  match Map.find? s.nests k with
  | none => s
  | some n =>
    let n1 := { n with out := n.out - 1, retired := n.retired + 1 }
    let s1 := s.putNest k n1
    if n1.finished then
      let s2 := { s1 with nests := Map.erase s1.nests k }
      match n.node with
      | some i =>
        if (s2.node n.graph i).status = 2 then (s2.completeNode n.graph i).settle n.graph else s2
      | none => s2
    else if n1.stopped && n1.out = 0 then { s1 with nests := Map.erase s1.nests k } else s1

/-! ## Dispatch (R359, R360) -/

/-- What the callboard may hand out. -/
inductive Work where
  | nest (key : Nat)
  | node (g i : Nat)
  deriving DecidableEq, Repr

/-- RELEASE passed, slot held, and the graph neither parked nor being parked, nor the node killed. A halted graph fires nothing more, and what
it has fired runs on (R350). -/
def nodeOpen (s : State) (g i : Nat) : Bool :=
  match s.graph? g with
  | none => false
  | some x =>
    let n := s.node g i
    n.slot && (decide (n.w 3 = 0) || n.released) && !x.parking && !x.parked
      && (match n.scope with
        | some sc => !s.dying sc
        | none => false)

def nestOpen (s : State) (n : Nest) : Bool :=
  n.left && !s.dying n.scope && (match n.node with
    | some i => nodeOpen s n.graph i
    | none => (match s.graph? n.graph with
      | some x => !x.parking && !x.parked
      | none => true))

/-- Cores in round-robin order after a core. -/
def coresAfter (last : Option Nat) : List Nat :=
  let k := match last with
    | some n => n + 1
    | none => 0
  (List.range Config.cores).map fun i => (k + i) % Config.cores

/-- The logic of a core's bay is ON, and stays so. -/
def bayLogicOn (s : State) (n : Nat) : Bool := (s.bay (bayOfCore n)).logicOn && (s.bay (bayOfCore n)).logicTarget.isNone

/-- A free core of the domain for a task: its prefetch buffer has a place; a saved ring keeps it to one bay (14 R384). -/
def freeCore (s : State) (domain anchor : Nat) (last : Option Nat) (ringBay : Option Nat) : Option Nat :=
  (coresAfter last).find? fun n => inDomain domain anchor n && decide ((s.core n).sys.prefetch.length < 2) && bayLogicOn s n
    && (match ringBay with
      | some b => decide (bayOfCore n = b)
      | none => true)

/-! ### Task entries (R359) -/

/-- The die whose callboard holds a nest's tasks. -/
def nestDie (s : State) (n : Nest) : Nat :=
  match n.node with
  | some _ => ((s.graph? n.graph).map Graph.die).getD (n.anchor / 288)
  | none => n.anchor / 288

/-- The tasks in a callboard's entries, nest by nest: 16 banks of 512 hold 8,192. -/
def taskEntries (s : State) (die : Nat) : List Task := s.nests.flatMap fun e => if nestDie s e.2 = die then e.2.queued else []

/-- The walker produces the next task of a nest into a free entry. DESIGN CHOICE (log 84). -/
def State.walkNest (s : State) (die key : Nat) : State :=
  match Map.find? s.nests key with
  | none => s
  | some n =>
    if nestDie s n = die && nestOpen s n && decide (n.next < n.total) && decide ((taskEntries s die).length < 16 * 512) then
      s.putNest key { n with next := n.next + 1, queued := n.queued ++ [nestTask s n key] }
    else s

def State.walkNests (s : State) (die : Nat) : State := s.nests.foldl (fun s e => s.walkNest die e.1) s

/-- The task of a nest to hand out: one that came back first, then the walker's. -/
def Nest.nextTask (n : Nest) : Option Task := (n.requeued ++ n.queued).head?

/-- That task has left its entry. -/
def Nest.dropTask (n : Nest) : Nest :=
  match n.requeued with
  | _ :: ts => { n with requeued := ts }
  | [] => { n with queued := n.queued.tail }

/-- A tree block for an audited task, from the pool of the core's die (15 R405). -/
def State.takeBlock (s : State) (n : Nat) (t : Task) : Option (Task × State) :=
  if !t.audit || t.block.isSome then some (t, s)
  else
    let d := s.die (dieOfCore n)
    match lowestFree d.erxUsed (poolCount d.erxPool) with
    | none => none
    | some i => some ({ t with block := some { die := dieOfCore n, block := i } },
        s.putDie (dieOfCore n) { d with erxUsed := setIns d.erxUsed i })

/-- The member of the pod that takes a task of a pod domain: task id modulo P (R345). DESIGN CHOICE (log 53). -/
def podMember (s : State) (n : Nest) (t : Task) : Bool :=
  n.domain ≠ 5 || !bit s.fab.podCfg.toNat 0
    || decide (t.tid.toNat % (bits s.fab.podCfg.toNat 37 32 + 1) =
        ((List.range 64).find? (fun m => (vget 0 s.fab.member m).toNat = pkgId s)).getD 0)

/-- The last core that the node used, by its own nest or one that its tasks spawned. DEDUCED (log 21). -/
def lastCoreOf (s : State) (n : Nest) : Option Nat :=
  match n.owner with
  | some (g, i) => (s.node g i).lastCore
  | none => n.lastCore

/-- Hand one task of a nest to a core, or say that no core is free. -/
def State.dispatchNest (s : State) (key : Nat) : Option State :=
  match Map.find? s.nests key with
  | none => none
  | some n =>
    if !nestOpen s n || !n.capFree then none
    else match n.nextTask with
    | none => none
    | some t =>
      if n.requeued = [] && !podMember s n t then some (s.putNest key { n.dropTask with out := n.out + 1 })
      else match freeCore s n.domain n.anchor (lastCoreOf s n) t.ringBay with
      | none => none
      | some core =>
        match s.takeBlock core t with
        | none => none
        | some (t1, s1) =>
          let n1 := { n.dropTask with out := n.out + 1, lastCore := some core }
          let c := s1.core core
          let s2 := (s1.putNest key n1).putCore core { c with sys := { c.sys with prefetch := c.sys.prefetch ++ [t1] } }
          match n.owner with
          | none => some s2
          | some (g, i) =>
            let st := s2.node g i
            let s3 := s2.putNode g i { st with lastTick := s2.sys.frame.toNat, waitFrom := none, lastCore := some core }
            some (if n.node.isSome && st.status = 1 then s3.putStatus g i 2 else s3)

/-- A subgraph node's launch. -/
def State.dispatchSub (s : State) (g i : Nat) : Option State :=
  match s.graph? g with
  | none => none
  | some x =>
    let n := s.node g i
    let hard := fun (t : Trap) => some (s.faultNode g i t 0 x.anchor true)
    match launchRecords s x.ctx (n.w 12) false with
    | .error .malformed => hard { cause := .illegalOp, info := BitVec.ofNat 64 (0x11 * 2 ^ 56) }
    | .error (.unread h) => if h.delays then some (s.met h) else some ((s.met h).faultNode g i h.toTrap 0 x.anchor false)
    | .ok (ws, ns) =>
      match n.scope with
      | none => none
      | some parent =>
        match s.newScope x.die x.ctx parent (some (BitVec.ofNat 64 (wordAt ws 4 + 64 * bits (wordAt ws 0) 60 48))) with
        | none => none
        | some (id, s1) =>
          let k := nextKey s1.graphs
          let sub : Graph := { x with va := BitVec.ofNat 64 (n.w 12), scope := id, nnodes := ns.length, words := ws, nodes := [],
                                      settled := none, halted := false, parking := false, parked := false, parent := some (g, i),
                                      spawner := none, hostSeq := none, cones := [], firstFault := none, quiet := none }
          let s2 := (s1.putNode g i { s1.node g i with sub := some k }).putStatus g i 2
          some (s2.startGraph k sub ns)

/-- A node that is not a nest (R349, R359). -/
def State.dispatchNode (s : State) (g i : Nat) : Option State :=
  match s.graph? g with
  | none => none
  | some x =>
    let n := s.node g i
    if !nodeOpen s g i && nodeKind (n.w 0) ≠ 4 then none
    else match nodeKind (n.w 0) with
    | 1 => s.dispatchSub g i
    | 2 =>
      let b := bayOfCore x.anchor
      let s1 := s.putStatus g i 2
      let k : NodeCmd := { graph := g, node := i, pb := BitVec.ofNat 64 (n.w 12), ctx := x.ctx, scope := n.scope.getD x.scope }
      some (s1.putBay b { s1.bay b with nodeCmds := (s1.bay b).nodeCmds ++ [k] })
    | 3 => some ((s.putStatus g i 2).postUp 2 0x081 [x.ctx.toNat, x.va.toNat, i, n.w 12])
    | _ => some ((s.completeNode g i).settle g)

/-- Ready work of a callboard, each with its graph and priority, in the order R360 serves a graph. -/
def readyWork (s : State) (die : Nat) : List (Nat × Nat × Work) :=
  let nodes := (s.die die).ready.filterMap fun (g, i) =>
    let n := s.node g i
    if nodeKind (n.w 0) = 0 then
      (List.find? (fun (e : Nat × Nest) => e.2.node = some i && e.2.graph = g && nestOpen s e.2 && e.2.capFree) s.nests).map
        fun (e : Nat × Nest) => (g, nestPrio s e.2, Work.nest e.1)
    else if n.status = 1 && (nodeOpen s g i || nodeKind (n.w 0) = 4) then some (g, n.raised, Work.node g i)
    else none
  nodes ++ s.nests.filterMap fun (e : Nat × Nest) =>
    if e.2.node.isNone && e.2.anchor / 288 = die && nestOpen s e.2 && e.2.capFree then some (e.2.graph, nestPrio s e.2, Work.nest e.1)
    else none

def State.dispatchWork (s : State) : Work → Option State
  | .nest k => s.dispatchNest k
  | .node g i => s.dispatchNode g i

/-- Graphs in round-robin order after the last one served at their level. -/
def graphBefore (rr a b : Nat) : Bool :=
  if a > rr && !(b > rr) then true else if b > rr && !(a > rr) then false else decide (a < b)

/-- The work to try first: the highest priority, then the next graph, then the order of readiness. -/
def pickWork (rr : Vector Nat 4) : List (Nat × Nat × Work) → Option (Nat × Nat × Work)
  | [] => none
  | w :: ws =>
    match pickWork rr ws with
    | none => some w
    | some v => if v.2.1 > w.2.1 || (v.2.1 = w.2.1 && graphBefore (vget 0 rr w.2.1) v.1 w.1) then some v else some w

/-- Work that finds no free core waits from now on (R367). DEDUCED (log 52). -/
def State.markWait (s : State) : Work → State
  | .nest k =>
    match Map.find? s.nests k with
    | some n =>
      (match n.owner with
        | some (g, i) => s.putNode g i { s.node g i with waitFrom := some ((s.node g i).waitFrom.getD s.sys.pkgCycle.toNat) }
        | none => s)
    | none => s
  | .node _ _ => s

def dispatchTry (die : Nat) : Nat → List (Nat × Nat × Work) → State → State
  | 0, _, s => s
  | f + 1, ws, s =>
    match pickWork (s.die die).rrGraph ws with
    | none => s
    | some w =>
      match s.dispatchWork w.2.2 with
      | some s1 => s1.putDie die { s1.die die with rrGraph := (s1.die die).rrGraph.setIfInBounds w.2.1 w.1 }
      | none => dispatchTry die f (ws.filter (fun v => v ≠ w)) (s.markWait w.2.2)

/-- The walker's step, then one piece of work handed out. -/
def State.dispatch (s : State) (die : Nat) : State :=
  let s1 := s.walkNests die
  let ws := readyWork s1 die
  dispatchTry die ws.length ws s1

/-! ## The end of a killed subtree (R365, R366) -/

/-- Step 1 of a kill: queued tasks and prefetch buffers purged, unfinished walks pruned, unfired nodes cancelled, cuts discarded. -/
def State.freeTask (s : State) (t : Task) : State :=
  let s1 := match t.area with
    | some (d, a) => s.putDie d { s.die d with cutUsed := (s.die d).cutUsed.filter (fun x => x ≠ a) }
    | none => s
  match t.block with
  | some b => s1.putDie b.die { s1.die b.die with erxUsed := (s1.die b.die).erxUsed.filter (fun x => x ≠ b.block) }
  | none => s1

def State.purgeTask (s : State) (t : Task) : State :=
  (s.countKill t.scope fun sc =>
    if t.area.isSome then { sc with killed := sc.killed + 1 } else { sc with purged := sc.purged + 1 }).freeTask t

def purgeCores : List (Nat × Core) → State → State
  | [], s => s
  | (n, c) :: rest, s =>
    let dead := c.sys.prefetch.filter (fun t => s.dying t.scope)
    let s1 := dead.foldl (fun s t =>
      let s' := s.purgeTask t
      match t.nest with
      | some k =>
        (match Map.find? s'.nests k with
          | some x => s'.putNest k { x with out := x.out - 1 }
          | none => s')
      | none => s') s
    let c1 := s1.core n
    purgeCores rest (if dead = [] then s1
      else s1.putCore n { c1 with sys := { c1.sys with prefetch := c1.sys.prefetch.filter (fun t => !s.dying t.scope) } })

def purgeNests : List (Nat × Nest) → State → State
  | [], s => s
  | (k, n) :: rest, s =>
    if !s.dying n.scope then purgeNests rest s
    else
      let s1 := (n.requeued ++ n.queued).foldl (fun s t => s.purgeTask t) s
      let s2 := if !n.stopped && n.next < n.total then s1.countKill n.scope (fun sc => { sc with pruned := sc.pruned + 1 }) else s1
      let n0 : Nest := (Map.find? s2.nests k).getD n
      let n1 : Nest := { n0 with stopped := true, requeued := [], queued := [] }
      purgeNests rest (if n1.out = 0 then { s2 with nests := Map.erase s2.nests k } else s2.putNest k n1)

def purgeGraphs : List (Nat × Graph) → State → State
  | [], s => s
  | (g, x) :: rest, s =>
    if !s.dying x.scope || x.settled.isSome then purgeGraphs rest s
    else
      let unfired := x.nodes.filter fun n => n.2.status = 0 || (n.2.status = 6 && firingWaits s g n.1)
      let s1 := unfired.foldl (fun s n => (s.terminal g n.1 5).countKill x.scope (fun sc => { sc with cancelled := sc.cancelled + 1 })) s
      let s2 := match s1.graph? g with
        | some y => s1.putDie y.die { s1.die y.die with creations := (s1.die y.die).creations.filter (fun c => c.1 ≠ g) }
        | none => s1
      purgeGraphs rest s2

def purgeCmds : List (Nat × Bay) → State → State
  | [], s => s
  | (b, x) :: rest, s =>
    let dead := x.nodeCmds.filter fun e => s.dying e.scope
    let s1 := dead.foldl (fun s e => s.countKill e.scope (fun sc => { sc with dropped := sc.dropped + 1 })) s
    purgeCmds rest (if dead = [] then s1
      else s1.putBay b { s1.bay b with nodeCmds := (s1.bay b).nodeCmds.filter fun e => !s.dying e.scope })

def State.purge (s : State) : State :=
  purgeCmds s.bays (purgeGraphs s.graphs (purgeNests s.nests (purgeCores s.cores s)))

/-- The 64 bytes of a curtain record. -/
def curtainWords (s : State) (id : W16) (sc : Scope) (cone : Bool) (cause : Cause) (cancelled : Nat) : List Nat :=
  [id.toNat * 2 ^ 48 + cause.code * 2 ^ 40 + boolNat sc.swept * 2 ^ 33 + boolNat cone * 2 ^ 32,
   sc.purged * 2 ^ 32 + sc.killed, cancelled * 2 ^ 32 + sc.pruned, s.sys.frame.toNat, sc.drops * 2 ^ 32 + sc.dropped, 0, 0, 0]

/-- What the curtain of a node's scope lets its node do. -/
def State.afterCurtain (s : State) (g i : Nat) : State :=
  match s.graph? g with
  | none => s
  | some x =>
    let n := s.node g i
    if n.cancelAfter then (s.terminal g i 5).putNode g i { (s.terminal g i 5).node g i with cancelAfter := false }
    else if n.ignoreAfter then (s.putNode g i { n with ignoreAfter := false }).decrementAll g i
    else if graphKilled s x && (n.status = 1 || n.status = 2 || n.status = 6) then
      (s.terminal g i 5).countKill x.scope (fun sc => { sc with cancelled := sc.cancelled + 1 })
    else if n.status = 6 then
      let s1 := s.leaveSlot g i
      let s2 := s1.vaModify x.ctx (x.nodeVa i) (fun w => setBits w 32 29 (bits w 32 29 + 1))
      s2.fire g i
    else if n.status = 1 || n.status = 2 then s.faultNode g i { cause := .killed, info := 0 } 0 x.anchor true
    else s

/-- A cone whose members' scopes have gone: its record in the faulted node's curtain slot, then its KIND 3 entry (R356). -/
def State.closeCones (s : State) (g : Nat) : State :=
  match s.graph? g with
  | none => s
  | some x =>
    let ready := x.cones.filter fun c => (c.node :: c.members).all fun i =>
      match (s.node g i).scope with
      | some sc => !killingScope s sc
      | none => true
    ready.foldl (fun s c =>
      let i := c.node
      let t := c.trap
      let sc := (((s.node g i).scope).bind fun id => (s.scope? id).map fun v => (id, v)).getD (0, { ctx := x.ctx, parent := none })
      let cancelled := (c.taken.filter fun k => (s.node g k).status = 5).length
      let s1 := s.vaWrite x.ctx (.store 8) (nodeCurtain x i).toNat (bytesOf 64 (joinNat 64 (curtainWords s sc.1 sc.2 true t.cause cancelled)))
      let s2 := s1.faultEntry g i 3 t.cause 0 x.anchor t.info t.lseq
      match s2.graph? g with
      | some y => s2.putGraph g { y with cones := y.cones.filter (fun d => d.node ≠ i) }
      | none => s2) s

/-- The curtain of a scope: written once everything below has gone and every descendant's own curtain is written. -/
def State.writeCurtain (s0 : State) (id : W16) : State :=
  let s := s0.tellUntold.purge
  match s.scope? id with
  | none => s
  | some sc =>
    let inner := s.scopes.any fun e => e.1 ≠ id.toNat && e.2.killing && !e.2.written && s.under (BitVec.ofNat 16 e.1) id
    if !sc.killing || sc.written || inner || s.holds id then s
    else
      let below := s.graphs.flatMap fun g => g.2.nodes.filterMap fun n =>
        match n.2.scope with
        | some x => if s.under x id && (n.2.status = 1 || n.2.status = 2 || n.2.status = 6) && x ≠ id then some (g.1, n.1) else none
        | none => none
      let s1 := below.foldl (fun s p => s.afterCurtain p.1 p.2) s
      let sc1 := (s1.scope? id).getD sc
      let ws := curtainWords s1 id sc1 false sc1.cause sc1.cancelled
      let s2 := match sc1.curtain with
        | some va => s1.vaWrite sc1.ctx (.store 8) va.toNat (bytesOf 64 (joinNat 64 ws))
        | none => if sc1.parent.isNone then s1.postUp 2 0x080 (sc1.ctx.toNat :: ws.take 5) else s1
      let s3 := s2.putScope id { sc1 with written := true }
      let s4 := (nodesOf s3 id).foldl (fun s p => s.afterCurtain p.1 p.2) s3
      let s5 := s4.graphs.foldl (fun s g => s.closeCones g.1) s4
      s5.graphs.foldl (fun s g => s.settle g.1) s5

end Sys2Proof.Machine
end

