-- ==== Sys2Proof/Machine/Ops.lean ====
section
/-! DEFINITION. Taking an exception, once for every lane and every agent: raising a cause on a cluster, the core's stop, the cut,
the entry of the handler or the end of a trap that cannot be recorded, and beside it the restore (14 R374 to R386). -/

namespace Sys2Proof.Machine
open Sys2Proof

/-! ## Raising a trap -/

/-- A cause raised on a cluster at a lane boundary: the cluster issues nothing further, and the core's stop begins (R374). -/
def State.raise (s : State) (n : Nat) (cl : Cl) (t : Trap) : State :=
  let c := s.core n
  let x := c.cluster cl
  match x.stopped with
  | some _ => s
  | none =>
    let c1 := c.putCluster cl { x with stopped := some t, stall := none }
    match c1.sys.stop with
    | some st => s.putCore n { c1 with sys := { c1.sys with stop := some { st with first := some (st.first.getD cl) } } }
    | none => s.putCore n { c1 with sys := { c1.sys with stop := some { why := .trap, phase := .requested, first := some cl } } }

/-- A check's cause, raised on the cluster whose lane fails it: LSEQ is that lane's issue sequence number. -/
def State.raiseLane (s : State) (n : Nat) (cl : Cl) (c : Cause) (info : W64) : State :=
  s.raise n cl { cause := c, info := info, lseq := (s.cluster n cl).iseq }

/-- A stop with no stopping cluster, held while another stop or the handler runs (R391). -/
def State.requestStop (s : State) (n : Nat) (why : StopWhy) : State :=
  let c := s.core n
  if c.sys.sv || c.sys.stop.isSome then s.putCore n { c with sys := { c.sys with nextStop := some (c.sys.nextStop.getD why) } }
  else s.putCore n { c with sys := { c.sys with stop := some { why := why, phase := .requested } } }

/-! ## The end of a trap that cannot be recorded (R380) -/

def State.freeArea (s : State) (area : Option (Nat × Nat)) : State :=
  match area with
  | none => s
  | some (d, i) => s.putDie d { s.die d with cutUsed := (s.die d).cutUsed.filter (fun k => k ≠ i) }

/-- The task is killed by a kill of its own scope, and its node faults with the cause of the first trap. The curtain of a scope that is not
the node's own gives KILLED, and its kill comes before the one of the node's that sweeps it (13 R366). -/
def State.endTask (s : State) (n : Nat) (t : Trap) : State :=
  match (s.core n).sys.task with
  | none => s
  | some k =>
    match k.owner with
    | none => s.kill k.scope .killed
    | some (g, i) =>
      let s1 := if (s.node g i).scope = some k.scope then s else s.kill k.scope .killed
      (s1.faultNode g i t k.tid.toNat n false).kill k.scope .killed

def State.unrecorded (s : State) (n : Nat) (t : Trap) : State :=
  let c := s.core n
  let first := c.sys.handled.getD t
  match c.sys.stop, c.sys.task with
  | some st, some k =>
    if st.area.isSome then
      ((s.putCore n { c with sys := { c.sys with task := some { k with area := none } } }).freeArea st.area).endTask n first
    else s.endTask n first
  | _, _ => s.endTask n first

/-! ## Frames and the constant bank (08 R200, R202; 10 R283) -/

/-- Offsets of the pool lines of an image (R200). -/
def poolLines (bs : List Byte) (len : Nat) : Nat → Nat → List Nat
  | 0, _ => []
  | f + 1, off =>
    if off ≥ len then []
    else
      let h := ofBytes ((bs.drop off).take 4)
      if bits h 1 0 = 2 then
        let count := bits h 11 4
        if count ≠ 0 && bits h 3 2 = 0 && bits h 31 12 = 0 then
          ((List.range (2 * count + 1)).map fun i => off + 32 * i).filter (fun o => decide (o < len))
            ++ poolLines bs len f (off + 32 * (2 * count + 1))
        else off :: poolLines bs len f (off + 32)
      else poolLines bs len f (off + 32)

/-- The lanes of an image: words that are not zero, by index. -/
def imageLanes (bs : List Byte) : Map W32 :=
  ((List.range (ceilDiv bs.length 4)).map fun i => (i, BitVec.ofNat 32 (ofBytes ((bs.drop (4 * i)).take 4)))).filter fun p => p.2 ≠ 0

/-- A frame wholly filled: the bytes, then zeros (R202). -/
def Frame.fill (f : Frame) (ctx : W16) (bs : List Byte) : Frame :=
  { f with lanes := imageLanes bs, pool := poolLines bs bs.length (ceilDiv bs.length 32) 0, tag := ctx, empty := false,
           loading := f.loading - 1 }

/-- A failed load leaves the frame empty. -/
def Frame.fail (f : Frame) : Frame := { f with lanes := [], pool := [], tag := 0, empty := true, loading := f.loading - 1 }

/-- IMG, FILLS and LEN as a load's acceptance sets them (09 R241); the frame is loading from now on. -/
def Frame.accept (f : Frame) (img : W64) (len : Nat) : Frame :=
  { f with img := img, fills := f.fills + 1, len := len, loading := f.loading + 1 }

def Core.fillBank (c : Core) (ctx : W16) (bs : List Byte) : Core :=
  { c with mem := { c.mem with bank := imageLanes bs, bankTag := ctx, bankPoison := [] } }

/-- A load of the bank counts for every cut that waits (14 R381). -/
def Core.countBankLoad (c : Core) : Core := { c with sys := { c.sys with bankLoads := c.sys.bankLoads + 1 } }

/-! ## The cut written (R374 to R378) -/

def isWaitLane (w : W32) : Bool :=
  let op := w.toNat / 2 ^ 25
  op = 0x3A || op = 0x3D || (op = 0x4C && w.toNat % 2 = 1)

def Cluster.loops (x : Cluster) : W64 × W64 :=
  match x.iq with
  | e :: _ => e.loops
  | [] => (x.loop0, x.loop1)

/-- The PC of a cluster: its next lane to issue, or the lane after the `trap` that stopped it (R374; 09 R252). -/
def Cluster.pc (x : Cluster) (fpc : LaneAddr) : Nat :=
  match x.stopped.bind Trap.next, x.iq with
  | some a, _ => a.toNat
  | none, e :: _ => e.addr.toNat
  | none, [] => fpc.toNat

def trapCode (t : Option Trap) : Nat :=
  match t with
  | some t => t.cause.code
  | none => 0

def trapInfo (t : Option Trap) : Nat :=
  match t with
  | some t => t.info.toNat
  | none => 0

def trapJob (t : Option Trap) : Nat :=
  match t with
  | some t => t.job.toNat
  | none => 0

def cutHeadOf (c : Core) (cl : Cl) : CutHead :=
  let x := c.cluster cl
  let own := c.sys.apart || cl = .K
  let fpc := if own then x.fpc else c.k.fpc
  let t := x.stopped
  { cause := trapCode t, skipw := x.skipw,
    abandoned := cl = .K && t.isNone && x.stall.isNone && (match x.iq with
      | e :: _ => e.mark.isNone && !e.sync && !e.later && isWaitLane e.word
      | [] => false),
    iseq := x.iseq.toNat, fpc := if own then fpc.toNat else 0, pc := x.pc fpc, info := trapInfo t,
    lseq := (match t with
      | some t => t.lseq.toNat
      | none => 0),
    next0 := x.loops.1.toNat, next1 := x.loops.2.toNat, fetch0 := x.loop0.toNat, fetch1 := x.loop1.toNat,
    heldCause := trapCode x.held, heldInfo := trapInfo x.held, job := trapJob t, heldJob := trapJob x.held,
    image := x.iq.filter fun e => e.mark.isNone }

/-- DEDUCED (log 49). -/
def savedOf (cs : List Command) : List SavedCmd :=
  cs.map fun k => { skipw := k.skipw, gen := k.gen.toNat, index := k.index.toNat, card := k.card.map BitVec.toNat }

def leaseCode : Lease → Nat
  | .none => 0
  | .pending => 1
  | .held => 2
  | .lost => 3

def cutOf (c : Core) (hard : Bool) : Cut :=
  { k := cutHeadOf c .K, l := cutHeadOf c .L, s := cutHeadOf c .S, c := cutHeadOf c .C, regs := c.regs, ctx := c.ctx.toNat,
    apart := c.sys.apart, gen := c.csr.gen.toNat, img0 := c.frame0.img.toNat, img1 := c.frame1.img.toNat,
    fills0 := c.frame0.fills.toNat, fills1 := c.frame1.fills.toNat, len0 := c.frame0.len, len1 := c.frame1.len,
    bankSrc := c.mem.bankSrc.toNat, weirs := c.mem.weirs.zipIdx.map fun w => (w.2, w.1.1.toNat, w.1.2.toNat),
    weirStale := c.csr.weirStale.toNat, queues := c.queues, cues := (List.range 4).map c.visTokens,
    cmdsL := savedOf c.mem.streamL, cmdsS := savedOf c.mem.streamS,
    parts := c.mem.parts.zipIdx.map fun p => (p.2, p.1.group.toNat, p.1.issuer.toNat, p.1.s), slots := hard,
    lease := leaseCode c.lease }

def areaBase (d : Die) (i : Nat) : Nat := bits d.cutPool.toNat 51 19 * 0x80000 + i * 0x80000
def areaKey (d : Die) : Nat := bits d.cutPool.toNat 63 54

/-- The rows of a slot as a context sees them. -/
def Core.accRow (c : Core) (ctx : W16) (slot row : Nat) : AccRow :=
  let r := Map.get {} c.acc (slot * 128 + row)
  if r.tag = ctx then r else {}

def slotBytes (c : Core) (ctx : W16) (slot : Nat) : List Byte :=
  (List.range 128).flatMap fun r => bytesOf 512 (c.accRow ctx slot r).data.toNat

/-- The first row of a context that is poisoned. -/
def slotPoison (c : Core) (ctx : W16) : Option Nat := (List.range 768).find? fun k => (c.accRow ctx (k / 128) (k % 128)).poison

/-- The area's bytes. -/
def writeArea (m : Memory) (key base : Nat) (c : Core) (hard : Bool) : Memory :=
  let x := cutOf c hard
  let low := atBytes [(0, x.kSection), (0x1000, x.lSection), (0x5000, x.sSection), (0x6000, x.cSection)]
  let m1 := (m.rawWrite key base (bytesOf 0x10000 low)).rawWrite key (base + 0x70000) (bytesOf 0x10000 0)
  if hard then (List.range 6).foldl (fun m k => m.rawWrite key (base + 0x10000 + 65536 * k) (slotBytes c c.ctx k)) m1 else m1

def sectionPas (base : Nat) : List Nat := [base, base + 0x1000, base + 0x6000, base + 0x5000]

/-- CUT_K, CUT_L, CUT_C and CUT_S name the sections. -/
def cutCsrs (base : Nat) : Vector W64 4 :=
  (Vector.replicate 4 (0 : W64)).mapIdx fun i _ => BitVec.ofNat 64 (2 ^ 63 + (sectionPas base).getD i 0)

/-! ## Entering the handler (R379) -/

/-- What TRAPCAUSE and TRAPINFO report of a stop (R373). -/
def stopCause (c : Core) (st : Stop) (hard : Bool) : Nat × Nat :=
  let own : Option Trap := (c.cluster (st.first.getD .K)).stopped
  let (code, info) := match st.why with
    | .run => (Cause.break.code, 1 * 2 ^ 62)
    | .debug _ => (Cause.break.code, 2 * 2 ^ 62)
    | _ => (trapCode own, trapInfo own)
  let first := match st.why, st.first with
    | .trap, some cl => clNumber cl
    | _, _ => 0
  let stopped := allCl.foldl (fun a cl => if ((c.cluster cl).stopped).isSome then a + 2 ^ clNumber cl else a) 0
  (boolNat hard * 2 ^ 15 + first * 2 ^ 12 + stopped * 2 ^ 8 + code, info)

/-- A cluster as the handler finds it: no lane, no loop, no transfer; its counts stand. -/
def Cluster.fresh (x : Cluster) (fpc : LaneAddr) : Cluster :=
  { iseq := x.iseq, flightNo := x.flightNo, fpc := fpc, held := x.held }

/-- Step 1 of the entry: registers, queues, branch-outcome queues, cue FIFOs, QCFG and LOOP cleared. -/
def Core.clear (c : Core) (fpc : LaneAddr) : Core :=
  { c with regs := {}, queues := Vector.replicate 16 {}, cues := Vector.replicate 4 [], k := c.k.fresh fpc, l := c.l.fresh 0,
           c := c.c.fresh 0, s := c.s.fresh 0, mem := { c.mem with refReqs := [] } }

def tvecLen (c : Core) : Nat := bits c.csr.tvec.toNat 63 56
def tvecBase (c : Core) : W64 := BitVec.ofNat 64 (bits c.csr.tvec.toNat 55 0)

/-- The handler frame: the one that does not hold K's PC in the cut. -/
def handlerFrame (c : Core) : Nat := 1 - frameOf (c.k.pc c.k.fpc)

/-- What a stop keeps of a core beside the area (R382). -/
def Core.keep (c : Core) : Kept :=
  let lanes (cl : Cl) : List Entry := (c.cluster cl).iq.filter fun e => e.mark.isNone
  { joined := allCl.filter fun cl => (c.cluster cl).joined
    routes := allCl.map fun cl => (lanes cl).map Entry.line
    loops := allCl.map fun cl => (lanes cl).map Entry.loops
    waiting := allCl.map fun cl => (c.cluster cl).flights
    flightNos := allCl.map fun cl => (c.cluster cl).flightNo
    jumped := allCl.map fun cl => (c.cluster cl).jumped
    transfers := allCl.map fun cl => (c.cluster cl).xfers
    gotos := allCl.map fun cl => (c.cluster cl).goto
    marks := marksOf 0 c.s.iq
    heldLseqs := allCl.map fun cl => ((c.cluster cl).held.map Trap.lseq).getD 0
    again := allCl.map fun cl => ((c.cluster cl).stopped).filter fun t => decide (t.lseq.toNat < (c.cluster cl).iseq.toNat)
    rings := (List.range 16).filterMap fun q => if (c.queue q).sluiced then some (q, (c.queue q).pages, (c.queue q).ring) else none
    chips := (List.range 16).map fun q => (c.queue q).chip
    tokens := (List.range 4).map fun f => (c.cue f).drop (c.visTokens f)
    indices := [c.mem.indexL, c.mem.indexS]
    bankLoads := c.sys.bankLoads
    ctxStarts := c.sys.ctxStarts
    lineNo := c.sys.lineNo }

/-- What a stop saves with the task: its area, its commands with their block addresses, and no open notes (15 R394). -/
def Task.withCut (t : Task) (c : Core) (area : Nat × Nat) (n : Nat) (cmds : List Command) : Task :=
  { t with area := some area, cutCore := n, saved := cmds, kept := c.keep,
           ringBay := if (List.range 16).any (fun q => decide ((c.queue q).ring ≠ [])) then some (bayOfCore n) else none
           block := t.block.map fun b => { b with s := { b.s with held := b.s.held.filter fun l => !l.note || l.ready } } }

/-- The frame that the core's clear leaves, entered by the handler: kept if it holds the handler already, else loading. -/
def Core.enter (c : Core) (ctx : W16) (h : Nat) : Core × Bool :=
  let f := c.frame h
  if f.img = tvecBase c && f.tag = ctx && !f.empty && f.loading = 0 then (c, false)
  else (c.putFrame h (f.accept (tvecBase c) (tvecLen c * 512)), true)

/-- The CSRs once a cut is written: CUT_K to CUT_S name its sections (R376); a park sets TRAPCAUSE.HARD (R383). -/
def Csrs.withCut (c : Csrs) (base : Nat) (hard : Bool) : Csrs :=
  { c with cut := cutCsrs base, trapcause := if hard then BitVec.ofNat 64 (setBits c.trapcause.toNat 15 15 1) else c.trapcause }

/-- The cut is written, and the core enters its handler (R379), gives its task back (R383, R250), or cannot record the trap. A hard cut
that meets a poisoned row of its own slots ends the context, and takes no area (R392). -/
def State.takeCut (s : State) (n : Nat) (st : Stop) : State :=
  let c := s.core n
  match c.sys.task with
  | none => s
  | some t =>
    let die := dieOfCore n
    let d := s.die die
    let hard := match st.why with
      | .park => true
      | .run => true
      | _ => false
    let trap : Trap := match st.why with
      | .run => { cause := .break, info := BitVec.ofNat 64 (2 ^ 62) }
      | .debug _ => { cause := .break, info := BitVec.ofNat 64 (2 ^ 63) }
      | _ => ((c.cluster (st.first.getD .K)).stopped).getD { cause := .break, info := 0 }
    let toHandler := match st.why with
      | .park => false
      | .yield => false
      | _ => true
    if c.sys.sv then s.unrecorded n trap
    else match lowestFree d.cutUsed (poolCount d.cutPool) with
    | none => s.unrecorded n trap
    | some i =>
      if toHandler && (tvecLen c = 0 || tvecLen c > 128) then s.unrecorded n trap
      else match if hard then slotPoison c c.ctx else none with
      | some row => s.unitMet n c.ctx 2 row
      | none =>
        let base := areaBase d i
        let m := writeArea s.mem (areaKey d) base c hard
        let s1 := (s.withMem m).putDie die { d with cutUsed := setIns d.cutUsed i }
        let cmds := c.mem.streamL ++ c.mem.streamS
        let t1 := t.withCut c (die, i) n cmds
        let lease := if hard then Lease.none else c.lease
        if toHandler then
          let h := handlerFrame c
          let (tc, ti) := stopCause c st hard
          let csr := { c.csr.withCut base hard with trapcause := BitVec.ofNat 64 tc, trapinfo := BitVec.ofNat 64 ti }
          let fpc : LaneAddr := BitVec.ofNat 17 (h * 0x10000 + 4)
          let c0 := c.clear fpc
          let (c1, load) := { c0 with csr := csr, lease := lease, mem := { c0.mem with streamL := [], streamS := [] } }.enter t.ctx h
          let sys := { c1.sys with sv := true, apart := false, task := some t1, handled := some trap,
                                   stop := if load then some { st with phase := .loading, area := some (die, i) } else none }
          let s2 := s1.putCore n { c1 with sys := sys }
          match st.why, load with
          | .debug _, false => s2.reply 0x013 0 0 []
          | _, _ => s2
        else
          let c0 := c.clear 0
          let c1 := { c0 with csr := c.csr.withCut base hard, lease := .none,
                              mem := { c0.mem with streamL := [], streamS := [], weirs := [], parts := [] } }
          let s2 := s1.putCore n { c1 with sys := { c1.sys with task := none, stop := none, nextStop := none, apart := false } }
          match t.nest with
          | none => s2
          | some k =>
            match Map.find? s2.nests k with
            | none => s2
            | some x => s2.putNest k { x with requeued := t1 :: x.requeued, out := x.out - 1 }

/-- The source path of R23, by a supervisor. -/
def State.vaReadSv (s : State) (ctx : W16) (va n : Nat) : Chk (List Byte) := do
  let ps ← translateRange s ctx true .ovl anyFmt va n
  readPieces s ctx ps

/-- The handler's image is in its frame, and the handler starts; where it cannot be read the trap is unrecorded. -/
def State.loadHandler (s : State) (n : Nat) (st : Stop) : State :=
  let c := s.core n
  match c.sys.task with
  | none => s
  | some t =>
    let h := frameOf c.k.fpc.toNat
    match s.vaReadSv t.ctx (tvecBase c).toNat (tvecLen c * 512) with
    | .error e =>
      if e.delays then s.delayed e
      else (s.putCore n (c.putFrame h (c.frame h).fail)).unrecorded n (c.sys.handled.getD e.toTrap)
    | .ok bs =>
      let s1 := s.putCore n { c.putFrame h ((c.frame h).fill t.ctx bs) with sys := { c.sys with stop := none } }
      match st.why with
      | .debug _ => s1.reply 0x013 0 0 []
      | _ => s1

/-! ## The restore (R381, R384) -/

/-- The area that four CUT registers name, if one does. -/
def cutArea (d : Die) (v : Vector W64 4) : Option Nat :=
  (List.range (poolCount d.cutPool)).find? fun i => decide ((cutCsrs (areaBase d i)) = v)

/-- The sections of an area, read back. -/
def readArea (m : Memory) (key base : Nat) : Nat × Nat × Nat × Nat :=
  let at_ (o n : Nat) : Nat := ofBytes (m.rawRead key (base + o) n)
  (at_ 0 0x1000, at_ 0x1000 0x4000, at_ 0x6000 0x4000, at_ 0x5000 0x1000)

/-- The bytes of an area that no section and no slot takes are zero (R377). -/
def areaClear (m : Memory) (key base : Nat) : Bool :=
  (m.rawRead key (base + 0xA000) 0x6000).all (fun b => decide (b = 0)) && (m.rawRead key (base + 0x70000) 0x10000).all fun b => decide (b = 0)

/-- The first bad line that a restore of an area would read: the slots only of a HARD cut. -/
def areaBad (m : Memory) (base : Nat) (hard : Bool) : Option Nat :=
  match m.badBetween base (base + 0x10000) with
  | some u => some u
  | none => m.badBetween (base + if hard then 0x10000 else 0x70000) (base + 0x80000)

/-- The cut of an area, if it passes the checks of R381, the running context's among them; an error in the area is met by the context of the cut (R376). -/
def State.cutIn (s : State) (ctx : W16) (die i : Nat) : Chk (Option Cut) :=
  let d := s.die die
  let base := areaBase d i
  let (k, l, c, x) := readArea s.mem (areaKey d) base
  let cut := cutAt k l c x
  match areaBad s.mem base cut.slots with
  | some u => .error (.poison ctx u)
  | none => .ok (if cutOk cut k l c x && areaClear s.mem (areaKey d) base && decide (cut.ctx = ctx.toNat) then some cut else none)

/-- What must be loaded before the restore goes on: frames 0 and 1, and 2 for the bank. -/
def reloads (c : Core) (x : Cut) (moved : Bool) : List Nat :=
  (if moved || c.frame0.img.toNat ≠ x.img0 || c.frame0.fills.toNat ≠ x.fills0 then [0] else [])
    ++ (if moved || c.frame1.img.toNat ≠ x.img1 || c.frame1.fills.toNat ≠ x.fills1 then [1] else [])
    ++ (match c.sys.task with
      | some t => if moved || c.sys.bankLoads ≠ t.kept.bankLoads || c.sys.ctxStarts ≠ t.kept.ctxStarts then [2] else []
      | none => [2])

/-- One reload: a frame from its recorded image and length, or left empty; the bank from its recorded address, or zeros. -/
def State.reload (s : State) (n : Nat) (x : Cut) (item : Nat) : Chk State :=
  let c := s.core n
  let ctx := BitVec.ofNat 16 x.ctx
  let img := if item = 0 then x.img0 else x.img1
  let fills := if item = 0 then x.fills0 else x.fills1
  let len := if item = 0 then x.len0 else x.len1
  if item ≤ 1 then
    (if len = 0 then
      .ok (s.putCore n (c.putFrame item { img := BitVec.ofNat 64 img, fills := BitVec.ofNat 15 fills }))
    else do
      let bs ← s.vaRead ctx .ovl img len
      let f : Frame := { img := BitVec.ofNat 64 img, fills := BitVec.ofNat 15 fills, len := len, loading := 1 }
      .ok (s.putCore n (c.putFrame item (f.fill ctx bs))))
  else if x.bankSrc = 0 then .ok (s.putCore n (c.fillBank ctx []).countBankLoad)
  else do
    let bs ← s.vaRead ctx .ovl x.bankSrc 1024
    .ok (s.putCore n (c.fillBank ctx bs).countBankLoad)

/-- The commands returned to a stream: the saved card, with what the area does not hold from the saved task. -/
def returned (saved : List Command) (cl : Cl) (xs : List SavedCmd) : List Command :=
  xs.filterMap fun x => (saved.find? fun k => k.cl = cl && k.index.toNat = x.index).map fun k =>
    { k with skipw := x.skipw, held := false, taken := none, gen := BitVec.ofNat 4 x.gen,
             card := if k.card = [] then [] else x.card.map fun w => BitVec.ofNat 64 w }

/-- The kinds of lane that fetch waits for (08 R197; 09 R242; 10 R290; 11 R317), with whether fetch goes on at the lane after them, as it
does after a write of LOOP (09 R243). -/
def holdsFetch (apart : Bool) (cl : Cl) (w : Nat) : Option Bool :=
  match cl with
  | .K =>
    let op := w / 2 ^ 25
    if op = 0x28 || op = 0x2A || op = 0x2B || op = 0x2C || op = 0x2D || op = 0x2E then some false
    else if op = 0x29 && (bits w 21 12 ≠ 0 || bit w 24) then some false
    else if op = 0x2F || op = 0x30 || op = 0x3F || op = 0x41 then some false
    else if op = 0x48 && 1 ≤ bits w 14 12 && bits w 14 12 ≤ 3 && 0x008 ≤ bits w 11 0 && bits w 11 0 ≤ 0x00F then some true
    else none
  | .C =>
    let op := bits w 27 21
    if !apart then none else if op = 0x48 || op = 0x49 || op = 0x4A then some false else none
  | _ =>
    let op := bits w 27 21
    if !apart then none else if op = 0x30 || op = 0x31 || op = 0x32 then some false else none

/-- Whether a routed lane lies in a SYNC line, and whether it is the first of its cluster there (06 R152). -/
def isSyncLane (c : Core) (addr : Nat) : Bool × Bool :=
  let f := c.frame (frameOf addr)
  let line := addr / 32 * 32
  let h := (Map.get 0 f.lanes (line % 0x10000 / 4)).toNat
  let kind (i : Nat) : Nat := bits h (4 * i + 3) (4 * i)
  let i := addr % 32 / 4
  (bit h 2, (List.range i).all fun j => j = 0 || kind j ≠ kind i)

/-- The entries of an image, with the line's SYNC found again; the number of each one's line and its loop state stand with the saved
task. -/
def imageEntries (c : Core) (lines : List Nat) (loops : List (W64 × W64)) (next fetch : W64 × W64) (es : List Entry) : List Entry :=
  es.zipIdx.map fun p =>
    let (inSync, first) := isSyncLane c p.1.addr.toNat
    { p.1 with sync := inSync && first, later := inSync && !first, line := lines.getD p.2 (lines.foldl max 0),
               loops := if p.2 = 0 then next else loops.getD p.2 fetch }

def w64 (n : Nat) : W64 := BitVec.ofNat 64 n

def causeOf (code : Nat) : Cause :=
  ([Cause.laneKind, .lineKind, .illegalOp, .priv, .translation, .permission, .format, .align, .watch, .understudy, .uncorrectable,
    .sluiceQuota, .hazardCheck, .nondet, .lease, .migration, .peerGone, .fabricError, .killed, .timetableSlip, .break,
    .queueProtocol, .collectiveAborted].getD (code - 1) .illegalOp)

/-- A cluster as the cut left it. -/
def restoreCluster (c : Core) (t : Task) (apart : Bool) (cl : Cl) (h : CutHead) : Cluster :=
  let x := c.cluster cl
  let i := clNumber cl
  let fetch := (w64 h.fetch0, w64 h.fetch1)
  let es := imageEntries c (t.kept.routes.getD i []) (t.kept.loops.getD i []) (w64 h.next0, w64 h.next1) fetch h.image
  { iq := if cl = .S then putMarks t.kept.marks 0 es else es, fpc := BitVec.ofNat 17 h.fpc, jumped := t.kept.jumped.getD i false,
    xfers := if apart || cl = .K then (t.kept.transfers.getD i []).filter fun a => h.image.any fun e => e.addr = a else [],
    goto := if apart || cl = .K then t.kept.gotos.getD i none else none,
    xline := (match es.getLast? with
      | some e => e.line
      | none => 0),
    loop0 := fetch.1, loop1 := fetch.2, iseq := BitVec.ofNat 48 h.iseq, flightNo := max x.flightNo (t.kept.flightNos.getD i 0),
    flights := t.kept.waiting.getD i [], skipw := h.skipw,
    joined := t.kept.joined.contains cl,
    held := if h.heldCause = 0 then none
      else some { cause := causeOf h.heldCause, info := w64 h.heldInfo, lseq := t.kept.heldLseqs.getD i 0, job := w64 h.heldJob } }

/-- A report held for a cluster is raised at its first lane boundary after the restore (R386); before it, the one that stopped the cluster in
a drain after which no handler ran (R382, R383). -/
def State.raiseHeld (s : State) (n : Nat) (cl : Cl) (again : Option Trap) : State :=
  match again, (s.cluster n cl).held with
  | some t, _ => s.raise n cl t
  | none, none => s
  | none, some t => (s.putCluster n cl { s.cluster n cl with held := none }).raise n cl t

/-- The slots as a HARD cut holds them. -/
def slotRows (m : Memory) (key base : Nat) (ctx : W16) : Map AccRow :=
  (List.range 768).filterMap fun k =>
    let pa := base + 0x10000 + 512 * k
    let row : AccRow := { tag := ctx, data := BitVec.ofNat 4096 (ofBytes (m.rawRead key pa 512)),
                          poison := (linesOf pa 512).any fun u => m.poison.contains u }
    if row = {} then none else some (k, row)

/-- A queue as its image and the task give it back. -/
def Queue.restored (t : Task) (q : Nat) (v : Queue) : Queue :=
  let chips := t.kept.chips.getD q []
  let (pages, ring) := (t.kept.rings.lookup q).getD ([], [])
  let fill (e : QEntry) (i : Nat) : Fill :=
    match e.fill, (chips.getD i e).fill with
    | .failed va own _, .failed _ cls lseq => .failed va (if queueWide q then own else cls) lseq
    | f, _ => f
  { v with pages := pages,
           ring := if v.sluiced && ring.length * queueBytes q % v.size = v.ring.length * queueBytes q then ring else v.ring,
           chip := v.chip.zipIdx.map fun e => { e.1 with src := (chips.getD e.2 e.1).src, fill := fill e.1 e.2 } }

/-- Steps 2 to 7 of the restore. -/
def State.finishRestore (s : State) (n : Nat) (x : Cut) (die i : Nat) : State :=
  let c := s.core n
  match c.sys.task with
  | none => s
  | some t =>
    let ctx := BitVec.ofNat 16 x.ctx
    let d := s.die die
    let queues := x.queues.mapIdx fun q (v : Queue) => v.restored t q
    let none4 : Vector (List Nat) 4 := Vector.replicate 4 []
    let cues := none4.mapIdx fun f _ => List.replicate (x.cues.getD f 0) 0 ++ t.kept.tokens.getD f []
    let csr := { c.csr with gen := BitVec.ofNat 4 x.gen, weirStale := BitVec.ofNat 32 x.weirStale, cut := Vector.replicate 4 0 }
    let mem := { c.mem with
      weirs := x.weirs.map fun w => (w64 w.2.1, BitVec.ofNat 16 w.2.2)
      parts := x.parts.map fun p => { group := BitVec.ofNat 16 p.2.1, issuer := BitVec.ofNat 8 p.2.2.1, s := p.2.2.2 }
      streamL := returned t.saved .L x.cmdsL
      streamS := returned t.saved .S x.cmdsS
      indexL := t.kept.indices.getD 0 0
      indexS := t.kept.indices.getD 1 0
      bankSrc := w64 x.bankSrc }
    let acc := if x.slots then slotRows s.mem (areaKey d) (areaBase d i) ctx else c.acc
    let lease := if x.slots && x.lease ≠ 0 then Lease.pending else if x.slots then Lease.none else c.lease
    let t0 := { t with area := none, saved := [], ringBay := none, kept := {} }
    let sys := { c.sys with sv := false, apart := x.apart, handled := none, nextStop := none, task := some t0,
                            lineNo := max c.sys.lineNo t.kept.lineNo,
                            stop := c.sys.nextStop.map fun w => { why := w, phase := .requested } }
    let c1 := { c with regs := x.regs, queues := queues, cues := cues, csr := csr, mem := mem, acc := acc, lease := lease, sys := sys }
    let c2 := { c1 with k := restoreCluster c1 t x.apart .K x.k, l := restoreCluster c1 t x.apart .L x.l,
                        c := restoreCluster c1 t x.apart .C x.c, s := restoreCluster c1 t x.apart .S x.s }
    let s1 := (s.putCore n c2).freeArea (some (die, i))
    let again (cl : Cl) : Option Trap := if c.sys.sv then none else (t.kept.again.getD (clNumber cl) none)
    (((s1.raiseHeld n .K (again .K)).raiseHeld n .L (again .L)).raiseHeld n .C (again .C)).raiseHeld n .S (again .S)

/-- A reload that fails ends the restore: the task is killed and its node faults with the load's cause. -/
def State.failRestore (s : State) (n : Nat) (area : Option (Nat × Nat)) (t : Trap) : State :=
  let c := s.core n
  match c.sys.task with
  | none => s
  | some k => ((s.putCore n { c with sys := { c.sys with task := some { k with area := none } } }).freeArea area).endTask n t

end Sys2Proof.Machine
end

