-- ==== Sys2Proof/Machine/Issue.lean ====
section
/-! DEFINITION. The issue of a lane, once for every cluster: the order of its checks (08 R208), what it waits for (06 R150, R157,
R163), what its issue does to the queues and cues it names, and what becomes of a lane that does not issue (14 R374, R385, R389). -/

namespace Sys2Proof.Machine
open Sys2Proof

/-! ## Host-owned pages (01 R40, R41) -/

/-- The cluster waits, holding its lane, for one flip of the page; the management complex asks the host once a page. -/
def State.stallOn (s : State) (n : Nat) (cl : Cl) (ctx : W16) (va base leaf : Nat) : State :=
  (s.putCluster n cl { s.cluster n cl with stall := some (ctx, base, va) }).askFlip ctx base leaf

/-- What becomes of a lane that does not issue. -/
def State.halted (s : State) (n : Nat) (cl : Cl) : Halt → State
  | .wait => s
  | .trap c info => s.raiseLane n cl c info
  | .watch info hits =>
    let c := s.core n
    let s1 := s.putCore n { c.putCluster cl { c.cluster cl with skipw := true } with csr := c.csr.watchHit hits }
    s1.raiseLane n cl .watch info
  | .stall ctx va base leaf => s.stallOn n cl ctx va base leaf
  | .wake b => s.wakeSlice b
  | .poison ctx pa => s.poisonMet ctx pa

/-! ## Checks of the queues a lane names (06 R158) -/

def needQueue (b : Bool) (q : Nat) : Chk Unit := need b (.trap .queueProtocol (BitVec.ofNat 64 q))

/-- A push by the queue's producer, of the queue's width. -/
def pushOk (cl : Cl) (q : Nat) (wide : Bool) : Chk Unit :=
  needQueue (decide (queueProducer q = cl) && !queueBranch q && (queueWide q == wide)) q

/-- A pop by the queue's consumer. -/
def popOk (cl : Cl) (q : Nat) : Chk Unit := needQueue (decide (queueConsumer q = cl) && !queueBranch q) q

def joint (s : State) (n : Nat) : Bool := !(s.core n).sys.apart

/-! ## What a lane waits for -/

/-- Every queue popped has a visible head: its entries' data. DEDUCED (log 58). -/
def heads (c : Core) : List Nat → Chk (List Vec)
  | [] => .ok []
  | q :: qs =>
    match c.headOf q with
    | none => .error .wait
    | some e => do
      let vs ← heads c qs
      .ok (e.data :: vs)

/-- Room for the entries that a lane pushes: a place, in a slice that is ON where the entry spills (02 R70). SLUICE_QUOTA leaves TRAPINFO
zero. DESIGN CHOICE (log 57). -/
def roomFor (s : State) : List Nat → Chk Unit
  | [] => .ok ()
  | q :: qs =>
    match s.cc.room q 1 with
    | none => .error (.trap .sluiceQuota 0)
    | some b => do
      need b .wait
      if (s.cc.queue q).spills q then awake s ((s.cc.queue q).ringPa (s.cc.queue q).tail)
      roomFor s qs

def cuesReady (c : Core) (cl : Cl) (cue : Nat) : Chk Unit :=
  need ((cuePops cl cue).all (fun f => c.cueVisible f) && (cuePushes cl cue).all (fun f => decide ((c.cue f).length < 8))) .wait

/-! ## Issue -/

/-- What a lane's issue does: the state with its registers and memory written, the entries it pushes, and what it then waits for
(none: it is complete at issue), with a write match to be raised at completion. `fails` : it has failed already, and pushes no token. -/
structure Eff where
  st : State
  push : List (Nat × Vec) := []
  flight : Option FlightKind := none
  watch : Option (W64 × List Nat) := none
  fill : Fill := .ready
  fails : Bool := false

def popAll (c : Core) (qs : List Nat) : Core := qs.foldl (fun c q => c.popQueue q) c
def popCues (c : Core) (fs : List Nat) : Core := fs.foldl (fun c f => c.putCue f (c.cue f).tail) c
def pushCues (c : Core) (fs : List Nat) (src : Nat) : Core := fs.foldl (fun c f => c.putCue f (c.cue f ++ [src])) c
def pushAll (s : State) (n src : Nat) (fill : Fill) (ps : List (Nat × Vec)) : State :=
  ps.foldl (fun s p => s.pushQueue n p.1 { data := p.2, tag := (s.core n).ctx, src := src, fill := fill }) s

/-- The lane leaves its issue queue and takes its numbers (06 R148; counting is suspended in a handler, 14 R379). -/
def Cluster.retire (x : Cluster) (sv : Bool) (f : Option FlightKind) (w : Option (W64 × List Nat)) : Cluster :=
  { x with
    iq := x.iq.tail
    iseq := if sv then x.iseq else x.iseq + 1
    flightNo := x.flightNo + 1
    skipw := false
    flights := match f with
      | none => x.flights
      | some k => x.flights ++ [{ no := x.flightNo, iseq := x.iseq, kind := k, watch := w }] }

/-- A lane is in flight until it completes if it says so, or if it pushes (03 R81). -/
def flightOf (f : Option FlightKind) (pushes : Bool) : Option FlightKind :=
  match f with
  | some k => some k
  | none => if pushes then some .sync else none

/-- The issue itself: pops, pushes reserved, numbers taken, all in one cycle (06 R157, R163). DEDUCED (log 7). -/
def finish (n : Nat) (cl : Cl) (cue : Nat) (pops : List Nat) (e : Eff) : State :=
  let c := e.st.core n
  let x := c.cluster cl
  let c1 := pushCues (popCues (popAll c pops) (cuePops cl cue)) (if e.fails then [] else cuePushes cl cue) x.flightNo
  let f := flightOf e.flight (decide (e.push ≠ []) || decide (cuePushes cl cue ≠ []))
  let c2 := (c1.putCluster cl ((c1.cluster cl).retire c.sys.sv f e.watch)).settleMarks
  pushAll (e.st.putCore n c2) n x.flightNo e.fill e.push

/-- A lane at the head of its cluster's issue queue (08 R208): the checks that need no operand, then what it waits for, then its
own checks and its effect. `pops` and `pushes` are the queues it names. -/
def issue (cl : Cl) (cue : Nat) (pre : Chk Unit) (pops pushes : List Nat) (body : List Vec → Chk Eff) (s : State) : Out :=
  .next (match (do
      pre
      let vs ← heads s.cc pops
      cuesReady s.cc cl cue
      roomFor s pushes
      let e ← body vs
      (.ok (finish s.curCore cl cue pops e) : Chk State)) with
    | .ok s' => s'
    | .error h => s.halted s.curCore cl h)

/-- A lane that names no queue and no cue. -/
def issuePlain (cl : Cl) (pre : Chk Unit) (body : Chk Eff) (s : State) : Out := issue cl 0 pre [] [] (fun _ => body) s

def pureEff (s : State) : Chk Eff := .ok { st := s }

/-- A lane whose whole effect is on registers, complete at issue. -/
def issueRegs (cl : Cl) (f : Regs → Regs) (s : State) : Out := issuePlain cl (.ok ()) (pureEff (s.putRegs (f s.regs))) s

end Sys2Proof.Machine
end

