-- ==== Sys2Proof/Machine/Complete.lean ====
section
/-! DEFINITION. What becomes of a lane after its issue: its completion, the reports that reach its cluster (14 R386, R389), and the
grant of the array to the core that asks for it (06 R165; 12 R322). -/

namespace Sys2Proof.Machine
open Sys2Proof

/-! ## Reports (14 R386) -/

/-- A fault-queue entry of KIND 4, for a report that finds another one held. -/
def State.secondReport (s : State) (n : Nat) (task : Task) (t : Trap) : State :=
  match task.owner with
  | none => s
  | some (g, i) => s.lateReport g i t task.tid.toNat n

/-- The task that work belongs to. -/
def Task.who (t : Task) : Who := { nest := t.nest, tid := t.tid, scope := t.scope, owner := t.owner }

def Task.isWho (t : Task) (w : Who) : Bool := decide (t.nest = w.nest) && decide (t.tid = w.tid) && decide (t.scope = w.scope)

/-- The tasks that wait for a core, with their cuts. -/
def waitingTasks (s : State) : List Task :=
  (s.cores.flatMap fun c => c.2.sys.prefetch) ++ s.nests.flatMap fun n => n.2.requeued

/-- Change a task wherever it is. -/
def State.mapTask (s : State) (w : Who) (f : Task → Task) : State :=
  let g (t : Task) : Task := if t.isWho w then f t else t
  { s with
    cores := s.cores.map fun c => (c.1, { c.2 with sys := { c.2.sys with task := c.2.sys.task.map g, prefetch := c.2.sys.prefetch.map g } })
    nests := s.nests.map fun n => (n.1, { n.2 with requeued := n.2.requeued.map g }) }

/-- A task wherever it is: on a core, in a prefetch buffer, or come back to its nest. -/
def State.taskOf (s : State) (w : Who) : Option Task :=
  ((s.cores.flatMap fun c => c.2.sys.task.toList ++ c.2.sys.prefetch) ++ s.nests.flatMap fun n => n.2.requeued).find? fun t => t.isWho w

/-- The lane of a report held for a cluster of a saved task. -/
def Task.holdLseq (t : Task) (cl : Cl) (lseq : BitVec 48) : Task :=
  let lseqs := (List.range 4).map fun k => if k = clNumber cl then lseq else t.kept.heldLseqs.getD k 0
  { t with kept := { t.kept with heldLseqs := lseqs } }

/-- A failure is decided: its report is on its way. -/
def State.postReport (s : State) (n : Nat) (r : Report) : State :=
  let c := s.core n
  s.putCore n { c with mem := { c.mem with reports := c.mem.reports ++ [r] } }

/-- The entry of a second report; where its record cannot be written yet the report stays on its way. -/
def State.secondOrLater (s : State) (n : Nat) (cl : Cl) (task : Task) (t : Trap) : State :=
  s.wholeOr (fun s => s.secondReport n task t) fun s => s.postReport n { cl := cl, trap := t, who := task.who }

/-- A report held in the issuing cluster's section of the cut, at offsets 64, 72 and 88. An error there ends the context of the cut (R376). -/
def State.holdInArea (s : State) (n : Nat) (cl : Cl) (task : Task) (t : Trap) (d i : Nat) : State :=
  let y := s.die d
  let at_ := (sectionPas (areaBase y i)).getD (clNumber cl) 0
  let key := areaKey y
  match s.mem.badBetween at_ (at_ + 128) with
  | some u => s.poisonMet task.ctx u
  | none =>
    if (ofBytes (s.mem.rawRead key (at_ + 64) 8)) % 256 ≠ 0 then s.secondOrLater n cl task t
    else
      (s.withMem ((s.mem.rawWrite key (at_ + 64) (bytesOf 8 t.cause.code ++ bytesOf 8 t.info.toNat)).rawWrite key (at_ + 88)
        (bytesOf 8 t.job.toNat))).mapTask task.who fun k => k.holdLseq cl t.lseq

/-- A failure or a write match reaches the cluster that issued it: raised at its next lane boundary, or held while it cannot be. -/
def State.report (s : State) (n : Nat) (cl : Cl) (t : Trap) : State :=
  let c := s.core n
  match c.sys.task with
  | none => s
  | some task =>
    match task.area with
    | some (d, i) => s.holdInArea n cl task t d i
    | none =>
      let x := c.cluster cl
      match x.stopped with
      | none => s.raise n cl t
      | some _ =>
        match x.held with
        | none => s.putCluster n cl { x with held := some t }
        | some _ => s.secondOrLater n cl task t

/-- A failure of work whose task has retired: a fault of its node while that firing goes on, else an entry of KIND 4 (13 R353). -/
def State.reportNode (s : State) (n : Nat) (r : Report) : State :=
  match r.who.owner with
  | none => s
  | some (g, i) =>
    match (s.node g i).scope with
    | some sc => if s.under r.who.scope sc then s.faultNode g i r.trap r.who.tid.toNat n false else s.lateReport g i r.trap r.who.tid.toNat n
    | none => s.lateReport g i r.trap r.who.tid.toNat n

/-- A core runs a task. -/
def Core.runs (c : Core) (w : Who) : Bool :=
  match c.sys.task with
  | some t => t.isWho w
  | none => false

/-- The core that runs a task: the one that issued its work, or one that has restored it since. -/
def State.coreOf (s : State) (n : Nat) (w : Who) : Option Nat :=
  if (s.core n).runs w then some n else (List.find? (fun (c : Nat × Core) => c.2.runs w) s.cores).map Prod.fst

/-- A failure report reaches its task, wherever it is (04 R102; 14 R386). -/
def State.deliver (s : State) (n : Nat) (r : Report) : State :=
  match s.coreOf n r.who with
  | some m => if (s.core m).sys.halting then s.reportNode n r else s.report m r.cl r.trap
  | none =>
    match List.find? (fun (t : Task) => t.isWho r.who) (waitingTasks s) with
    | some t =>
      (match t.area with
        | some (d, i) => s.holdInArea n r.cl t r.trap d i
        | none => s.reportNode n r)
    | none => s.reportNode n r

/-- The bay sequence number of a report of a job. -/
def Report.jobSeq (r : Report) : Option Nat := if bit r.trap.job.toNat 63 then some (bits r.trap.job.toNat 31 0) else none

/-- A job's report comes before one of a job accepted later (04 R124). -/
def Report.before (a b : Report) : Bool :=
  match a.jobSeq, b.jobSeq with
  | some i, some j => decide (i < j)
  | _, _ => false

/-- The report that a cluster receives first: the oldest, or that of a job accepted earlier. -/
def takeReport (cl : Cl) : List Report → Option (Report × List Report)
  | [] => none
  | r :: rs =>
    match takeReport cl rs with
    | none => if r.cl = cl then some (r, rs) else none
    | some p => if r.cl = cl && !p.1.before r then some (r, rs) else some (p.1, r :: p.2)

/-- FAILURE_REPORT: the first report on its way to a cluster reaches it. -/
def execFailureReport (core : Nat) (cl : Cl) (s : State) : Out :=
  let c := s.core core
  match takeReport cl c.mem.reports with
  | none => .next s
  | some (r, rest) => .next (s.whole fun s => (s.putCore core { c with mem := { c.mem with reports := rest } }).deliver core r)

/-! ## Completion (03 R81) -/

/-- A lane is complete: it is no longer in flight, and a write match of its own is raised behind it (14 R389). -/
def State.completeFlight (s : State) (n : Nat) (cl : Cl) (no : Nat) : State :=
  let x := s.cluster n cl
  match List.find? (fun f => f.no = no) x.flights with
  | none => s
  | some f =>
    let s1 := s.putCluster n cl { x with flights := x.flights.filter fun f => f.no ≠ no }
    match f.watch with
    | none => s1
    | some (info, hits) =>
      let c := s1.core n
      (s1.putCore n { c with csr := c.csr.watchHit hits }).report n cl { cause := .watch, info := info, lseq := f.iseq }

/-- A lane that fails: the tokens it pushed never become visible, it makes no leaf, and no match of its writes is raised (04 R102).
DESIGN CHOICE (log 103). -/
def State.failFlight (s : State) (n : Nat) (cl : Cl) (no : Nat) : State :=
  let c := s.core n
  let x := c.cluster cl
  let cues := c.cues.mapIdx fun f x => if cueProducer f = cl then x.filter (fun t => t ≠ no) else x
  let c1 := { c.putCluster cl { x with flights := x.flights.map fun f => if f.no = no then { f with watch := none } else f } with cues := cues }
  (s.putCore n (c1.fillLeaf cl no [])).completeFlight n cl no

def State.completeFlights (s : State) (n : Nat) (cl : Cl) (nos : List Nat) : State := nos.foldl (fun s no => s.completeFlight n cl no) s

/-! ## The lease (06 R165; 12 R322) -/

def asks (l : Lease) : Bool := decide (l = .pending) || decide (l = .lost)

/-- A core asks for the array, and no kill has reached its task (06 R171). -/
def asksFor (s : State) (n : Nat) : Bool :=
  asks (s.core n).lease && (match (s.core n).sys.task with
    | some t => !s.dying t.scope
    | none => true)

/-- The next requester of a bay's array, in round-robin order of core number. -/
def nextRequester (s : State) (b : Nat) : Option Nat :=
  ((List.range 4).map fun i => 4 * b + ((s.bay b).leaseNext + i) % 4).find? fun n => asksFor s n

/-- The array, once free, passes to the next requester with a fresh bound; an `mlease` that waited is complete. -/
def State.grantArray (s : State) (b : Nat) : State :=
  let y := s.bay b
  match y.holder, nextRequester s b with
  | none, some n =>
    let s1 := s.putBay b { y with holder := some n, leaseNext := (n + 1) % 4, boundCmds := 0, boundStart := s.sys.pkgCycle.toNat,
                                  boundHit := false }
    let c := s1.core n
    (s1.putCore n { c with lease := .held, leaseFlights := [] }).completeFlights n .C c.leaseFlights
  | _, _ => s

/-- The lease is given back and every request of the core withdrawn. -/
def State.releaseLease (s : State) (n : Nat) : State :=
  let c := s.core n
  let s1 := (s.putCore n { c with lease := .none, leaseFlights := [] }).completeFlights n .C c.leaseFlights
  let b := bayOfCore n
  if (s.bay b).holder = some n then (s1.putBay b { s1.bay b with holder := none }).grantArray b else s1

end Sys2Proof.Machine
end

