-- ==== Sys2Proof/Machine/Fetch.lean ====
section
/-! DEFINITION. Fetch: lines, routing, literals, continuation lanes, loop ends, and control transfers (06 R149 to R154; 08 R193 to
R202; 09 R239, R243). -/

namespace Sys2Proof.Machine
open Sys2Proof

/-! ## Instruction memory -/

/-- The word at a lane address. -/
def Core.imem (c : Core) (a : Nat) : Nat := (Map.get 0 (c.frame (frameOf a)).lanes (a % 0x10000 / 4)).toNat

def kindOf (hdr i : Nat) : Nat := bits hdr (4 * i + 3) (4 * i)

def clOfKind (k : Nat) : Option Cl :=
  match k with
  | 1 => some .K
  | 2 => some .L
  | 3 => some .C
  | 4 => some .S
  | _ => none

/-- The continuation words an instruction of format AC takes (R201, R204). -/
def acCount (cl : Cl) (w : Nat) : Nat :=
  let op := bits w 27 21
  match cl with
  | .L => if 0x18 ≤ op && op ≤ 0x1D then bits w 8 7 else 0
  | .S => if (0x18 ≤ op && op ≤ 0x1A) || op = 0x1C || op = 0x1D then bits w 8 7 else 0
  | _ => 0

/-! ## Loop levels (09 R242, R243, R256) -/

def loopActive (v : W64) : Bool := bit v.toNat 63
def loopEnd (v : W64) : Nat := bits v.toNat 61 47 * 4
def loopStart (v : W64) : Nat := bits v.toNat 46 32 * 4
def loopCount (v : W64) : Nat := bits v.toNat 31 0
def loopWord64 (start last count : Nat) : W64 :=
  BitVec.ofNat 64 (2 ^ 63 + last / 4 * 2 ^ 47 + start / 4 * 2 ^ 32 + count)

/-- One level passes its END: another pass, or inactive. -/
def passLevel (v : W64) : W64 × Option Nat :=
  if loopCount v > 1 then (BitVec.ofNat 64 (v.toNat - 1), some (loopStart v)) else (BitVec.ofNat 64 (v.toNat % 2 ^ 63), none)

/-- Fetch passes a lane position: level 1 before level 0. -/
def passEnd (ls : W64 × W64) (a : Nat) : (W64 × W64) × Option Nat :=
  let (l1, go1) := if loopActive ls.2 && loopEnd ls.2 = a then passLevel ls.2 else (ls.2, none)
  match go1 with
  | some t => ((ls.1, l1), some t)
  | none =>
    let (l0, go0) := if loopActive ls.1 && loopEnd ls.1 = a then passLevel ls.1 else (ls.1, none)
    ((l0, l1), go0)

/-- Positions a lane and its continuations take, passed in order until one sends fetch back. -/
def passAll (ls : W64 × W64) : Nat → Nat → (W64 × W64) × Option Nat
  | 0, _ => (ls, none)
  | n + 1, a =>
    match passEnd ls a with
    | (ls1, some t) => (ls1, some t)
    | (ls1, none) => passAll ls1 n (a + 4)

/-! ## Fetch faults (R194 to R201) -/

structure FetchFault where
  cause : Cause
  info : Nat
  addr : Nat

def laneFault (a : Nat) : FetchFault := { cause := .laneKind, info := a, addr := a }
def lineFault (a : Nat) : FetchFault := { cause := .lineKind, info := a, addr := a }
def illegalFault (reason a : Nat) : FetchFault := { cause := .illegalOp, info := reason * 2 ^ 56 + a, addr := a }

/-- The lanes from the entry lane up: `rem` continuations still due; `only` is the apart stream's cluster; `target` : fetch came to the first
of them by a transfer. A lane that falls short of continuations is itself the faulting one. -/
def scanLanes (c : Core) (only : Option Cl) (hdr base : Nat) : List Nat → Bool → Nat → Option FetchFault
  | [], _, _ => none
  | i :: is, target, rem =>
    let a := base + 4 * i
    let k := kindOf hdr i
    if k > 6 then some (illegalFault 0x12 a)
    else if target && (k = 5 || k = 6) then some (laneFault a)
    else if k = 6 then (if rem = 0 then some (illegalFault 0x14 a) else scanLanes c only hdr base is false (rem - 1))
    else match clOfKind k with
    | none => scanLanes c only hdr base is false 0
    | some cl =>
      let n := 2 * acCount cl (c.imem a)
      if only.isSome && decide (only ≠ some cl) then some (illegalFault 0x17 a)
      else if !(decide (n ≤ is.length) && (is.take n).all fun j => decide (kindOf hdr j = 6)) then some (illegalFault 0x14 a)
      else scanLanes c only hdr base is false n

/-- The first fault of a line entered at pc. The order of the faults of the line itself is the model's. DESIGN CHOICE (log 85). -/
def scanLine (c : Core) (only : Option Cl) (pc : Nat) (target : Bool) : Option FetchFault :=
  let base := pc / 32 * 32
  let i := pc % 32 / 4
  let f := c.frame (frameOf pc)
  let hdr := c.imem base
  if !c.usable (frameOf pc) then some (illegalFault 0x15 pc)
  else if f.pool.contains (base % 0x10000) then some (lineFault pc)
  else if bits hdr 1 0 = 1 || bits hdr 1 0 = 2 then some (lineFault pc)
  else if i = 0 then some (laneFault pc)
  else if bits hdr 1 0 = 3 || bit hdr 3 then some (illegalFault 0x13 pc)
  else if only.isSome && bit hdr 2 then some (illegalFault 0x17 pc)
  else scanLanes c only hdr base ((List.range 8).filter fun j => decide (i ≤ j)) target 0

/-! ## Literals (R199) -/

/-- The literal lanes of a line after lane i. -/
def lineLits (c : Core) (base i : Nat) : List W32 :=
  ((List.range 8).filter fun j => decide (i < j) && decide (kindOf (c.imem base) j = 5)).map fun j => BitVec.ofNat 32 (c.imem (base + 4 * j))

/-- The literal lanes of the line after: a code line's, or a literal-pool line's whose header keeps the rule; none at all while its
frame is loading. -/
def nextLits (c : Core) (base : Nat) : Option (List W32) :=
  let b := (base + 32) % laneSpace
  let hdr := c.imem b
  if (c.frame (frameOf b)).loading ≠ 0 then none
  else if !c.usable (frameOf b) || (c.frame (frameOf b)).pool.contains (b % 0x10000) then some []
  else if bits hdr 1 0 = 0 then some (lineLits c b 0)
  else if bits hdr 3 0 = 1 && (List.range 7).all (fun j => kindOf hdr (j + 1) = 0 || kindOf hdr (j + 1) = 5) then some (lineLits c b 0)
  else some []

/-- The literal of a `lit` lane, attached at routing: some none where there is none. -/
def attachLit (c : Core) (base i n : Nat) : Option (Option W32) :=
  let here := lineLits c base i
  match here[n]? with
  | some l => some (some l)
  | none => (nextLits c base).map fun more => more[n - here.length]?

/-! ## Routing -/

structure Plan where
  es : List (Cl × Entry) := []
  xs : List LaneAddr := []
  taken : Option Nat := none
  pops : Nat × Nat := (0, 0)
  loops : W64 × W64
  next : Nat

/-- What routing needs of the stream it serves. -/
structure Stream where
  own : Cl
  apart : Bool
  no : Nat
  sync : Bool
  base : Nat
  note : Bool

/-- The k-th visible outcome of a branch-outcome queue. -/
def Core.outcome (c : Core) (q k : Nat) : Option Bool :=
  match ((c.queue q).chip)[k]? with
  | some e => if c.entryVisible q e then some (decide (e.data.toNat % 2 = 1)) else none
  | none => none

/-- Route one lane: none while it must wait for an outcome or a literal. -/
def routeLane (c : Core) (st : Stream) (p : Plan) (cl : Cl) (i : Nat) : Option Plan :=
  let a := st.base + 4 * i
  let w := c.imem a
  let n := acCount cl w
  let cont := (List.range n).map fun j => BitVec.ofNat 64 (c.imem (a + 8 * j + 4) + 2 ^ 32 * c.imem (a + 8 * j + 8))
  let loops := if cl = st.own then p.loops else ((c.cluster cl).loop0, (c.cluster cl).loop1)
  let first := !(p.es.any fun e => e.1 = cl)
  let e : Entry := { word := BitVec.ofNat 32 w, addr := BitVec.ofNat 17 a, cont := cont, sync := st.sync && first,
                     later := st.sync && !first, line := st.no, loops := loops }
  let op := w / 2 ^ 25
  if cl = .K && op = 0x14 && w % 16 ≤ 12 then
    (attachLit c st.base i (w % 16)).map fun l => { p with es := p.es ++ [(cl, { e with lit := l })] }
  else if cl = .K && op = 0x29 && bits w 21 12 = 0 && !bit w 24 then
    let q := bits w 22 22
    match c.outcome (13 + q) (if q = 0 then p.pops.1 else p.pops.2) with
    | none => none
    | some b =>
      let go := b != bit w 23
      let t := laneOff a (signed 12 w)
      some { p with es := p.es ++ [(cl, e)], pops := if q = 0 then (p.pops.1 + 1, p.pops.2) else (p.pops.1, p.pops.2 + 1),
                    taken := if go && p.taken.isNone then some t else p.taken }
  else if (holdsFetch st.apart cl w).isSome && p.taken.isNone then
    some { p with es := p.es ++ [(cl, e)], xs := p.xs ++ [e.addr] }
  else if cl = .K && op = 0x52 && !st.apart && st.note then
    some { p with es := p.es ++ [(cl, e), (.S, { word := 0, addr := e.addr, line := st.no, mark := some [] })] }
  else some { p with es := p.es ++ [(cl, e)] }

/-- Route a line from lane i up, until its end, an END that sends fetch back, or a lane after which fetch goes on anew. -/
def routeLanes (c : Core) (st : Stream) (hdr : Nat) : Nat → Nat → Plan → Option Plan
  | 0, _, p => some p
  | f + 1, i, p =>
    if i ≥ 8 then some p
    else
      let a := st.base + 4 * i
      let routed := match clOfKind (kindOf hdr i) with
        | none => some p
        | some cl => routeLane c st p cl i
      match routed with
      | none => none
      | some p1 =>
        let (span, ends) := match clOfKind (kindOf hdr i) with
          | none => (1, false)
          | some cl => (1 + 2 * acCount cl (c.imem a), decide (holdsFetch st.apart cl (c.imem a) = some true) && p.taken.isNone)
        match passAll p1.loops span a with
        | (ls, some t) => some { p1 with loops := ls, next := t }
        | (ls, none) => if ends then some { p1 with loops := ls, next := nextLane a } else routeLanes c st hdr f (i + span) { p1 with loops := ls }

def routedTo (p : Plan) (cl : Cl) : List Entry := p.es.filterMap fun e => if e.1 = cl then some e.2 else none

def lanesIn (es : List Entry) : Nat := (es.filter fun e => e.mark.isNone).length

/-- Every issue queue the line feeds has room for all of its lanes (R149). -/
def roomForLine (c : Core) (p : Plan) : Bool :=
  allCl.all fun cl => let es := routedTo p cl; es = [] || decide (lanesIn (c.cluster cl).iq + lanesIn es ≤ 16)

def Cluster.queueUp (x : Cluster) (es : List Entry) : Cluster := { x with iq := x.iq ++ es }

/-- The line goes to the issue queues, and fetch goes on. -/
def Core.applyPlan (c : Core) (own : Cl) (p : Plan) : Core :=
  let drop (c : Core) (q k : Nat) : Core := c.putQueue q { c.queue q with chip := (c.queue q).chip.drop k }
  let c1 := drop (drop c 13 p.pops.1) 14 p.pops.2
  let c2 := allCl.foldl (fun c cl => c.putCluster cl ((c.cluster cl).queueUp (routedTo p cl))) c1
  let x := c2.cluster own
  let x1 := { x with fpc := BitVec.ofNat 17 (p.taken.getD p.next), jumped := p.taken.isSome, xfers := p.xs, goto := none, xline := c.sys.lineNo,
                     hold := false, loop0 := p.loops.1, loop1 := p.loops.2 }
  ({ c2.putCluster own x1 with sys := { c2.sys with lineNo := c.sys.lineNo + 1 } }).settleMarks

/-- Fetch serves a stream only while its core runs lanes and nothing holds it. -/
def canFetch (s : State) (c : Core) (own : Cl) : Bool :=
  let x := c.cluster own
  (match c.sys.task with
    | some t => !s.dying t.scope
    | none => false)
    && c.sys.stop.isNone && !c.sys.halting && x.stopped.isNone && x.xfers.isEmpty && !x.joined
    && !(x.hold && !x.iq.isEmpty) && decide ((c.frame (frameOf x.fpc.toNat)).loading = 0)

/-- One line for the stream of a cluster: the joint stream's, or its own while apart. DESIGN CHOICE (log 105). -/
def State.fetch (s : State) (n : Nat) (cl : Cl) : State :=
  let c := s.core n
  let own := if c.sys.apart then cl else .K
  let x := c.cluster own
  let pc := x.fpc.toNat
  if !canFetch s c own then s
  else match scanLine c (if c.sys.apart then some own else none) pc x.jumped with
  | some f =>
    if x.iq.isEmpty then
      (s.putCluster n own { x with fpc := BitVec.ofNat 17 f.addr }).raiseLane n own f.cause (BitVec.ofNat 64 f.info)
    else s
  | none =>
    let base := pc / 32 * 32
    let st : Stream := { own := own, apart := c.sys.apart, no := c.sys.lineNo, sync := bit (c.imem base) 2, base := base,
                         note := c.block.isSome }
    match routeLanes c st (c.imem base) 8 (pc % 32 / 4) { loops := (x.loop0, x.loop1), next := (base + 32) % laneSpace + 4,
                                                           taken := x.goto.map BitVec.toNat } with
    | none => s
    | some p => if roomForLine c p then s.putCore n (c.applyPlan own p) else s

/-! ## Transfers resolved at issue (R197) -/

/-- A lane of the line fetched last resolves: taken, fetch goes to its target and nothing after it moves fetch; not taken, it no
longer holds fetch. A lane that follows a taken transfer changes nothing. Where fetch was to go on in that line, behind a write of LOOP, its lanes
are routed first. -/
def Cluster.resolve (x : Cluster) (line : Nat) (addr : LaneAddr) (target : Option Nat) : Cluster :=
  if x.xline ≠ line || !x.xfers.contains addr then x
  else match target with
  | some t =>
    if x.fpc.toNat / 32 = addr.toNat / 32 && addr < x.fpc && x.xfers.getLast?.any (fun a => addr < a && a < x.fpc) then
      { x with goto := some (BitVec.ofNat 17 t), xfers := [] }
    else { x with fpc := BitVec.ofNat 17 t, jumped := true, xfers := [] }
  | none => { x with xfers := x.xfers.filter (fun a => a ≠ addr) }

/-- The stream the current lane belongs to. -/
def State.streamOf (s : State) (cl : Cl) : Cl := if s.cc.sys.apart then cl else .K

def State.resolve (s : State) (cl : Cl) (target : Option Nat) : State :=
  let own := s.streamOf cl
  s.putCluster s.curCore own ((s.cluster s.curCore own).resolve s.cur.line s.cur.addr target)

end Sys2Proof.Machine
end

