-- ==== Sys2Proof/Machine/Operands.lean ====
section
/-! DEFINITION. The operand forms every family shares: branch conditions, and the loads and stores of a lane through its
address, its page and its watch regions (08 R207; 09 R236; 10 R264; 01 R34, R35). -/

namespace Sys2Proof.Machine
open Sys2Proof

/-- KB cond (08 R207). -/
def condHolds (k : Nat) (a b : W64) : Bool :=
  match k with
  | 0 => a == b
  | 1 => a != b
  | 2 => decide (sgn a < sgn b)
  | 3 => decide (sgn b ≤ sgn a)
  | 4 => decide (a.toNat < b.toNat)
  | _ => decide (b.toNat ≤ a.toNat)

/-- The watch agent of a cluster's own accesses. -/
def agentOf : Cl → Nat
  | .K => agentK
  | .L => agentL
  | _ => agentS

/-- Sign- or zero-extension of n loaded bytes to 64 bits. -/
def extendLoad (n : Nat) (isSigned : Bool) (bs : List Byte) : W64 :=
  let v := ofBytes bs
  if isSigned then trunc64 (signed (8 * n) v) else BitVec.ofNat 64 v

/-- Trunc64(base + off × unit). -/
def effAddr (base : W64) (off : Int) (unit : Nat) : Nat := (base + trunc64 (off * unit)).toNat

/-- The checks of a lane's access of n bytes at va, and its pages: alignment, R35, then the watch regions' read matches. -/
def accessCheck (s : State) (cl : Cl) (path : Path) (va n align : Nat) (reads : Bool) : Chk (List Piece) := do
  let c := s.cc
  if va % align ≠ 0 then badAlign va
  else
    let ps ← translateRange s c.ctx c.sys.sv path anyFmt va n
    if reads then watchRead s s.curCore cl (agentOf cl) [(va, n)]
    .ok ps

def isCtlPiece (ps : List Piece) : Option Nat :=
  match ps with
  | p :: _ => if p.place.mt = 5 then some p.place.pa else none
  | [] => none

/-- A lane's load of n bytes: the bytes, and the state with the translation cached. -/
def loadAt (s : State) (cl : Cl) (path : Path) (va n align : Nat) : Chk (List Byte × State) := do
  let ps ← accessCheck s cl path va n align true
  match isCtlPiece ps with
  | some pa => .ok (ctlRead s pa n, s)
  | none => do
    let bs ← readPieces s s.cc.ctx ps
    .ok (bs, s.cacheAll s.cc.ctx (ps.map Piece.va))

/-- A lane's store of bytes: the state with memory written, and a write match. -/
def storeAt (s : State) (cl : Cl) (path : Path) (va align : Nat) (bs : List Byte) : Chk (State × Option (W64 × List Nat)) := do
  let ps ← accessCheck s cl path va bs.length align false
  let w := watchWrite s s.curCore cl (agentOf cl) [(va, bs.length)]
  match isCtlPiece ps with
  | some pa =>
    match ctlWrite s pa bs.length (ofBytes bs) with
    | none => .error .wait
    | some s' => .ok (s', w)
  | none => do
    checkWrite s s.cc.ctx ps
    .ok ((s.withMem (writePieces s.mem s.cc.ctx ps bs)).cacheAll s.cc.ctx (ps.map Piece.va), w)

/-- A scalar load into a register of the issuing cluster (09 R236; 10 R271): in flight until its value has arrived. -/
def loadScalar (s : State) (cl : Cl) (va n : Nat) (isSigned : Bool) (put : W64 → Regs → Regs) : Chk Eff := do
  let (bs, s') ← loadAt s cl (.load n) va n n
  .ok { st := s'.putRegs (put (extendLoad n isSigned bs) s'.regs), flight := some .sync }

/-- A scalar store of the low n bytes of a value (09 R236; 10 R274). -/
def storeScalar (s : State) (cl : Cl) (va n : Nat) (v : W64) : Chk Eff := do
  let (s', w) ← storeAt s cl (.store n) va n (bytesOf n v.toNat)
  .ok { st := s', flight := some .sync, watch := w }

end Sys2Proof.Machine
end

