-- ==== Sys2Proof/Machine/Flags.lean ====
section
/-! DEFINITION. The one-bit results of the machine. It has no flag register: a comparison's outcome is a register value, a bit of a
branch-outcome queue or a predicate bit (08 R207; 10 R287; 11 R301), and a branch, a loop and a join act on fetch alone. What all
clusters share of these stands here. -/

namespace Sys2Proof.Machine
open Sys2Proof

/-- a + 4 × SignExtend(off), modulo the instruction memory. -/
def State.laneTarget (s : State) (off : Int) : Nat := laneOff s.addr off

/-- The state once a conditional branch has resolved. -/
def State.branch (s : State) (cl : Cl) (taken : Bool) (off : Int) : State :=
  s.resolve cl (if taken then some (s.laneTarget off) else none)

/-- A mode rule of 06 R151, R154, R155: reason 0x17. -/
def needApart (s : State) (b : Bool) : Chk Unit := needOp (s.cc.sys.apart == b) s.addr 0x17

/-- One more loop level: START at lane 1 of the next line, END a + 4 × off (09 R242; 10 R290; 11 R317). DESIGN CHOICE (log 104). -/
def State.startLoop (s : State) (cl : Cl) (off count : Nat) : Chk State := do
  let own := s.streamOf cl
  let x := s.cluster s.curCore own
  let start := s.addr / 32 * 32 + 36
  let last := s.addr + 4 * off
  needOp (decide (off ≠ 0) && decide (start ≤ last) && decide (last % 32 ≠ 0)) s.addr 0x11
  needOp (!(loopActive x.loop0 && loopActive x.loop1)) s.addr 0x11
  if count = 0 then .ok (s.resolve cl (some (nextLane (last % laneSpace))))
  else
    let v := loopWord64 (start % laneSpace) (last % laneSpace) count
    let x1 := if loopActive x.loop0 then { x with loop1 := v } else { x with loop0 := v }
    .ok ((s.putCluster s.curCore own x1).resolve cl none)

/-- A count register, saturated at 2^32 − 1. -/
def loopCountOf (v : W64) : Nat := min v.toNat (2 ^ 32 - 1)

/-- The stream of L, C or S ends (06 R155). -/
def State.endStream (s : State) (cl : Cl) : State :=
  s.putCluster s.curCore cl { s.cluster s.curCore cl with joined := true }

end Sys2Proof.Machine
end

