-- ==== Sys2Proof/Machine/KTask.lean ====
section
/-! DEFINITION. K: spawn, kill, scope.wait, the weir instructions, yield, halt and trap (09 R246 to R252; 04 R119 to R123; 06 R168). -/

namespace Sys2Proof.Machine
open Sys2Proof

/-! ## Spawn (R246) -/

/-- The running task of the current core; a lane of a core that has none waits. -/
def State.needTask (s : State) : Chk Task :=
  match s.cc.sys.task with
  | some t => .ok t
  | none => .error .wait

/-- The eight words at an address, on the scalar load path; no region watches them (14 R387). -/
def spawnWords (s : State) (va : Nat) : Chk (List W64) := do
  let ps ← translateRange s s.cc.ctx s.cc.sys.sv (.load 8) anyFmt va 64
  let bs ← readPieces s s.cc.ctx ps
  .ok (words64 8 bs)

/-- The domain code of work spawned at a level (13 R345). -/
def spawnDomain (g : Option Graph) (level d : Nat) : Nat :=
  if d = 15 then
    (match g with
      | some x => levelDomain x.word7 level
      | none => 0)
  else d

/-- A nest of the next level, under a scope of its own (13 R341, R343, R462). -/
def spawnedNest (s : State) (n : Nat) (t : Task) (ws : List W64) (scope : W16) : Nest :=
  { desc := ws, ctx := t.ctx, scope := scope, graph := t.graph, node := none, owner := t.owner, level := t.level + 1, anchor := n,
    domain := spawnDomain (s.graph? t.graph) (t.level + 1) (nestDomain ws), prio := t.prio }

/-- The child's scope: a child of the task's own, at the callboard of the spawning core's die; the lane waits for an index. -/
def State.spawnScope (s : State) (t : Task) (curtain : Nat) : Chk (W16 × State) :=
  match s.newScope (dieOfCore s.curCore) t.ctx t.scope (some (BitVec.ofNat 64 curtain)) with
  | some r => .ok r
  | none => .error .wait

def State.spawnNest (s : State) (t : Task) (va : Nat) : Chk (W16 × State) := do
  let ws ← spawnWords s va
  needOp (bits (wordAt ws 0) 63 62 = 0 && !nestMalformed false ws) s.addr 0x11
  let (id, s1) ← s.spawnScope t (wordAt ws 7)
  .ok (id, { s1 with nests := Map.set s1.nests (nextKey s1.nests) (spawnedNest s1 s1.curCore t ws id) })

/-- A graph of the next level, with what its launch's root record fixed (13 R344, R355). -/
def spawnedGraph (s : State) (n : Nat) (t : Task) (va : Nat) (ws : List W64) (nnodes : Nat) (scope : W16) : Graph :=
  let base := (s.graph? t.graph).getD (rootGraph (dieOfCore n) t.ctx 0 [] scope t.graph)
  { base with va := BitVec.ofNat 64 va, die := dieOfCore n, scope := scope, level := t.level + 1, anchor := n, nnodes := nnodes, words := ws,
              nodes := [], settled := none, halted := false, parking := false, parked := false, byCallboard := false, parent := none,
              spawner := some t.graph, hostSeq := none, cones := [], firstFault := none, quiet := none }

/-- The graph put in hand by a lane, which waits itself for a page that the sequencer needs. -/
def State.startSpawned (s : State) (x : Graph) (ns : List (List W64)) : Chk State :=
  let s1 := (s.withSys { s.sys with refused := [] }).startGraph (nextKey s.graphs) x ns
  match s1.blocked with
  | some h => .error h
  | none => .ok (s1.withSys { s1.sys with refused := s.sys.refused })

/-- The records are read as the lane's scalar loads would be, a supervisor's too (R246). -/
def State.spawnGraph (s : State) (t : Task) (va : Nat) : Chk (W16 × State) :=
  match launchRecordsAs (s.withSys { s.sys with refused := [] }) t.ctx s.cc.sys.sv va false with
  | .error .malformed => do
    needOp false s.addr 0x11
    .error .wait
  | .error (.unread h) => .error h
  | .ok (ws, ns) => do
    let (id, s1) ← s.spawnScope t (wordAt ws 4 + 64 * ns.length)
    let s2 ← s1.startSpawned (spawnedGraph s1 s1.curCore t va ws ns.length id) ns
    .ok (id, s2)

def kSpawn (d a : BitVec 5) (make : State → Task → Nat → Chk (W16 × State)) (s : State) : Out :=
  issuePlain .K (.ok ()) (do
    let t ← s.needTask
    let va := (s.regs.getX a.toNat).toNat
    needOp (decide (t.level < 7)) s.addr 0x11
    if va % 64 ≠ 0 then badAlign va
    else do
      let (id, s1) ← make s t va
      .ok { st := (s1.cacheAll t.ctx [va]).putRegs (s1.regs.setX d.toNat (id.setWidth 64)), flight := some .sync }) s

def execSpawn (d a : BitVec 5) (s : State) : Out := kSpawn d a State.spawnNest s
def execSpawnG (d a : BitVec 5) (s : State) : Out := kSpawn d a State.spawnGraph s

/-! ## Scopes (R247, R248) -/

def privHalt : Halt := .trap .priv 0

/-- A scope of another context, to any mode; a scope outside the task's own subtree, to a task. -/
def killAllowed (s : State) (t : Task) (id : W16) : Bool :=
  match s.scope? id with
  | none => true
  | some sc => decide (sc.ctx = t.ctx) && (s.cc.sys.sv || s.under id t.scope)

/-- A handler that kills its own task's scope ends the trap it handles: the owning node faults with that trap (13 R353, R462), and the
curtain of a spawned scope says KILLED (13 R366). -/
def State.killBy (s : State) (t : Task) (id : W16) : State :=
  match s.cc.sys.handled with
  | some trap => if s.cc.sys.sv && id = t.scope && s.liveScope id && !killingScope s id then s.endTask s.curCore trap else s.superKill id
  | none => if s.cc.sys.sv then s.superKill id else s.kill id .killed

/-- The faults that a supervisor's kill makes. -/
def killFaults (s : State) (t : Task) (id : W16) : List ((Nat × Nat) × Untold) :=
  match s.cc.sys.handled with
  | some trap =>
    if id = t.scope then (t.owner.map fun p => (p, ({ trap := trap, tid := t.tid.toNat, core := s.curCore, hard := false } : Untold))).toList
    else (nodesOf s id).map fun p => (p, killedNode s p.1)
  | none => (nodesOf s id).map fun p => (p, killedNode s p.1)

def execKill (a : BitVec 5) (s : State) : Out :=
  issuePlain .K (.ok ()) (do
    let t ← s.needTask
    let id := BitVec.ofNat 16 (s.regs.getX a.toNat).toNat
    need (killAllowed s t id) privHalt
    let s1 := s.killBy t id
    match s.blocked, s1.blocked with
    | none, some h => pureEff ((s.waitFor h).killUntold id (killFaults s t id))
    | _, _ => pureEff s1) s

/-- The scope a wait names: a child of the task's own in task mode, and any kept scope of the context for a supervisor. -/
def waitScope (s : State) (t : Task) (id : W16) : Chk Scope :=
  match s.scope? id with
  | none => if s.cc.sys.sv then .error (.trap .illegalOp (BitVec.ofNat 64 (0x11 * 2 ^ 56 + s.addr))) else .error privHalt
  | some sc =>
    if sc.ctx ≠ t.ctx then .error privHalt
    else if !s.cc.sys.sv && (sc.parent ≠ some t.scope || !sc.kept) then .error privHalt
    else if s.cc.sys.sv && !sc.kept then .error (.trap .illegalOp (BitVec.ofNat 64 (0x11 * 2 ^ 56 + s.addr)))
    else .ok sc

def execScopeWait (d a : BitVec 5) (s : State) : Out :=
  issuePlain .K (.ok ()) (do
    let t ← s.needTask
    let id := BitVec.ofNat 16 (s.regs.getX a.toNat).toNat
    let sc ← waitScope s t id
    need (if sc.killing then sc.written else s.gone id) .wait
    let s1 := if sc.parent = some t.scope then s.putScope id { sc with kept := false } else s
    pureEff (s1.putRegs (s1.regs.setX d.toNat (boolW sc.killing)))) s

/-! ## Weirs (R249; 04 R119 to R123) -/

/-- The fields of a weir (R119). -/
structure Weir where
  w0 : Nat
  w1 : Nat

def Weir.gen (w : Weir) : Nat := bits w.w0 47 32
def Weir.members (w : Weir) : Nat := bits w.w0 31 16
def Weir.arrived (w : Weir) : Nat := bits w.w0 15 0
def Weir.phase (w : Weir) : Nat := bits w.w1 63 32
def Weir.dropped (w : Weir) : Nat := bits w.w1 31 0

/-- The weir word (GEN, PHASE). -/
def Weir.word (w : Weir) : Nat := w.gen * 2 ^ 32 + w.phase

/-- A valid weir: V set, a scope of 2 to 6, and no reserved bit. -/
def weirOk (bs : List Byte) : Bool :=
  let w0 := ofBytes (bs.take 8)
  bit w0 63 && decide (2 ≤ bits w0 62 59) && decide (bits w0 62 59 ≤ 6) && decide (bits w0 58 48 = 0) && (bs.drop 16).all (· = 0)

/-- WeirJoin: none where MEMBERS is full. -/
def Weir.join (w : Weir) : Option Weir :=
  if w.members = 65535 then none else some { w with w0 := setBits w.w0 31 16 (w.members + 1) }

/-- A stale signal counts in the weir. -/
def Weir.stale (w : Weir) : Weir := { w with w1 := setBits w.w1 31 0 (min (w.dropped + 1) (2 ^ 32 - 1)) }

/-- WeirArrive: whether the signal was stale, and the weir after it. -/
def Weir.arrive (w : Weir) (gen : Nat) (drop : Bool) : Bool × Weir :=
  if w.gen ≠ gen then (true, w.stale)
  else
    let members := if drop && w.members > 0 then w.members - 1 else w.members
    let a := w.arrived + 1
    if a ≥ members then
      (false, { w0 := setBits (setBits w.w0 31 16 members) 15 0 0, w1 := setBits w.w1 63 32 (w.phase + 1) })
    else (false, { w with w0 := setBits (setBits w.w0 31 16 members) 15 0 a })

def Weir.bytes (w : Weir) : List Byte := bytesOf 8 w.w0 ++ bytesOf 8 w.w1

def weirAt (bs : List Byte) : Weir := { w0 := ofBytes (bs.take 8), w1 := ofBytes ((bs.drop 8).take 8) }

/-- The weir written back: its line is allocated from now on (R122). -/
def Memory.putWeir (m : Memory) (ctx : W16) (pa : Nat) (w : Weir) : Memory :=
  let m1 := m.write ctx 0 pa w.bytes
  { m1 with weirs := setIns m1.weirs pa }

/-- The weir of a lane: its checks, its place, and the match of a region that watches its write (14 R387). -/
def weirCheck (s : State) (va : Nat) : Chk (Place × Weir × Option (W64 × List Nat)) := do
  if va % 64 ≠ 0 then badAlign va
  else do
    let p ← translate s s.cc.ctx s.cc.sys.sv .weir anyFmt va
    watchRead s s.curCore .K agentK [(va, 16)]
    awake s p.pa
    match s.mem.read s.cc.ctx p.key p.pa 64 with
    | none => .error (.poison s.cc.ctx p.pa)
    | some bs =>
      if weirOk bs then .ok (p, weirAt bs, watchWrite s s.curCore .K agentK [(va, 16)]) else badPerm 0x13 va

/-- The state once a lane's weir operation has been performed. -/
def State.weirDone (s : State) (va pa : Nat) (w : Weir) : State := (s.withMem (s.mem.putWeir s.cc.ctx pa w)).cacheAll s.cc.ctx [va]

/-- A stale signal of this core's own lane counts in WEIR_STALE. -/
def State.countStale (s : State) : State :=
  let c := s.cc
  s.putCc { c with csr := { c.csr with weirStale := if c.csr.weirStale.toNat = 2 ^ 32 - 1 then c.csr.weirStale else c.csr.weirStale + 1 } }

def State.putWeirs (s : State) (ws : List (W64 × W16)) : State :=
  let c := s.cc
  s.putCc { c with mem := { c.mem with weirs := ws } }

def weirEff (s : State) (d : Nat) (v : Nat) (w : Option (W64 × List Nat)) : Eff :=
  { st := s.putRegs (s.regs.setX d (BitVec.ofNat 64 v)), flight := some .sync, watch := w }

def execWeirJoin (d a : BitVec 5) (s : State) : Out :=
  issuePlain .K (.ok ()) (do
    let va := s.regs.getX a.toNat
    let (p, w, watch) ← weirCheck s va.toNat
    if s.cc.mem.weirs.length ≥ 8 then badPerm 0x13 va.toNat
    else match w.join with
    | none => badPerm 0x13 va.toNat
    | some w1 =>
      let s1 := (s.weirDone va.toNat p.pa w1).putWeirs (s.cc.mem.weirs ++ [(va, BitVec.ofNat 16 w.gen)])
      .ok (weirEff s1 d.toNat w.word watch)) s

/-- `weir.arrive` and `weir.drop` : the word returned has bit 63 set when the signal was stale. DEDUCED (log 59). -/
def weirSignal (d a b : BitVec 5) (drop : Bool) (s : State) : Out :=
  issuePlain .K (.ok ()) (do
    let va := s.regs.getX a.toNat
    let gen := bits (s.regs.getX b.toNat).toNat 47 32
    let (p, w, watch) ← weirCheck s va.toNat
    let (isStale, w1) := w.arrive gen drop
    let s1 := s.weirDone va.toNat p.pa w1
    let s2 := if isStale then s1.countStale else s1
    let s3 := if drop then s2.putWeirs (s2.cc.mem.weirs.erase (va, BitVec.ofNat 16 gen)) else s2
    .ok (weirEff s3 d.toNat (boolNat isStale * 2 ^ 63 + w.word) watch)) s

def execWeirArrive (d a b : BitVec 5) (s : State) : Out := weirSignal d a b false s
def execWeirDrop (d a b : BitVec 5) (s : State) : Out := weirSignal d a b true s

/-- A wait that holds its lane is an operation on the weir already: its line is allocated (04 R122). -/
def State.weirWaits (s : State) (va v : Nat) : State :=
  match weirCheck s va with
  | .ok (p, w, _) =>
    if w.gen = bits v 47 32 && w.phase = bits v 31 0 then s.withMem { s.mem with weirs := setIns s.mem.weirs p.pa } else s
  | .error _ => s

def execWeirWait (d a b : BitVec 5) (s0 : State) : Out :=
  let s := s0.weirWaits (s0.regs.getX a.toNat).toNat (s0.regs.getX b.toNat).toNat
  issuePlain .K (.ok ()) (do
    let va := s.regs.getX a.toNat
    let v := (s.regs.getX b.toNat).toNat
    let (p, w, watch) ← weirCheck s va.toNat
    if w.gen ≠ bits v 47 32 then
      .ok (weirEff ((s.weirDone va.toNat p.pa w.stale).countStale) d.toNat 1 watch)
    else do
      need (decide (w.phase ≠ bits v 31 0)) .wait
      .ok (weirEff (s.weirDone va.toNat p.pa w) d.toNat 0 watch)) s

/-! ## Yield and halt (R250, R251; 06 R168) -/

/-- A lane routed before the current one. -/
def Entry.before (e : Entry) (s : State) : Bool :=
  e.mark.isNone && (decide (e.line < s.cur.line) || (decide (e.line = s.cur.line) && decide (e.addr.toNat < s.cur.addr.toNat)))

/-- Every earlier lane of all four clusters has completed, and every command has been accepted and completed. -/
def State.quiesced (s : State) : Bool :=
  let c := s.cc
  allCl.all (fun cl => (c.cluster cl).flights.isEmpty && (decide (cl = .K) || !(c.cluster cl).iq.any (fun e => e.before s)))
    && c.mem.streamL.isEmpty && c.mem.streamS.isEmpty && c.cmds.isEmpty && c.mem.remote.all (fun o => o.dead)
    && !(s.bay (bayOfCore s.curCore)).jobs.any (fun j => j.core = some s.curCore)

/-- The queues and cue FIFOs in which something is left (R168). -/
def leftover (c : Core) : Nat :=
  ((List.range 16).foldl (fun a q => if (c.headOf q).isSome || (c.queue q).ring ≠ [] then a + 2 ^ q else a) 0)
    + ((List.range 4).foldl (fun a f => if c.cueVisible f then a + 2 ^ (16 + f) else a) 0)

def needEmpty (c : Core) : Chk Unit := need (decide (leftover c = 0)) (.trap .queueProtocol (BitVec.ofNat 64 (leftover c)))

/-- A task the callboard holds that has not yet started and that this core may run, at the running node's priority or above (R250). -/
def readyFor (s : State) (n : Nat) (t : Task) : Bool :=
  let own := match t.owner with
    | some (g, i) => max t.prio (s.node g i).raised
    | none => t.prio
  let nest := fun (e : Nat × Nest) =>
    inDomain e.2.domain e.2.anchor n && nestOpen s e.2 && e.2.capFree && decide (nestPrio s e.2 ≥ own)
      && (decide (e.2.queued ≠ []) || decide (e.2.next < e.2.total) || e.2.requeued.any fun p => p.area.isNone)
  let fetched := fun (p : Task) =>
    p.area.isNone && decide ((match p.owner with
      | some (g, i) => max p.prio (s.node g i).raised
      | none => p.prio) ≥ own)
  s.nests.any nest || (s.core n).sys.prefetch.any fetched

def execYield (s : State) : Out :=
  issuePlain .K (.ok ()) (
    if s.cc.sys.apart then pureEff s
    else do
      let t ← s.needTask
      need s.quiesced .wait
      needEmpty s.cc
      let s1 := s.releaseLease s.curCore
      pureEff (if readyFor s1 s1.curCore t && !s1.cc.sys.sv then s1.requestStop s1.curCore .yield else s1)) s

/-- No failure report of the task is on its way and no cluster has stopped on a trap: these reach the handler before the task ends
(04 R102; 13 R370). DEDUCED (log 18). -/
def State.noReport (s : State) : Bool := decide (s.cc.mem.reports = []) && allCl.all fun cl => (s.cc.cluster cl).stopped.isNone

/-- The task ends: it retires at TASK_RETIRE. Memberships still held are forgotten (R249). -/
def State.endLane (s : State) : State :=
  let c := (s.resolve .K none).cc
  s.putCc { c with mem := { c.mem with weirs := [] }, sys := { c.sys with halting := true } }

def execHalt (s : State) : Out :=
  issuePlain .K (do
    needApart s false
    needOp (!s.cc.sys.sv) s.addr 0x11) (do
      need s.quiesced .wait
      need s.noReport .wait
      needEmpty s.cc
      pureEff s.endLane) s

/-! ## Trap (R252) -/

/-- The lane completes, and BREAK is raised behind it: K's PC is the lane after it. A write match of an earlier lane of K comes first (14 R392). -/
def execTrap (k : BitVec 12) (s : State) : Out :=
  if s.cc.k.flights.any fun f => f.watch.isSome then .next s
  else
  let l := (s.cluster s.curCore .K).iseq
  let t : Trap := { cause := .break, info := k.setWidth 64, lseq := l, next := some (BitVec.ofNat 17 (nextLane s.addr)) }
  .next ((finish s.curCore .K 0 [] { st := s }).raise s.curCore .K t)

end Sys2Proof.Machine
end

