-- ==== Sys2Proof/Machine/KSys.lean ====
section
/-! DEFINITION. K: the CSR instructions, fences, generations and ticks (09 R253 to R260; 06 R159, R160, R164). -/

namespace Sys2Proof.Machine
open Sys2Proof

/-! ## CSR numbers (R254) -/

def csrListed (r : Nat) : Bool :=
  decide (r ≤ 0x005) || (decide (0x008 ≤ r) && decide (r ≤ 0x012)) || (decide (0x014 ≤ r) && decide (r ≤ 0x017))
    || (decide (0x020 ≤ r) && decide (r ≤ 0x023)) || (decide (0x040 ≤ r) && decide (r ≤ 0x057))
    || (decide (0x120 ≤ r) && decide (r ≤ 0x130))

/-- Reserved to supervisors: a dash in the task column. -/
def csrSv (r : Nat) : Bool :=
  (decide (0x00A ≤ r) && decide (r ≤ 0x017)) || r = 0x022 || r = 0x023 || (decide (0x040 ≤ r) && decide (r ≤ 0x057))

/-- Read-only in a mode. -/
def csrRo (sv : Bool) (r : Nat) : Bool :=
  decide (r ≤ 0x002) || (r = 0x003 && !sv) || r = 0x004 || r = 0x020 || r = 0x021 || r = 0x130

/-- The reads that deterministic mode forbids (R260). -/
def csrNondet (r : Nat) : Bool := r = 0x004 || r = 0x130 || r = 0x005

/-! ## Reading -/

def statusWord (c : Core) : W64 :=
  BitVec.ofNat 64 (boolNat c.sys.apart * 32 + boolNat c.audit * 16 + boolNat c.det * 8 + boolNat c.sys.sv)

def cueStateWord (c : Core) : W64 :=
  BitVec.ofNat 64 (joinNat 8 ((List.range 4).map fun f => ((c.cue f).length - c.visTokens f) * 16 + c.visTokens f))

/-- LOOP of a cluster at its next lane to issue (R243). -/
def State.loopsOf (s : State) (cl : Cl) : W64 × W64 := if cl = .K then s.cur.loops else (s.cc.cluster cl).loops

def loopCsr (r : Nat) : Cl × Nat := (allCl.getD ((r - 8) / 2) .K, r % 2)

def taskField (c : Core) (f : Task → Nat) : W64 :=
  match c.sys.task with
  | some t => BitVec.ofNat 64 (f t)
  | none => 0

def csrRead (s : State) (r : Nat) : W64 :=
  let c := s.cc
  if r = 0x000 then statusWord c
  else if r = 0x001 then taskField c fun t => t.tid.toNat
  else if r = 0x002 then taskField c fun t => t.scope.toNat
  else if r = 0x003 then c.csr.gen.setWidth 64
  else if r = 0x004 then s.sys.frame
  else if r = 0x005 then c.csr.weirStale.setWidth 64
  else if r ≤ 0x00F then
    let (cl, l) := loopCsr r
    if l = 0 then (s.loopsOf cl).1 else (s.loopsOf cl).2
  else if r = 0x010 then c.csr.tvec
  else if r = 0x011 then c.csr.trapcause
  else if r = 0x012 then c.csr.trapinfo
  else if r ≤ 0x017 then vget 0 c.csr.cut (r - 0x014)
  else if r = 0x020 then taskField c fun t => detMode t.lcores t.det t.tt
  else if r = 0x021 then taskField c fun t => t.manifest.toNat
  else if r = 0x022 then (s.die (dieOfCore s.curCore)).ageLimit.setWidth 64
  else if r = 0x023 then (s.die (dieOfCore s.curCore)).preemptLimit
  else if r ≤ 0x047 then vget 0 c.csr.watchBase (r - 0x040)
  else if r ≤ 0x04F then vget 0 c.csr.watchShape (r - 0x048)
  else if r ≤ 0x057 then vget 0 c.csr.watchCtl (r - 0x050)
  else if r ≤ 0x12F then (c.queue (r - 0x120)).cfg
  else cueStateWord c

/-! ## Writing -/

/-- A LOOP value as it is kept: bit 62 zero, and A cleared where START or END does not fit (R256). -/
def loopKept (v : W64) : W64 :=
  let n := v.toNat
  let v1 := BitVec.ofNat 64 (setBits n 62 62 0)
  if bit n 63 && (loopStart v % 32 ≠ 4 || loopEnd v < loopStart v) then BitVec.ofNat 64 (setBits (setBits n 62 62 0) 63 63 0) else v1

def Cluster.putLoop (x : Cluster) (level : Nat) (v : W64) : Cluster := if level = 0 then { x with loop0 := v } else { x with loop1 := v }

/-- Fetch that stopped at the current lane goes on at the lane after it, under the loop state that lane held (R243). DEDUCED (log 71). -/
def State.refetch (s : State) : State :=
  let own := s.streamOf .K
  let x := s.cluster s.curCore own
  if x.xline ≠ s.cur.line || !x.xfers.contains s.cur.addr then s
  else
    let x1 := { x with fpc := BitVec.ofNat 17 (nextLane s.addr), jumped := false, xfers := x.xfers.filter (fun a => a ≠ s.cur.addr) }
    let undo := decide ((passEnd s.cur.loops s.addr).1 = (x.loop0, x.loop1))
    s.putCluster s.curCore own (if undo then { x1 with loop0 := s.cur.loops.1, loop1 := s.cur.loops.2 } else x1)

def State.writeLoop (s : State) (n : Nat) (cl : Cl) (level : Nat) (v : W64) : State :=
  s.putCluster n cl ((s.cluster n cl).putLoop level (loopKept v))

def qcfgMask : Nat := 0x8FF00FFFFFFFFFFF

/-- A write to QCFG_q (06 R159, R160). -/
def State.writeQcfg (s : State) (n q : Nat) (v : W64) : Chk State := do
  let c := s.core n
  let x := c.queue q
  needQueue (x.chip.isEmpty && x.ring.isEmpty) q
  if queueBranch q then .ok s
  else
    let w := maskWrite 0 v.toNat qcfgMask
    let base := bits w.toNat 43 0 * 4096
    if bit w.toNat 63 then do
      let ps ← translateRange s c.ctx c.sys.sv (.ring (bayOfCore n)) anyFmt base ((bits w.toNat 59 56 + 1) * 4096)
      let y : Queue := { x with cfg := w, head := 0, tail := 0, pages := ps.map fun p => p.place.pa }
      .ok (s.putCore n (c.putQueue q y))
    else .ok (s.putCore n (c.putQueue q { x with cfg := w, head := 0, tail := 0, pages := [] }))

def trapcauseMask : Nat := 0xBFFF
def tvecMask : Nat := 0xFFFFFFFFFFFFFFE0
def cutMask : Nat := 0x800FFFFFFFFFFFFF
def watchBaseMask : Nat := 0x00FFFFFFFFFFFFFF
def watchCtlMask : Nat := 0x100FF

/-- WATCH_CTL: HIT is cleared by a 1. -/
def watchCtlWrite (old new : W64) : W64 :=
  let hit := bits old.toNat 15 15 * (1 - bits new.toNat 15 15)
  BitVec.ofNat 64 (setBits (maskWrite 0 new.toNat watchCtlMask).toNat 15 15 hit)

def State.putCsr (s : State) (f : Csrs → Csrs) : State := s.putCc { s.cc with csr := f s.cc.csr }

def State.putDieCsr (s : State) (f : Die → Die) : State := s.putDie (dieOfCore s.curCore) (f (s.die (dieOfCore s.curCore)))

def csrWrite (s : State) (r : Nat) (v : W64) : Chk State :=
  if r = 0x003 then .ok (s.putCsr fun c => { c with gen := BitVec.ofNat 4 v.toNat })
  else if r = 0x005 then .ok (s.putCsr fun c => { c with weirStale := BitVec.ofNat 32 v.toNat })
  else if r ≤ 0x00F then .ok (s.refetch.writeLoop s.curCore (loopCsr r).1 (loopCsr r).2 v)
  else if r = 0x010 then .ok (s.putCsr fun c => { c with tvec := maskWrite 0 v.toNat tvecMask })
  else if r = 0x011 then .ok (s.putCsr fun c => { c with trapcause := maskWrite 0 v.toNat trapcauseMask })
  else if r = 0x012 then .ok (s.putCsr fun c => { c with trapinfo := v })
  else if r ≤ 0x017 then .ok (s.putCsr fun c => { c with cut := c.cut.setIfInBounds (r - 0x014) (maskWrite 0 v.toNat cutMask) })
  else if r = 0x022 then .ok (s.putDieCsr fun d => { d with ageLimit := BitVec.ofNat 32 v.toNat })
  else if r = 0x023 then .ok (s.putDieCsr fun d => { d with preemptLimit := v })
  else if r ≤ 0x047 then
    .ok (s.putCsr fun c => { c with watchBase := c.watchBase.setIfInBounds (r - 0x040) (maskWrite 0 v.toNat watchBaseMask) })
  else if r ≤ 0x04F then .ok (s.putCsr fun c => { c with watchShape := c.watchShape.setIfInBounds (r - 0x048) v })
  else if r ≤ 0x057 then
    .ok (s.putCsr fun c => { c with watchCtl := c.watchCtl.setIfInBounds (r - 0x050) (watchCtlWrite (vget 0 c.watchCtl (r - 0x050)) v) })
  else s.writeQcfg s.curCore (r - 0x120) v

/-! ## The four forms (R253) -/

/-- The checks of R253, in order. DESIGN CHOICE (log 57). -/
def csrChecks (s : State) (writes : Bool) (r : Nat) : Chk Unit := do
  needOp (csrListed r) s.addr 0x11
  needOp (!writes || !csrRo s.cc.sys.sv r) s.addr 0x11
  need (s.cc.sys.sv || !csrSv r) privHalt
  need (!(s.cc.det && csrNondet r)) (.trap .nondet 0)

def csrLane (d : BitVec 5) (r : BitVec 12) (new : Option (W64 → W64)) (s : State) : Out :=
  issuePlain .K (csrChecks s new.isSome r.toNat) (do
    let old := csrRead s r.toNat
    let s1 ← (match new with
      | some f => csrWrite s r.toNat (f old)
      | none => .ok s)
    pureEff (s1.putRegs (s1.regs.setX d.toNat old))) s

def execCsrr (d : BitVec 5) (r : BitVec 12) (s : State) : Out := csrLane d r none s
def execCsrw (d a : BitVec 5) (r : BitVec 12) (s : State) : Out := csrLane d r (some fun _ => s.regs.getX a.toNat) s
def execCsrs (d a : BitVec 5) (r : BitVec 12) (s : State) : Out := csrLane d r (some fun old => old ||| s.regs.getX a.toNat) s
def execCsrc (d a : BitVec 5) (r : BitVec 12) (s : State) : Out := csrLane d r (some fun old => old &&& ~~~(s.regs.getX a.toNat)) s

/-! ## Fences (R257) -/

/-- No packet of the context is unacknowledged. -/
def ueQuiet (s : State) (ctx : W16) : Bool := !s.fab.endpoints.any fun e => e.2.ctx = ctx && e.2.descs.any fun d => decide (d.unacked ≠ [])

/-- The agents of a launch: the clusters of the cores that run its tasks, and the engines and arrays of their bays while they work for it
(03 R77). -/
def launchAgents (s : State) (launch : Nat) : List Agent :=
  let mine (g : Nat) : Bool := decide (launchOf s g = launch)
  let cores := (s.cores.filter fun (c : Nat × Core) => (c.2.sys.task.map fun t => mine t.graph).getD false).map Prod.fst
  let bays := (cores.map bayOfCore).eraseDups
  cores.flatMap (fun n => allCl.map (.cluster n))
    ++ (bays.filter fun b => (s.bay b).jobs.any fun j => (j.core.map cores.contains).getD ((j.node.map fun x => mine x.1).getD false)).map .engine
    ++ (bays.filter fun b => ((s.bay b).holder.map cores.contains).getD false).map .array

/-- The bay in which an agent of the package stands. -/
def Agent.bay? : Agent → Option Nat
  | .cluster n _ => some (bayOfCore n)
  | .engine b => some b
  | .array b => some b
  | _ => none

/-- An agent of the package, other than the host. -/
def Agent.inPackage : Agent → Bool
  | .host => false
  | .far _ => false
  | .peer => false
  | _ => true

/-- An agent is in the scope of an ordering point of a core's cluster; `launch` : the agents of its launch (03 R77). -/
def scopeHas (code core : Nat) (cl : Cl) (launch : List Agent) (a : Agent) : Bool :=
  let near (f : Nat → Bool) : Bool := (a.bay?.map f).getD false
  let b := bayOfCore core
  match code with
  | 0 => a = .cluster core cl
  | 1 => allCl.any fun x => a = .cluster core x
  | 2 => near fun y => decide (y = b)
  | 3 => near fun y => decide (y / 4 = b / 4)
  | 4 => near fun y => decide (y / 72 = b / 72)
  | 5 => a.inPackage
  | 6 => launch.contains a
  | 7 => a.inPackage || decide (a = .host)
  | 8 => a.inPackage || (match a with
    | .far _ => true
    | _ => false)
  | _ => true

/-- Two fences, the first before the second in the SC order, form an SC link (03 R88). -/
def ScFence.links (f g : ScFence) : Bool :=
  scopeHas f.scope f.core .K f.launch (.cluster g.core .K) && scopeHas g.scope g.core .K g.launch (.cluster f.core .K)

/-- K's `fence.sc` takes its place in the SC order. -/
def State.enterScOrder (s : State) (scope : Nat) : State :=
  let launch := match s.cc.sys.task with
    | some t => launchAgents s (launchOf s t.graph)
    | none => []
  s.withSys { s.sys with scOrder := s.sys.scOrder ++ [{ core := s.curCore, scope := scope, launch := launch }] }

/-- K's earlier accesses are performed at their issue; the fence waits for the lanes themselves, and at scope 9 for the network.
DEDUCED (log 72). -/
def fenceLane (scope : BitVec 4) (sc : Bool) (s : State) : Out :=
  issuePlain .K (.ok ()) (do
    need s.cc.k.flights.isEmpty .wait
    need (scope ≠ 9 || ueQuiet s s.cc.ctx) .wait
    pureEff (if sc then s.enterScOrder scope.toNat else s)) s

def execFenceAcq (sc : BitVec 4) (s : State) : Out := fenceLane sc false s
def execFenceRel (sc : BitVec 4) (s : State) : Out := fenceLane sc false s
def execFenceAr (sc : BitVec 4) (s : State) : Out := fenceLane sc false s
def execFenceSc (sc : BitVec 4) (s : State) : Out := fenceLane sc true s

/-! ## Generations (R258) -/

/-- A command of a generation that is unaccepted or incomplete. -/
def genBusy (s : State) (n : Nat) (g : BitVec 4) : Bool :=
  let c := s.core n
  (c.mem.streamL ++ c.mem.streamS).any (fun k => k.gen = g)
    || (s.bay (bayOfCore n)).jobs.any fun j => j.target = n && j.node.isNone && j.gen = g

def execGenFence (s : State) : Out :=
  issuePlain .K (.ok ()) (do
    let c := s.cc
    need (c.sys.apart || !(c.l.iq ++ c.s.iq).any (fun e => e.before s)) .wait
    need (!genBusy s s.curCore (c.csr.gen + 1)) .wait
    pureEff (s.putCsr fun r => { r with gen := r.gen + 1 })) s

/-! ## Ticks (R259) -/

def execTick (d : BitVec 5) (s : State) : Out :=
  issuePlain .K (need (!s.cc.det) (.trap .nondet 0)) (pureEff (s.putRegs (s.regs.setX d.toNat s.sys.frame))) s

def execTickWait (a : BitVec 5) (s : State) : Out :=
  issuePlain .K (.ok ()) (do
    need (decide ((s.regs.getX a.toNat).toNat ≤ s.sys.frame.toNat)) .wait
    pureEff s) s

end Sys2Proof.Machine
end

