-- ==== Sys2Proof/Machine/KErx.lean ====
section
/-! DEFINITION. K: the trees of an audited task: tree.open, tree.seal, tree.note and tree.bisect (15 R407 to R409, R412). -/

namespace Sys2Proof.Machine
open Sys2Proof

/-! ## tree.open (R407) -/

/-- INCOMPLETE at the opening: the clusters whose leaves so far are not mirrored. -/
def incompleteAt (b : TreeBlock) : Nat :=
  boolNat (b.l.hashes ≠ []) + 2 * boolNat (b.c.hashes ≠ []) + 4 * boolNat (b.s.hashes ≠ [])

/-- The 256 bytes of a fresh image header. -/
def imageHeader (t : Task) (cap incomplete : Nat) : List Byte :=
  bytesOf 256 (joinNat 64 [cap * 2 ^ 32 + incomplete, 0, 0, 0, t.nodeId % 4096 * 2 ^ 52 + t.tid.toNat])

def openImage (s : State) (t : Task) (b : TreeBlock) (va cap : Nat) : Chk Eff := do
  if va % 4096 ≠ 0 then badAlign va
  else do
    needOp (decide (1 ≤ cap) && decide (cap ≤ 2 ^ 20)) s.addr 0x11
    needOp b.image.isNone s.addr 0x11
    let ps ← translateRange s t.ctx s.cc.sys.sv (.store 8) anyFmt va (256 + 96 * cap)
    let inc := incompleteAt b
    let img : Image := { va := BitVec.ofNat 64 va, cap := cap, pages := ps.map fun p => (p.place.pa, p.place.key) }
    let m := imageWrite s.mem t.ctx img 0 (imageHeader t cap inc)
    let s1 := (s.withMem m).putCc (s.cc.putBlock { b with image := some img, incomplete := BitVec.ofNat 3 inc })
    .ok { st := s1, flight := some .sync }

/-- The block of an audited task; none in a task whose node has AUDIT 0. -/
def State.audited (s : State) : Option (Task × TreeBlock) :=
  match s.cc.sys.task with
  | some t => t.block.map fun b => (t, b)
  | none => none

def execTreeOpen (a b : BitVec 5) (s : State) : Out :=
  issuePlain .K (needApart s false) (
    match s.audited with
    | none => pureEff s
    | some (t, blk) => openImage s t blk (s.regs.getX a.toNat).toNat (s.regs.getX b.toNat).toNat) s

/-! ## tree.seal (R408) -/

/-- A leaf-bearing lane routed before the current one that has not issued. -/
def leafLanesAhead (s : State) (cl : Cl) : Bool := (s.cc.cluster cl).iq.any fun e => e.before s && bearsLeaf cl e.word.toNat

/-- The appended leaves of the lanes routed before a place, in their order. -/
def Tree.covered (t : Tree) (place : Nat) : List (List Byte) := ((t.hashes.zip t.places).filter fun p => decide (p.2 < place)).map Prod.fst

def Tree.waitsBefore (t : Tree) (place : Nat) : Bool := t.held.any fun l => decide (l.place < place)

def sealReady (s : State) (b : TreeBlock) : Bool :=
  let place := s.cur.place
  [Cl.L, Cl.C, Cl.S].all fun cl => !leafLanesAhead s cl && !(b.tree cl).waitsBefore place

/-- The cluster roots over the leaves of the lanes routed before a place. -/
def TreeBlock.rootsBefore (b : TreeBlock) (place : Nat) : List (List Byte) :=
  [Cl.L, Cl.C, Cl.S].map fun cl => treeRoot ((b.tree cl).covered place)

/-- A tree block that cannot be read ends its task's context (R413). -/
def treeReadable (s : State) (b : TreeBlock) : Chk Unit :=
  match treeBad s b with
  | some u => .error (.poison s.cc.ctx u)
  | none => .ok ()

def execTreeSeal (d : BitVec 5) (s : State) : Out :=
  issuePlain .K (needApart s false) (
    match s.audited with
    | none => pureEff (s.putRegs (s.regs.setX d.toNat 0))
    | some (t, b) => do
      need (sealReady s b) .wait
      treeReadable s b
      let roots := b.rootsBefore s.cur.place
      let s1 := s.withMem (sealImage s.mem t.ctx b roots)
      let v := BitVec.ofNat 64 (ofBytes ((rootsTask roots).take 8))
      .ok { st := s1.putRegs (s1.regs.setX d.toNat v), flight := some .sync }) s

/-! ## tree.note (R409) -/

def execTreeNote (a b : BitVec 5) (s : State) : Out :=
  issuePlain .K (needApart s false) (
    match s.audited with
    | none => pureEff s
    | some _ =>
      let x := bytesOf 8 (s.regs.getX a.toNat).toNat ++ bytesOf 8 (s.regs.getX b.toNat).toNat
      let p := taskLeaf s s.curCore .S 4 (s.cluster s.curCore .K).iseq s.cur.word s.cc.sys.sv
      pureEff (s.putCc (s.cc.noteLeaf s.cur.place ({ p with param := x ++ List.replicate 48 0 }).bytes))) s

/-! ## tree.bisect (R412) -/

/-- Bytes on the scalar load path; no region watches them (14 R387). -/
def imageBytes (s : State) (va n : Nat) : Chk (List Byte) := do
  let ps ← translateRange s s.cc.ctx s.cc.sys.sv (.load 8) anyFmt va n
  readPieces s s.cc.ctx ps

/-- An image's header: its capacity, INCOMPLETE, and its counts. -/
structure ImageHead where
  va : Nat
  cap : Nat
  incomplete : Nat
  counts : List Nat

def imageHead (s : State) (va : Nat) : Chk ImageHead := do
  let bs ← imageBytes s va 32
  let ws := (words64 4 bs).map BitVec.toNat
  .ok { va := va, cap := bits (ws.getD 0 0) 63 32, incomplete := bits (ws.getD 0 0) 2 0, counts := ws.drop 1 }

/-- The first n leaf hashes of cluster k. -/
def imageLeaves (s : State) (h : ImageHead) (k n : Nat) : Chk (List (List Byte)) := do
  let bs ← imageBytes s (h.va + 256 + 32 * (k * h.cap)) (32 * n)
  .ok ((List.range n).map fun i => (bs.drop (32 * i)).take 32)

/-- Descend to the first leaf that differs: levels descended and its index. -/
def bisectDown : Nat → List (List Byte) → List (List Byte) → Nat → Nat → Nat × Nat
  | 0, _, _, d, lo => (d, lo)
  | f + 1, a, b, d, lo =>
    if a.length ≤ 1 then (d, lo)
    else
      let h := 2 ^ Nat.log2 (a.length - 1)
      if treeRoot (a.take h) ≠ treeRoot (b.take h) then bisectDown f (a.take h) (b.take h) (d + 1) lo
      else bisectDown f (a.drop h) (b.drop h) (d + 1) (lo + h)

def bisectWord (code cluster d lo : Nat) : W64 := BitVec.ofNat 64 (code * 2 ^ 62 + cluster * 2 ^ 60 + d * 2 ^ 48 + lo)

def bisectFrom (s : State) (a b : ImageHead) : List Nat → Chk W64
  | [] => .ok 0
  | k :: ks => do
    let na := a.counts.getD k 0
    let nb := b.counts.getD k 0
    let n := min na nb
    let la ← imageLeaves s a k n
    let lb ← imageLeaves s b k n
    if treeRoot la ≠ treeRoot lb then
      let (d, lo) := bisectDown (n + 1) la lb 0 0
      .ok (bisectWord 1 (k + 1) d lo)
    else if na ≠ nb then .ok (bisectWord 2 (k + 1) 0 n)
    else bisectFrom s a b ks

def bisect (s : State) (a b : Nat) : Chk W64 := do
  if a % 4096 ≠ 0 then badAlign a
  else if b % 4096 ≠ 0 then badAlign b
  else do
    let ha ← imageHead s a
    let hb ← imageHead s b
    if ha.incomplete ≠ 0 || hb.incomplete ≠ 0 then .ok (bisectWord 3 0 0 0) else bisectFrom s ha hb [0, 1, 2]

def execTreeBisect (d a b : BitVec 5) (s : State) : Out :=
  issuePlain .K (.ok ()) (do
    let va := s.regs.getX a.toNat
    let vb := s.regs.getX b.toNat
    let w ← bisect s va.toNat vb.toNat
    let s1 := s.cacheAll s.cc.ctx [va.toNat, vb.toNat]
    .ok { st := s1.putRegs (s1.regs.setX d.toNat w), flight := some .sync }) s

end Sys2Proof.Machine
end

