-- ==== Sys2Proof/Machine/KInt.lean ====
section
/-! DEFINITION. K: integer arithmetic and constants (09 R228 to R232). -/

namespace Sys2Proof.Machine
open Sys2Proof

/-- X[d] := f(X[a], X[b]). -/
def aluReg (d a b : BitVec 5) (f : W64 → W64 → W64) (s : State) : Out :=
  issueRegs .K (fun r => r.setX d.toNat (f (r.getX a.toNat) (r.getX b.toNat))) s

/-- X[d] := f(X[a]). -/
def aluOne (d a : BitVec 5) (f : W64 → W64) (s : State) : Out :=
  issueRegs .K (fun r => r.setX d.toNat (f (r.getX a.toNat))) s

/-- Quotients truncate toward zero and saturate; a zero divisor gives the bound of the dividend's sign (09 R228). -/
def divS (a b : W64) : W64 :=
  if b = 0 then (if 0 ≤ sgn a then BitVec.ofNat 64 (2 ^ 63 - 1) else BitVec.ofNat 64 (2 ^ 63))
  else trunc64 (max (-(2 ^ 63)) (min (Int.tdiv (sgn a) (sgn b)) (2 ^ 63 - 1)))

def remS (a b : W64) : W64 := if b = 0 then 0 else trunc64 (sgn a - sgn b * Int.tdiv (sgn a) (sgn b))

def divU (a b : W64) : W64 := if b = 0 then BitVec.ofNat 64 (2 ^ 64 - 1) else BitVec.ofNat 64 (a.toNat / b.toNat)
def remU (a b : W64) : W64 := if b = 0 then 0 else BitVec.ofNat 64 (a.toNat % b.toNat)

/-- The number of leading zero bits. -/
def leadingZeros (a : W64) : Nat := if a = 0 then 64 else 63 - Nat.log2 a.toNat

def sllOp (a : W64) (n : Nat) : W64 := BitVec.ofNat 64 (a.toNat * 2 ^ n)
def srlOp (a : W64) (n : Nat) : W64 := BitVec.ofNat 64 (a.toNat / 2 ^ n)
def sraOp (a : W64) (n : Nat) : W64 := trunc64 (sgn a / (2 ^ n : Nat))

def execAdd (d a b : BitVec 5) (s : State) : Out := aluReg d a b (fun x y => x + y) s
def execSub (d a b : BitVec 5) (s : State) : Out := aluReg d a b (fun x y => x - y) s
def execAnd (d a b : BitVec 5) (s : State) : Out := aluReg d a b (fun x y => x &&& y) s
def execOr (d a b : BitVec 5) (s : State) : Out := aluReg d a b (fun x y => x ||| y) s
def execXor (d a b : BitVec 5) (s : State) : Out := aluReg d a b (fun x y => x ^^^ y) s
def execSll (d a b : BitVec 5) (s : State) : Out := aluReg d a b (fun x y => sllOp x (y.toNat % 64)) s
def execSrl (d a b : BitVec 5) (s : State) : Out := aluReg d a b (fun x y => srlOp x (y.toNat % 64)) s
def execSra (d a b : BitVec 5) (s : State) : Out := aluReg d a b (fun x y => sraOp x (y.toNat % 64)) s
def execSlt (d a b : BitVec 5) (s : State) : Out := aluReg d a b (fun x y => boolW (decide (sgn x < sgn y))) s
def execSltu (d a b : BitVec 5) (s : State) : Out := aluReg d a b (fun x y => boolW (decide (x.toNat < y.toNat))) s
def execMin (d a b : BitVec 5) (s : State) : Out := aluReg d a b (fun x y => if sgn x ≤ sgn y then x else y) s
def execMax (d a b : BitVec 5) (s : State) : Out := aluReg d a b (fun x y => if sgn x ≤ sgn y then y else x) s
def execMinu (d a b : BitVec 5) (s : State) : Out := aluReg d a b (fun x y => if x.toNat ≤ y.toNat then x else y) s
def execMaxu (d a b : BitVec 5) (s : State) : Out := aluReg d a b (fun x y => if x.toNat ≤ y.toNat then y else x) s
def execMul (d a b : BitVec 5) (s : State) : Out := aluReg d a b (fun x y => x * y) s
def execMulh (d a b : BitVec 5) (s : State) : Out := aluReg d a b (fun x y => trunc64 (sgn x * sgn y / (2 ^ 64 : Nat))) s
def execMulhu (d a b : BitVec 5) (s : State) : Out :=
  aluReg d a b (fun x y => BitVec.ofNat 64 (x.toNat * y.toNat / 2 ^ 64)) s
def execDiv (d a b : BitVec 5) (s : State) : Out := aluReg d a b divS s
def execDivu (d a b : BitVec 5) (s : State) : Out := aluReg d a b divU s
def execRem (d a b : BitVec 5) (s : State) : Out := aluReg d a b remS s
def execRemu (d a b : BitVec 5) (s : State) : Out := aluReg d a b remU s
def execClz (d a : BitVec 5) (s : State) : Out := aluOne d a (fun x => BitVec.ofNat 64 (leadingZeros x)) s

/-- SignExtend(imm15). -/
def imm15 (i : BitVec 15) : W64 := trunc64 i.toInt

def execAddi (d a : BitVec 5) (i : BitVec 15) (s : State) : Out := aluOne d a (fun x => x + imm15 i) s
def execAndi (d a : BitVec 5) (i : BitVec 15) (s : State) : Out := aluOne d a (fun x => x &&& imm15 i) s
def execOri (d a : BitVec 5) (i : BitVec 15) (s : State) : Out := aluOne d a (fun x => x ||| imm15 i) s
def execXori (d a : BitVec 5) (i : BitVec 15) (s : State) : Out := aluOne d a (fun x => x ^^^ imm15 i) s
def execSlli (d a : BitVec 5) (i : BitVec 6) (s : State) : Out := aluOne d a (fun x => sllOp x i.toNat) s
def execSrli (d a : BitVec 5) (i : BitVec 6) (s : State) : Out := aluOne d a (fun x => srlOp x i.toNat) s
def execSrai (d a : BitVec 5) (i : BitVec 6) (s : State) : Out := aluOne d a (fun x => sraOp x i.toNat) s
def execSlti (d a : BitVec 5) (i : BitVec 15) (s : State) : Out := aluOne d a (fun x => boolW (decide (sgn x < i.toInt))) s
def execSltiu (d a : BitVec 5) (i : BitVec 15) (s : State) : Out :=
  aluOne d a (fun x => boolW (decide (x.toNat < (imm15 i).toNat))) s

/-! ## Constants -/

def execLui (d : BitVec 5) (i : BitVec 20) (s : State) : Out :=
  issueRegs .K (fun r => r.setX d.toNat (trunc64 (signed 32 (i.toNat * 2 ^ 12)))) s

def execLla (d : BitVec 5) (i : BitVec 20) (s : State) : Out :=
  issueRegs .K (fun r => r.setX d.toNat (BitVec.ofNat 64 (laneOff s.addr i.toInt))) s

def execLif (d : BitVec 5) (i : BitVec 20) (s : State) : Out :=
  issueRegs .K (fun r => r.setX d.toNat (BitVec.ofNat 64 (i.toNat * 2 ^ 12))) s

/-- The value `lit` writes (09 R231). -/
def litValue (m : Nat) (xa : W64) (lit : W32) : W64 :=
  if m = 0 then trunc64 lit.toInt
  else if m = 1 then BitVec.ofNat 64 lit.toNat
  else BitVec.ofNat 64 (xa.toNat % 2 ^ 32 + lit.toNat * 2 ^ 32)

/-- The literal is the one fetch attached (08 R199). -/
def execLit (d a : BitVec 5) (m : BitVec 2) (_n : BitVec 4) (s : State) : Out :=
  issuePlain .K (.ok ()) (do
    match s.cur.lit with
    | none => needOp false s.addr 0x18; pureEff s
    | some l => pureEff (s.putRegs (s.regs.setX d.toNat (litValue m.toNat (s.regs.getX a.toNat) l)))) s

/-- A word of the constant bank: zero where the bank holds another context's image (09 R232). -/
def Core.bankWord (c : Core) (i : Nat) : W32 := if c.mem.bankTag = c.ctx then Map.get 0 c.mem.bank i else 0

/-- A poisoned word of the context's own bank ends it and delivers nothing (02 R65, R69). -/
def execKld (d a : BitVec 5) (i : BitVec 15) (s : State) : Out :=
  let c := s.cc
  let index := (c.regs.getX a.toNat + imm15 i).toNat % 256
  if c.mem.bankTag = c.ctx && c.mem.bankPoison.contains index then .next (s.unitMet s.curCore c.ctx 6 index)
  else issueRegs .K (fun r => r.setX d.toNat (BitVec.ofNat 64 (c.bankWord index).toNat)) s

end Sys2Proof.Machine
end

