-- ==== Sys2Proof/Machine/Access.lean ====
section
/-! DEFINITION. What the lanes of L and S share: destinations, contiguous and element accesses, address arithmetic, cue lanes and the
control lanes of an apart stream (10 R262 to R290). -/

namespace Sys2Proof.Machine
open Sys2Proof

/-! ## Registers, queues and destinations (R262, R263) -/

/-- A pop by the queue's consumer, of the queue's width. -/
def popWidth (cl : Cl) (q : Nat) (wide : Bool) : Chk Unit :=
  needQueue (decide (queueConsumer q = cl) && !queueBranch q && (queueWide q == wide)) q

/-- The checks of a destination field: a register, or a 64-bit queue the cluster pushes. -/
def dstOk (cl : Cl) (d : Nat) : Chk Unit := if d < 16 then pushOk cl d false else .ok ()

def dstQueues (d : Nat) : List Nat := if d < 16 then [d] else []

/-- Dst(d, v). -/
def State.dst (s : State) (cl : Cl) (d : Nat) (v : W64) : State := if d < 16 then s else s.putRegs (s.regs.setG cl (d - 16) v)
def dstPush (d : Nat) (v : W64) : List (Nat × Vec) := if d < 16 then [(d, v.setWidth 2048)] else []

/-- Trunc64(G[base] + SignExtend(off12) × n). -/
def offAddr (s : State) (cl : Cl) (base : BitVec 4) (o : BitVec 12) (n : Nat) : Nat := effAddr (s.regs.getG cl base.toNat) o.toInt n

/-! ## Elements (R265) -/

/-- A page's format that has no whole element of es bytes. -/
def notSize (es : Nat) (fmt : Nat) : Bool := elemSize fmt ≠ some es

/-- The element size of the page that holds the base, and the base's alignment. -/
def baseSize (s : State) (path : Path) (va : Nat) : Chk Nat := do
  let p ← translate s s.cc.ctx s.cc.sys.sv path (fun f => (elemSize f).isNone) va
  let es := (elemSize p.fmt).getD 1
  if va % es ≠ 0 then badAlign va else .ok es

/-- The pages of every element, lowest address first, the base's among them, and the watch regions' read matches. -/
def elemCheck (s : State) (cl : Cl) (path : Path) (es base : Nat) (vas : List Nat) (reads : Bool) : Chk (List Piece) := do
  let c := s.cc
  let ps ← translateFrom s c.ctx c.sys.sv path (notSize es) (knowPages s c.ctx [] [base]) ((vas.foldl setIns []).map fun va => (va, es))
  if reads then watchRead s s.curCore cl (agentOf cl) (vas.map fun va => (va, es))
  .ok ps

def pieceAt (ps : List Piece) (va : Nat) : List Piece := ((List.find? (fun (p : Piece) => p.va = va) ps).map fun p => [p]).getD []

/-- Element j of a strided access. -/
def strideAddr (base stride : W64) (es j : Nat) : Nat := (base + trunc64 ((j : Int) * sgn stride * es)).toNat

/-- The index vector of a gather or scatter: 64 INT32 or 128 INT16 indices, a hole none (R270). -/
def indexAt (it : Bool) (v : Vec) (j : Nat) : Option Int :=
  let w := if it then 16 else 32
  let x := elemAt w v.toNat j
  if j ≥ (if it then 128 else 64) || x = 2 ^ (w - 1) then none else some (signed w x)

def indexAddr (base : W64) (es : Nat) (i : Int) : Nat := (base + trunc64 (i * es)).toNat

/-- The elements of a gather or scatter that are no holes: position and address. -/
def indexed (it : Bool) (v : Vec) (base : W64) (es n : Nat) : List (Nat × Nat) :=
  (List.range n).filterMap fun j => (indexAt it v j).map fun i => (j, indexAddr base es i)

/-- Elements placed in an entry by their positions. -/
def entryOf (es : Nat) (xs : List (Nat × List Byte)) : Vec :=
  xs.foldl (fun a p => a + BitVec.ofNat 2048 (ofBytes p.2 * 2 ^ (8 * es * p.1))) 0

def readElems (s : State) (ps : List Piece) : List (Nat × Nat) → Chk (List (Nat × List Byte))
  | [] => .ok []
  | (j, va) :: rest => do
    let bs ← readPieces s s.cc.ctx (pieceAt ps va)
    let more ← readElems s ps rest
    .ok ((j, bs) :: more)

/-- Element j of an entry, as bytes. -/
def elemBytes (es : Nat) (v : Vec) (j : Nat) : List Byte := bytesOf es (elemAt (8 * es) v.toNat j)

/-- Elements written in ascending position: the highest stays where two overlap (R273). -/
def writeElems (ctx : W16) (ps : List Piece) (es : Nat) (v : Vec) (m : Memory) : List (Nat × Nat) → Memory
  | [] => m
  | (j, va) :: rest => writeElems ctx ps es v (writePieces m ctx (pieceAt ps va) (elemBytes es v j)) rest

/-! ## Data-only leaves (R267; 15 R397) -/

/-- The store geometry word. -/
def storeGeometry (kind count low : Nat) : Nat := kind * 2 ^ 62 + count % 2 ^ 30 * 2 ^ 32 + low % 2 ^ 32

/-- Elements in n bytes of a format; SB4 packs two to a byte. -/
def countOf (fmt n : Nat) : Nat := if fmt = fmtSb4 then 2 * n else n / (elemSize fmt).getD 1

def pageMode (fmt geo : Nat) (c : Core) : Nat := modeWord c.sys.sv false (match c.sys.task with
  | some t => t.tt
  | none => false) c.det geo fmt 0 0 0 0

/-- The leaf of a store, held in S's tree until the store completes. -/
def State.storeLeaf (s : State) (va geometry fmt geo : Nat) (bs : List Byte) : State :=
  let c := s.cc
  match c.block with
  | none => s
  | some _ =>
    let x := c.cluster .S
    let p := taskLeaf s s.curCore .S 2 x.iseq s.cur.word c.sys.sv
    let r := ({ p with mode := pageMode fmt geo c, res := { addr := va, geom := geometry, digest := blake3 bs } }).bytes
    s.putCc (c.holdLeaf .S x.flightNo s.cur.place [r])

def firstFmt (ps : List Piece) : Nat × Nat :=
  match ps with
  | p :: _ => (p.place.fmt, p.place.geo)
  | [] => (0, 0)

/-! ## Arithmetic, cue lanes and control (R286 to R290) -/

/-- Dst(d, f(G[a])), with B from a register or a queue. -/
def lsArith (cl : Cl) (cue : BitVec 4) (d : BitVec 5) (a b : BitVec 4) (q : BitVec 1) (f : W64 → W64 → W64) (s : State) : Out :=
  let inbound := if cl = .L then 6 else 8
  issue cl cue.toNat (dstOk cl d.toNat) (if q = 1 then [inbound] else []) (dstQueues d.toNat)
    (fun vs =>
      let y := if q = 1 then (vs.headD 0).setWidth 64 else s.regs.getG cl b.toNat
      let v := f (s.regs.getG cl a.toNat) y
      .ok { st := s.dst cl d.toNat v, push := dstPush d.toNat v }) s

def lsOne (cl : Cl) (cue : BitVec 4) (d : BitVec 5) (a : BitVec 4) (f : W64 → W64) (s : State) : Out :=
  lsArith cl cue d a 0 0 (fun x _ => f x) s

/-- The FIFO that `cue.test` names: CL in L, CS in S (R288). -/
def lsCueTest (cl : Cl) (d : BitVec 4) (s : State) : Out :=
  let f := if cl = .L then 1 else 2
  issuePlain cl (need (!s.cc.det) (.trap .nondet 0)) (
    let seen := s.cc.cueVisible f
    let c := if seen then s.cc.putCue f (s.cc.cue f).tail else s.cc
    let s1 := s.putCc c
    pureEff (s1.putRegs (s1.regs.setG cl d.toNat (boolW seen)))) s

def lsCueNop (cl : Cl) (cue : BitVec 4) (s : State) : Out := issue cl cue.toNat (.ok ()) [] [] (fun _ => pureEff s) s

def lsBranch (cl : Cl) (cue : BitVec 4) (k : BitVec 3) (off : Int) (x y : W64) (s : State) : Out :=
  issue cl cue.toNat (needApart s true) [] [] (fun _ => pureEff (s.branch cl (condHolds k.toNat x y) off)) s

def lsLoop (cl : Cl) (cue : BitVec 4) (off : Nat) (count : W64) (s : State) : Out :=
  issue cl cue.toNat (needApart s true) [] [] (fun _ => do
    let s1 ← s.startLoop cl off (loopCountOf count)
    pureEff s1) s

def lsJoin (cl : Cl) (cue : BitVec 4) (s : State) : Out :=
  issue cl cue.toNat (needApart s true) [] [] (fun _ => pureEff ((s.resolve cl none).endStream cl)) s

end Sys2Proof.Machine
end

