-- ==== Sys2Proof/Machine/Float.lean ====
section
/-! DEFINITION. The one arithmetic (07): float formats, rounding to nearest even, conversions, scaled blocks, the residue path,
and the transcendental algorithms (11 R310 to R314). Every value is exact until it is rounded once. -/

namespace Sys2Proof.Machine
open Sys2Proof

/-! ## Formats (07 R173, R174) -/

/-- A float format: significand width p, exponent range, and the width of its exponent field. -/
structure FFmt where
  p : Nat
  emin : Int
  emax : Int
  ebits : Nat
  deriving DecidableEq, Repr

def F32 : FFmt := { p := 24, emin := -126, emax := 127, ebits := 8 }
def FBf16 : FFmt := { p := 8, emin := -126, emax := 127, ebits := 8 }
def F16 : FFmt := { p := 11, emin := -14, emax := 15, ebits := 5 }

def FFmt.width (f : FFmt) : Nat := f.p + f.ebits
def FFmt.nan (f : FFmt) : Nat := 2 ^ (f.p - 1) * (2 ^ f.ebits - 1) + 2 ^ (f.p - 2)
def FFmt.inf (f : FFmt) (neg : Bool) : Nat := boolNat neg * 2 ^ (f.p + f.ebits - 1) + 2 ^ (f.p - 1) * (2 ^ f.ebits - 1)

/-- An exact value: NaN, an infinity, or m × 2^e with a sign of its own, so that zeros keep theirs. -/
inductive FV where
  | nan
  | inf (neg : Bool)
  | fin (neg : Bool) (m : Nat) (e : Int)
  deriving DecidableEq, Repr

def FFmt.decode (f : FFmt) (x : Nat) : FV :=
  let frac := x % 2 ^ (f.p - 1)
  let ex := x / 2 ^ (f.p - 1) % 2 ^ f.ebits
  let neg := decide (x / 2 ^ (f.p + f.ebits - 1) % 2 = 1)
  if ex = 2 ^ f.ebits - 1 then (if frac = 0 then .inf neg else .nan)
  else if ex = 0 then .fin neg frac (f.emin - (f.p - 1 : Nat))
  else .fin neg (frac + 2 ^ (f.p - 1)) (f.emin + (ex - 1 : Nat) - (f.p - 1 : Nat))

/-- n / d to the nearest integer, ties to even. -/
def divHalfEven (n d : Nat) : Nat :=
  let q := n / d
  let r := n % d
  if 2 * r > d || (2 * r = d && q % 2 = 1) then q + 1 else q

/-- m × 2^k to the nearest integer, ties to even. -/
def scaleHalfEven (m : Nat) (k : Int) : Nat :=
  if k ≥ 0 then m * 2 ^ k.toNat else divHalfEven m (2 ^ (-k).toNat)

/-- RoundNE(v, F), as the bits of F (07 R174). -/
def FFmt.round (f : FFmt) : FV → Nat
  | .nan => f.nan
  | .inf neg => f.inf neg
  | .fin neg m e =>
    let sign := boolNat neg * 2 ^ (f.p + f.ebits - 1)
    if m = 0 then sign
    else
      let ee := max ((Nat.log2 m : Nat) + e) f.emin
      let q := scaleHalfEven m (e + (f.p - 1 : Nat) - ee)
      let (q, ee) := if q = 2 ^ f.p then (2 ^ (f.p - 1), ee + 1) else (q, ee)
      if ee > f.emax then f.inf neg
      else if q < 2 ^ (f.p - 1) then sign + q
      else sign + (ee - f.emin + 1).toNat * 2 ^ (f.p - 1) + (q - 2 ^ (f.p - 1))

/-! ## Exact operations, with the special values of 07 R175 -/

def FV.neg : FV → FV
  | .nan => .nan
  | .inf n => .inf (!n)
  | .fin n m e => .fin (!n) m e

def FV.abs : FV → FV
  | .nan => .nan
  | .inf _ => .inf false
  | .fin _ m e => .fin false m e

/-- The signed numerator of a finite value over 2^e0. -/
def finNum (neg : Bool) (m : Nat) (e e0 : Int) : Int :=
  let v : Int := (m * 2 ^ (e - e0).toNat : Nat)
  if neg then -v else v

def FV.add : FV → FV → FV
  | .nan, _ => .nan
  | _, .nan => .nan
  | .inf a, .inf b => if a = b then .inf a else .nan
  | .inf a, _ => .inf a
  | _, .inf b => .inf b
  | .fin n1 m1 e1, .fin n2 m2 e2 =>
    let e0 := min e1 e2
    let t := finNum n1 m1 e1 e0 + finNum n2 m2 e2 e0
    if t = 0 then .fin (n1 && n2) 0 0 else .fin (decide (t < 0)) t.natAbs e0

def FV.mul : FV → FV → FV
  | .nan, _ => .nan
  | _, .nan => .nan
  | .inf a, .inf b => .inf (a != b)
  | .inf a, .fin n m _ => if m = 0 then .nan else .inf (a != n)
  | .fin n m _, .inf b => if m = 0 then .nan else .inf (n != b)
  | .fin n1 m1 e1, .fin n2 m2 e2 => .fin (n1 != n2) (m1 * m2) (e1 + e2)

/-- a × b + c, exact. -/
def FV.fma (a b c : FV) : FV := (a.mul b).add c

/-- a < b for values that are not NaN; −0 equals +0. -/
def FV.lt : FV → FV → Bool
  | .nan, _ => false
  | _, .nan => false
  | .inf a, .inf b => a && !b
  | .inf a, _ => a
  | _, .inf b => !b
  | .fin n1 m1 e1, .fin n2 m2 e2 =>
    let e0 := min e1 e2
    decide (finNum n1 m1 e1 e0 < finNum n2 m2 e2 e0)

def FV.isNan : FV → Bool
  | .nan => true
  | _ => false

def FV.eq (a b : FV) : Bool := !a.isNan && !b.isNan && !a.lt b && !b.lt a
def FV.le (a b : FV) : Bool := !a.isNan && !b.isNan && !b.lt a

def FV.isZero : FV → Bool
  | .fin _ m _ => decide (m = 0)
  | _ => false

def FV.isNeg : FV → Bool
  | .nan => false
  | .inf n => n
  | .fin n _ _ => n

/-- FMax and FMin (07 R176): NaN if either is; +0 above −0. -/
def FV.max (a b : FV) : FV :=
  if a.isNan || b.isNan then .nan
  else if a.lt b then b
  else if b.lt a then a
  else if a.isNeg then b else a

def FV.min (a b : FV) : FV :=
  if a.isNan || b.isNan then .nan
  else if a.lt b then a
  else if b.lt a then b
  else if a.isNeg then a else b

/-! ## FP32 on bits -/

def f32 (x : Nat) : FV := F32.decode (x % 2 ^ 32)
def r32 (v : FV) : Nat := F32.round v
def fadd32 (a b : Nat) : Nat := r32 ((f32 a).add (f32 b))
def fsub32 (a b : Nat) : Nat := r32 ((f32 a).add (f32 b).neg)
def fmul32 (a b : Nat) : Nat := r32 ((f32 a).mul (f32 b))
def ffma32 (a b c : Nat) : Nat := r32 ((f32 a).fma (f32 b) (f32 c))
def fmax32 (a b : Nat) : Nat := r32 ((f32 a).max (f32 b))
def fmin32 (a b : Nat) : Nat := r32 ((f32 a).min (f32 b))
/-- NaN patterns become the canonical one (12 R335, R336). -/
def canon32 (x : Nat) : Nat := if (f32 x).isNan then F32.nan else x % 2 ^ 32

/-! ## Conversions (07 R178) -/

def clampInt (n : Nat) (v : Int) : Int := max (-(2 ^ (n - 1) : Nat)) (min v ((2 ^ (n - 1) : Nat) - 1))

/-- RoundHalfEven of an exact value, clamped to n bits. -/
def FV.toInt (n : Nat) : FV → Int
  | .nan => 0
  | .inf neg => if neg then -(2 ^ (n - 1) : Nat) else (2 ^ (n - 1) : Nat) - 1
  | .fin neg m e =>
    let q : Int := (scaleHalfEven m e : Nat)
    clampInt n (if neg then -q else q)

def FV.ofInt (v : Int) : FV := .fin (decide (v < 0)) v.natAbs 0

/-- An integer as n bits. -/
def intBits (n : Nat) (v : Int) : Nat := (v.emod (2 ^ n : Nat)).toNat

/-! ## Scaled blocks (07 R179 to R181) -/

/-- ScaleValue(s). -/
def scaleValue (s : Nat) : FV := .fin false (4 + s % 4) ((s / 4 % 64 : Nat) - 34)

/-- The first scale from s, of f, that holds a. -/
def scaleFrom (a qmax : FV) : Nat → Nat → Nat
  | 0, _ => 0xFE
  | f + 1, s => if a.le (qmax.mul (scaleValue s)) then s else scaleFrom a qmax f (s + 1)

def sbScale (qmax : Nat) (xs : List Nat) : Nat :=
  let vs := xs.map f32
  if vs.any (fun v => match v with | .fin _ _ _ => false | _ => true) then 0xFF
  else
    let a := vs.foldl (fun a v => a.max v.abs) (.fin false 0 0)
    if a.isZero then 0 else scaleFrom a (.fin false qmax 0) 0xFE 1

/-- SbQuant for elements of n bits. -/
def sbQuant (n x s : Nat) : Int :=
  if s = 0 ∨ s = 0xFF then 0
  else match f32 x with
  | .fin neg m e =>
    -- x / ScaleValue(s) = m × 2^e / ((4 + s[1:0]) × 2^(s[7:2] − 34))
    let k : Int := e - ((s / 4 % 64 : Nat) - 34)
    let d := 4 + s % 4
    let q := if k ≥ 0 then divHalfEven (m * 2 ^ k.toNat) d else divHalfEven m (d * 2 ^ (-k).toNat)
    clampInt n (if neg then -(q : Nat) else (q : Nat))
  | _ => 0

/-- The value of an SB element: +0 under scale 0, NaN under scale 0xFF (11 R305). -/
def sbValue (q : Int) (s : Nat) : FV :=
  if s = 0xFF then .nan
  else if s = 0 ∨ q = 0 then .fin false 0 0
  else (FV.ofInt q).mul (scaleValue s)

/-! ## Chunk sums (07 R183 to R188) -/

/-- Crt (07 R184). -/
def crt (a b c : Nat) : Int :=
  let t := (a * 8421376 + b * 16711425 + c * 8421120) % 16776960
  if t ≥ 8388480 then (t : Int) - 16776960 else t

/-- One channel of a sub-block sum. -/
def channelSum (m : Nat) : List (Int × Int) → Nat
  | [] => 0
  | (a, b) :: rest => ((a.emod m).toNat * (b.emod m).toNat + channelSum m rest) % m

/-- One sub-block: its products, and the scale bytes of its two blocks. -/
structure SubBlock where
  prods : List (Int × Int)
  sA : Nat
  sB : Nat

/-- The exact term a sub-block adds, or none where a scale is exact zero (07 R185). -/
def subTerm (b : SubBlock) : Option FV :=
  if b.sA = 0 ∨ b.sB = 0 then none
  else
    let t := crt (channelSum 255 b.prods) (channelSum 256 b.prods) (channelSum 257 b.prods)
    let v := t * ((4 + b.sA % 4 : Nat) : Int) * ((4 + b.sB % 4 : Nat) : Int)
    some (.fin (decide (v < 0)) v.natAbs ((b.sA / 4 + b.sB / 4 : Nat) - 68))

def residueStep (c : Nat) (b : SubBlock) : Nat :=
  if b.sA = 0xFF ∨ b.sB = 0xFF then F32.nan
  else match subTerm b with
  | none => c
  | some v => r32 ((f32 c).add v)

/-- ResidueChunk (07 R185). -/
def residueChunk (bs : List SubBlock) : Nat := bs.foldl residueStep 0

/-- FloatChunk (07 R188). -/
def floatChunk (prods : List (FV × FV)) : Nat := prods.foldl (fun c p => r32 (p.1.fma p.2 (f32 c))) 0

/-- Fold over the sources of a reduction, element by element (05 R140). -/
def foldElem (isMax : Bool) (a b : Nat) : Nat := if isMax then fmax32 a b else fadd32 a b

/-! ## Transcendentals (11 R310 to R314) -/

/-- RoundNE32 of 2^(i/16). -/
def tblT : List Nat :=
  [0x3F800000, 0x3F85AAC3, 0x3F8B95C2, 0x3F91C3D3, 0x3F9837F0, 0x3F9EF532, 0x3FA5FED7, 0x3FAD583F,
   0x3FB504F3, 0x3FBD08A4, 0x3FC5672A, 0x3FCE248C, 0x3FD744FD, 0x3FE0CCDF, 0x3FEAC0C7, 0x3FF5257D]

/-- RoundNE32 of 1 / (1 + i/16). -/
def tblR : List Nat :=
  [0x3F800000, 0x3F70F0F1, 0x3F638E39, 0x3F579436, 0x3F4CCCCD, 0x3F430C31, 0x3F3A2E8C, 0x3F321643,
   0x3F2AAAAB, 0x3F23D70A, 0x3F1D89D9, 0x3F17B426, 0x3F124925, 0x3F0D3DCB, 0x3F088889, 0x3F042108]

/-- RoundNE32 of log2(1 + i/16). -/
def tblL : List Nat :=
  [0x00000000, 0x3DB31FB8, 0x3E2E00D2, 0x3E7DE0B6, 0x3EA4D3C2, 0x3EC8DDD4, 0x3EEB3A9F, 0x3F060828,
   0x3F15C01A, 0x3F24D3C2, 0x3F335004, 0x3F41404F, 0x3F4EAED0, 0x3F5BA4A4, 0x3F6829FB, 0x3F744636]

/-- RoundNE32 of 1 / (1 + (2i + 1)/64). -/
def tblY : List Nat :=
  [0x3F7C0FC1, 0x3F74898D, 0x3F6D7304, 0x3F66C2B4, 0x3F607038, 0x3F5A740E, 0x3F54C77B, 0x3F4F6475,
   0x3F4A4588, 0x3F4565C8, 0x3F40C0C1, 0x3F3C5264, 0x3F381703, 0x3F340B41, 0x3F302C0B, 0x3F2C7692,
   0x3F28E83F, 0x3F257EB5, 0x3F2237C3, 0x3F1F1166, 0x3F1C09C1, 0x3F191F1A, 0x3F164FDA, 0x3F139A86,
   0x3F10FDBC, 0x3F0E7835, 0x3F0C08C1, 0x3F09AE41, 0x3F0767AB, 0x3F053408, 0x3F03126F, 0x3F010204]

/-- RoundNE32 of 1 / Sqrt(1 + (2i + 1)/16). -/
def tblZ : List Nat :=
  [0x3F785B42, 0x3F6AEBF5, 0x3F5F7483, 0x3F5584CD, 0x3F4CCCCD, 0x3F4511A3, 0x3F3E26EB, 0x3F37EA74,
   0x3F32416A, 0x3F2D166C, 0x3F285835, 0x3F23F8A2, 0x3F1FEC04, 0x3F1C2896, 0x3F18A61F, 0x3F155DA2,
   0x3F124925, 0x3F0F6381, 0x3F0CA83F, 0x3F0A137D, 0x3F07A1D2, 0x3F05503E, 0x3F031C1A, 0x3F01030A]
def tbl (t : List Nat) (i : Nat) : FV := f32 (t.getD i 0)

/-- m and e with |x| = m × 2^e and 1 ≤ m < 2, for a finite value that is not 0: m as a numerator over 2^k. -/
structure Split where
  num : Nat
  k : Nat
  e : Int

def splitOf (m : Nat) (e : Int) : Split := { num := m, k := Nat.log2 m, e := e + (Nat.log2 m : Nat) }
def Split.m (x : Split) : FV := .fin false x.num (-(x.k : Int))
/-- Floor(c × (m − 1)). -/
def Split.index (x : Split) (c : Nat) : Nat := c * (x.num - 2 ^ x.k) / 2 ^ x.k

def exp2Core (x : FV) (neg : Bool) (m : Nat) (e : Int) : Nat :=
  let num : Int := finNum neg m e (min e 0)       -- x = num / 2^k
  let k := (-(min e 0)).toNat
  let n := (16 * num) / ((2 ^ k : Nat) : Int)     -- floor, the divisor being positive
  let i := (n.emod 16).toNat
  let ex := (n - (i : Int)) / 16
  let f := f32 (r32 (x.add (.fin (decide (-n < 0)) n.natAbs (-4))))
  let p := f32 (r32 ((f32 0x3D635847).fma f (f32 0x3E75FDF0)))
  let p := f32 (r32 (p.fma f (f32 0x3F317218)))
  let p := f32 (r32 (p.mul f))
  let mm := r32 ((tbl tblT i).fma p (tbl tblT i))
  match f32 mm with
  | .fin s q e1 => r32 (.fin s q (e1 + ex))
  | v => r32 v

def exp2 (x : Nat) : Nat :=
  match f32 x with
  | .nan => F32.nan
  | .inf true => 0
  | .inf false => F32.inf false
  | .fin neg m e =>
    let v : FV := .fin neg m e
    if !v.lt (.fin false 128 0) then F32.inf false
    else if v.lt (.fin true 160 0) then 0
    else exp2Core v neg m e

def log2 (x : Nat) : Nat :=
  match f32 x with
  | .nan => F32.nan
  | .inf true => F32.nan
  | .inf false => F32.inf false
  | .fin neg m e =>
    if m = 0 then F32.inf true
    else if neg then F32.nan
    else
      let sp := splitOf m e
      let i := sp.index 16
      let r := f32 (r32 (sp.m.fma (tbl tblR i) (.fin true 1 0)))
      let q := f32 (r32 ((f32 0x3EF6384F).fma r (f32 0xBF38AA3B)))
      let q := f32 (r32 (q.fma r (f32 0x3FB8AA3B)))
      let q := f32 (r32 (q.mul r))
      r32 ((f32 (r32 ((FV.ofInt sp.e).add (tbl tblL i)))).add q)

def rcpStep (m y : FV) : FV :=
  let t := f32 (r32 ((m.neg).fma y (.fin false 1 0)))
  f32 (r32 (y.fma t y))

def rcp (x : Nat) : Nat :=
  match f32 x with
  | .nan => F32.nan
  | .inf neg => boolNat neg * 2 ^ 31
  | .fin neg m e =>
    if m = 0 then F32.inf neg
    else
      let sp := splitOf m e
      let y := rcpStep sp.m (rcpStep sp.m (rcpStep sp.m (tbl tblY (sp.index 32))))
      match y with
      | .fin _ q e1 => r32 (.fin neg q (e1 - sp.e))
      | v => r32 v

def rsqrtStep (m y : FV) : FV :=
  let a := f32 (r32 (m.mul y))
  let b := f32 (r32 ((a.neg).fma y (.fin false 1 0)))
  f32 (r32 (((FV.fin false 1 (-1)).mul y).fma b y))

def rsqrt (x : Nat) : Nat :=
  match f32 x with
  | .nan => F32.nan
  | .inf true => F32.nan
  | .inf false => 0
  | .fin neg m e =>
    if m = 0 then F32.inf neg
    else if neg then F32.nan
    else
      let sp := splitOf m e
      let odd := decide (sp.e.emod 2 = 1)
      let mm : FV := if odd then .fin false (2 * sp.num) (-(sp.k : Int)) else sp.m
      let ee := if odd then sp.e - 1 else sp.e
      let i := if odd then 8 * (2 * sp.num - 2 ^ sp.k) / 2 ^ sp.k else sp.index 8
      let y := rsqrtStep mm (rsqrtStep mm (rsqrtStep mm (tbl tblZ i)))
      match y with
      | .fin _ q e1 => r32 (.fin false q (e1 - ee / 2))
      | v => r32 v

end Sys2Proof.Machine
end

