-- ==== Sys2Proof/Machine/KFloat.lean ====
section
/-! DEFINITION. K: scalar FP32 (09 R227, R233 to R235). -/

namespace Sys2Proof.Machine
open Sys2Proof

/-- A result in bits [31:0], the rest zero. -/
def aluF (d a b : BitVec 5) (f : Nat → Nat → Nat) (s : State) : Out :=
  aluReg d a b (fun x y => BitVec.ofNat 64 (f (x.toNat % 2 ^ 32) (y.toNat % 2 ^ 32))) s

def execFadd (d a b : BitVec 5) (s : State) : Out := aluF d a b fadd32 s
def execFsub (d a b : BitVec 5) (s : State) : Out := aluF d a b fsub32 s
def execFmul (d a b : BitVec 5) (s : State) : Out := aluF d a b fmul32 s
def execFfma (d a b : BitVec 5) (s : State) : Out :=
  aluF d a b (fun x y => ffma32 x y (s.regs.getX d.toNat).toNat) s
def execFmin (d a b : BitVec 5) (s : State) : Out := aluF d a b fmin32 s
def execFmax (d a b : BitVec 5) (s : State) : Out := aluF d a b fmax32 s

/-- eq, lt, le and un (09 R234). -/
def fcmpHolds (p : Nat) (x y : FV) : Bool :=
  match p with
  | 0 => x.eq y
  | 1 => x.lt y
  | 2 => x.le y
  | _ => x.isNan || y.isNan

def execFcmp (d a b : BitVec 5) (p : BitVec 2) (s : State) : Out :=
  aluReg d a b (fun x y => boolW (fcmpHolds p.toNat (f32 x.toNat) (f32 y.toNat))) s

/-- The conversion codes (09 R235). -/
def fcvtValue (k : Nat) (x : W64) : W64 :=
  match k with
  | 0 => trunc64 ((f32 x.toNat).toInt 32)
  | 1 => BitVec.ofNat 64 (r32 (FV.ofInt (signed 32 x.toNat)))
  | 2 => trunc64 ((f32 x.toNat).toInt 64)
  | 3 => BitVec.ofNat 64 (r32 (FV.ofInt (sgn x)))
  | 4 => BitVec.ofNat 64 (FBf16.round (f32 x.toNat))
  | 5 => BitVec.ofNat 64 (r32 (FBf16.decode (x.toNat % 2 ^ 16)))
  | 6 => BitVec.ofNat 64 (F16.round (f32 x.toNat))
  | _ => BitVec.ofNat 64 (r32 (F16.decode (x.toNat % 2 ^ 16)))

def execFcvt (d a : BitVec 5) (k : BitVec 4) (s : State) : Out := aluOne d a (fcvtValue k.toNat) s

end Sys2Proof.Machine
end

