-- ==== Sys2Proof/Machine/SAccess.lean ====
section
/-! DEFINITION. S: queue stores, scatters, scalar stores, atomics, address arithmetic, cue lanes and control (10 R272 to R275,
R286 to R290). -/

namespace Sys2Proof.Machine
open Sys2Proof

/-! ## Queue stores and scatters (R272, R273) -/

def sQueueStore (c : BitVec 4) (t : BitVec 5) (b : BitVec 4) (o : BitVec 12) (back : Bool) (s : State) : Out :=
  let q := t.toNat
  let g := queueBytes q
  issue .S c.toNat (popOk .S q) [q] [] (fun vs => do
    let va := offAddr s .S b o g
    let ps ← accessCheck s .S .qstore va g 8 false
    let bs := bytesOf g (vs.headD 0).toNat
    let (s1, w) ← storeAt s .S .qstore va 8 bs
    let s2 := if back then s1.putRegs (s1.regs.setSx b.toNat (BitVec.ofNat 64 va)) else s1
    let (fmt, geo) := firstFmt ps
    .ok { st := s2.storeLeaf va (storeGeometry 0 (countOf fmt g) g) fmt geo bs, flight := some .sync, watch := w }) s

def execStq (c : BitVec 4) (t : BitVec 5) (b : BitVec 4) (o : BitVec 12) (s : State) : Out := sQueueStore c t b o false s
def execStqWb (c : BitVec 4) (t : BitVec 5) (b : BitVec 4) (o : BitVec 12) (s : State) : Out := sQueueStore c t b o true s

/-- The elements of a strided store or a scatter: kind, the geometry word's low half, positions and addresses. -/
def sElements (s : State) (kind low es : Nat) (base : W64) (v : Vec) (xs : List (Nat × Nat)) : Chk Eff := do
  let c := s.cc
  let vas := xs.map Prod.snd
  let ps ← elemCheck s .S .qstore es base.toNat vas false
  let w := watchWrite s s.curCore .S agentS (vas.map fun va => (va, es))
  checkWrite s c.ctx ps
  let s1 := (s.withMem (writeElems c.ctx ps es v s.mem xs)).cacheAll c.ctx (ps.map Piece.va)
  let lowest := vas.foldl min (vas.headD base.toNat)
  let (fmt, geo) := firstFmt ps
  let bs := xs.flatMap fun x => elemBytes es v x.1
  .ok { st := s1.storeLeaf lowest (storeGeometry kind xs.length low) fmt geo bs, flight := some .sync, watch := w }

def execStqS (c : BitVec 4) (d : BitVec 5) (a b : BitVec 4) (s : State) : Out :=
  let q := d.toNat
  issue .S c.toNat (popOk .S q) [q] [] (fun vs => do
    let base := s.regs.getSx a.toNat
    let stride := s.regs.getSx b.toNat
    let es ← baseSize s .qstore base.toNat
    let xs := (List.range (queueBytes q / es)).map fun j => (j, strideAddr base stride es j)
    sElements s 1 (trunc64 (sgn stride * es)).toNat es base (vs.headD 0) xs) s

def execStqX (c : BitVec 4) (d : BitVec 5) (a : BitVec 4) (t : BitVec 1) (s : State) : Out :=
  let q := d.toNat
  issue .S c.toNat (needQueue (q = 4 || q = 5) q) [q, 9 - q] [] (fun vs => do
    let base := s.regs.getSx a.toNat
    let es ← baseSize s .qstore base.toNat
    let xs := indexed (decide (t = 1)) (vs.getD 1 0) base es (256 / es)
    sElements s 2 es es base (vs.headD 0) xs) s

/-! ## Scalar stores (R274) -/

def sScalarStore (c : BitVec 4) (t : BitVec 5) (b : BitVec 4) (o : BitVec 12) (n : Nat) (s : State) : Out :=
  issue .S c.toNat (if t.toNat < 16 then popWidth .S t.toNat false else .ok ()) (if t.toNat < 16 then [t.toNat] else []) [] (fun vs =>
    storeScalar s .S (offAddr s .S b o n) n (if t.toNat < 16 then (vs.headD 0).setWidth 64 else s.regs.getSx (t.toNat - 16))) s

def execSStB (c : BitVec 4) (t : BitVec 5) (b : BitVec 4) (o : BitVec 12) (s : State) : Out := sScalarStore c t b o 1 s
def execSStH (c : BitVec 4) (t : BitVec 5) (b : BitVec 4) (o : BitVec 12) (s : State) : Out := sScalarStore c t b o 2 s
def execSStW (c : BitVec 4) (t : BitVec 5) (b : BitVec 4) (o : BitVec 12) (s : State) : Out := sScalarStore c t b o 4 s
def execSStD (c : BitVec 4) (t : BitVec 5) (b : BitVec 4) (o : BitVec 12) (s : State) : Out := sScalarStore c t b o 8 s

/-! ## Atomics (R275) -/

/-- The formats an operation takes. -/
def amoFmt (aop fmt : Nat) : Bool := if aop ≤ 7 then fmt = fmtRaw || fmt = fmtI32 else fmt = fmtF32

def amoWidth (fmt : Nat) : Nat := if fmt = fmtRaw then 8 else 4

/-- The new value, of w bytes. -/
def amoNew (w aop old v v2 : Nat) : Nat :=
  let a := signed (8 * w) old
  let b := signed (8 * w) v
  match aop with
  | 0 => (old + v) % 2 ^ (8 * w)
  | 1 => if a ≤ b then old else v
  | 2 => if a ≤ b then v else old
  | 3 => old &&& v
  | 4 => old ||| v
  | 5 => old ^^^ v
  | 6 => v
  | 7 => if old = v then v2 else old
  | 8 => fadd32 old v
  | _ => fmax32 old v

/-- What the lane receives: sign-extended for INT32, zero-extended for FP32, whole for RAW. -/
def amoResult (fmt old : Nat) : W64 := if fmt = fmtI32 then trunc64 (signed 32 old) else BitVec.ofNat 64 old

/-- The checks of an atomic access: its page, its width, its alignment, the watch regions. -/
def amoCheck (s : State) (path : Path) (va aop : Nat) : Chk (Place × Nat) := do
  let p ← translate s s.cc.ctx s.cc.sys.sv path (fun f => !amoFmt aop f) va
  let w := amoWidth p.fmt
  if va % w ≠ 0 then badAlign va
  else do
    watchRead s s.curCore .S agentS [(va, w)]
    .ok (p, w)

/-- One RMW event: the old value and the memory after it. -/
def Memory.rmw (m : Memory) (ctx : W16) (key pa w aop v v2 : Nat) : Option (Nat × Memory) :=
  (m.read ctx key pa w).map fun bs =>
    let old := ofBytes bs
    (old, m.write ctx key pa (bytesOf w (amoNew w aop old (v % 2 ^ (8 * w)) (v2 % 2 ^ (8 * w)))))

def execAmo (c : BitVec 4) (d : BitVec 5) (a b o : BitVec 4) (s : State) : Out :=
  issue .S c.toNat (dstOk .S d.toNat) [] (dstQueues d.toNat) (fun _ => do
    let va := (s.regs.getSx a.toNat).toNat
    let (p, w) ← amoCheck s .amo va o.toNat
    awake s p.pa
    match s.mem.rmw s.cc.ctx p.key p.pa w o.toNat (s.regs.getSx b.toNat).toNat (s.regs.getSx (b.toNat + 1)).toNat with
    | none => .error (.poison s.cc.ctx p.pa)
    | some (old, m) =>
      let v := amoResult p.fmt old
      .ok { st := ((s.withMem m).cacheAll s.cc.ctx [va]).dst .S d.toNat v, push := dstPush d.toNat v, flight := some .sync,
            watch := watchWrite s s.curCore .S agentS [(va, w)] }) s

/-! ## Arithmetic, cue lanes and control (R286, R288 to R290) -/

def execSAdd (c : BitVec 4) (d : BitVec 5) (a b : BitVec 4) (q : BitVec 1) (s : State) : Out := lsArith .S c d a b q (fun x y => x + y) s
def execSSub (c : BitVec 4) (d : BitVec 5) (a b : BitVec 4) (q : BitVec 1) (s : State) : Out := lsArith .S c d a b q (fun x y => x - y) s
def execSMul (c : BitVec 4) (d : BitVec 5) (a b : BitVec 4) (q : BitVec 1) (s : State) : Out := lsArith .S c d a b q (fun x y => x * y) s
def execSAddi (c : BitVec 4) (d : BitVec 5) (a : BitVec 4) (i : BitVec 8) (s : State) : Out := lsOne .S c d a (fun x => x + trunc64 i.toInt) s
def execSSlli (c : BitVec 4) (d : BitVec 5) (a : BitVec 4) (i : BitVec 6) (s : State) : Out := lsOne .S c d a (fun x => sllOp x i.toNat) s
def execSSrli (c : BitVec 4) (d : BitVec 5) (a : BitVec 4) (i : BitVec 6) (s : State) : Out := lsOne .S c d a (fun x => srlOp x i.toNat) s
def execSCueTest (d : BitVec 4) (s : State) : Out := lsCueTest .S d s
def execSCueNop (c : BitVec 4) (s : State) : Out := lsCueNop .S c s

def execSBCond (c : BitVec 4) (k : BitVec 3) (o : BitVec 10) (a b : BitVec 4) (s : State) : Out :=
  lsBranch .S c k o.toInt (s.regs.getSx a.toNat) (s.regs.getSx b.toNat) s

def execSLoop (c : BitVec 4) (e : BitVec 13) (a : BitVec 4) (s : State) : Out := lsLoop .S c e.toNat (s.regs.getSx a.toNat) s
def execSJoin (c : BitVec 4) (s : State) : Out := lsJoin .S c s

end Sys2Proof.Machine
end

