-- ==== Sys2Proof/Machine/Pod.lean ====
section
/-! DEFINITION. The pod: its configuration, the address a pod page leads to, the checks a home makes, what a home does for a request,
and the way a packet leaves the package (05 R125 to R136). -/

namespace Sys2Proof.Machine
open Sys2Proof

/-! ## Configuration (R125 to R127) -/

def selfPkg (s : State) : Nat := bits s.fab.podCfg.toNat 45 40
def selfInc (s : State) : W16 := BitVec.ofNat 16 (bits s.fab.podCfg.toNat 63 48)
def podOn (s : State) : Bool := bit s.fab.podCfg.toNat 0
def podCount (s : State) : Nat := bits s.fab.podCfg.toNat 37 32 + 1
def memberAt (s : State) (k : Nat) : Nat := (vget 0 s.fab.member k).toNat % 64
def stripeBase (s : State) : Nat := bits s.fab.stripe.toNat 23 0
def stripeLen (s : State) : Nat := bits s.fab.stripe.toNat 55 32
def peerWord (s : State) (i : Nat) : Nat := (vget 0 s.fab.peer i).toNat
def peerInc (s : State) (i : Nat) : W16 := BitVec.ofNat 16 (bits (peerWord s i) 63 48)

/-- Whether a remote operation may go to another package now. -/
def peerUp (s : State) (i : Nat) : Bool := podOn s && decide (bits (peerWord s i) 1 0 = 1)

/-- REMOTE_TIMEOUT as it acts. -/
def timeoutCycles (s : State) : Nat := max 65536 s.fab.timeout.toNat

/-! ## Addresses (R128, R134) -/

/-- PodAddress: the home, and the address there. -/
def podAddress (s : State) (e off : Nat) : Nat × Nat :=
  if leafRgn e = 3 then
    let k := off / 65536
    (memberAt s (k % podCount s), Config.hbmBase + (stripeBase s + k / podCount s) * 65536 + off % 65536)
  else (bits (leafPfn e) 5 0, regionBase (leafRgn e) + off)

def runOf (s : State) (p : Piece) : Run :=
  let r : Run := { va := p.va, len := p.len, pa := p.place.pa, key := p.place.key, fmt := p.place.fmt, geo := p.place.geo }
  if p.place.mt = 4 then
    let (pkg, pa) := podAddress s p.place.page.leaf p.place.pa
    { r with pa := pa, pod := true, striped := decide (leafRgn p.place.page.leaf = 3), home := if pkg = selfPkg s then none else some pkg }
  else r

/-- Neighbouring runs of one kind are one run; a stripe's end ends a run. -/
def joinRuns : List Run → List Run
  | [] => []
  | r :: rs =>
    match joinRuns rs with
    | [] => [r]
    | q :: qs =>
      if q.va = r.va + r.len && q.pa = r.pa + r.len && q.key = r.key && q.fmt = r.fmt && q.geo = r.geo && q.pod == r.pod
          && q.striped == r.striped && q.home = r.home && !(r.striped && decide (q.va % 65536 = 0)) then
        { r with len := r.len + q.len } :: qs
      else r :: q :: qs

def runsOf (s : State) (ps : List Piece) : List Run := joinRuns (ps.map (runOf s))

/-- A run cut to packets of at most 256 bytes, each with its offset in the access. -/
def cutRun : Nat → Nat → Run → List (Nat × Run)
  | 0, _, _ => []
  | f + 1, off, r =>
    if r.len = 0 then []
    else
      let k := min 256 r.len
      (off, { r with len := k }) :: cutRun f (off + k) { r with va := r.va + k, pa := r.pa + k, len := r.len - k }

def cutRuns : Nat → List Run → List (Nat × Run)
  | _, [] => []
  | off, r :: rs => cutRun (r.len / 256 + 1) off r ++ cutRuns (off + r.len) rs

/-! ## What a home checks and does (R129, R132) -/

def statusOk : Nat := 0
def statusRange : Nat := 1
def statusKey : Nat := 2
def statusPoison : Nat := 3
def statusRetry : Nat := 4

/-- Bytes that the package has. -/
def installed (s : State) (pa n : Nat) : Bool :=
  (isSlice pa && isSlice (pa + n - 1)) || (isHbm pa && isHbm (pa + n - 1)) || (isDdr s pa && isDdr s (pa + n - 1))

/-- RANGE, then KEY. -/
def homeStatus (s : State) (striped : Bool) (pa n key : Nat) : Nat :=
  let unit := (pa - Config.hbmBase) / 65536
  if !installed s pa n || (striped && !(isHbm pa && decide (stripeBase s ≤ unit) && decide (unit < stripeBase s + stripeLen s))) then statusRange
  else if key ≠ 0 && !s.sys.keys.contains key then statusKey
  else statusOk

/-- A request performed at its home: status, the data it answers with, and the state after it. `mine` : this package's own, whose context the
poison that it meets ends. Op 3 is a write and op 4 an atomic whose data the mesh has lost (16 R427): the write leaves its lines poisoned, the
atomic is not performed. -/
def State.homeAccess (s : State) (mine : Bool) (ctx : W16) (striped : Bool) (pa key op len aop : Nat) (data : List Byte) : Nat × List Byte × State :=
  let st := homeStatus s striped pa len key
  if st ≠ statusOk then (st, [], s)
  else
    let bad (line : Nat) : Nat × List Byte × State := (statusPoison, [], if mine then s.poisonMet ctx line else s.poisonFound line)
    match op with
    | 0 =>
      (match s.mem.read ctx key pa len with
        | some bs => (statusOk, bs, s)
        | none => bad (s.mem.badLine ctx pa len))
    | 3 => (statusOk, [], s.withMem (s.mem.poisonRange ctx pa len))
    | 4 => (statusPoison, [], s)
    | 1 => if s.mem.writeBlocked ctx pa len then bad (s.mem.blockedLine ctx pa len) else (statusOk, [], s.withMem (s.mem.write ctx key pa (data.take len)))
    | _ =>
      (match s.mem.rmw ctx key pa len aop (ofBytes (data.take 8)) (ofBytes ((data.drop 8).take 8)) with
        | some (old, m) => (statusOk, bytesOf 8 old, s.withMem m)
        | none => bad (s.mem.badLine ctx pa len))

/-- TRAPINFO of a failed remote access (R135): why, where, and the lowest byte not performed. -/
def remoteInfo (why home va : Nat) : W64 := BitVec.ofNat 64 (why % 4 * 2 ^ 62 + home % 64 * 2 ^ 56 + va % 2 ^ 56)

/-- The cause of a status. -/
def statusTrap (st home va : Nat) : Trap :=
  { cause := .fabricError, info := remoteInfo (if st = statusRange then 2 else 3) home va }

def goneTrap (home va : Nat) : Trap := { cause := .peerGone, info := remoteInfo 0 home va }
def timeoutTrap (home va : Nat) : Trap := { cause := .fabricError, info := remoteInfo 1 home va }

/-- REMOTE at header offset 80. -/
def remoteWord : W64 := BitVec.ofNat 64 (2 ^ 62)

/-! ## Ports (R125, R136; 16 R426) -/

def Port.isDown (p : Port) : Bool := !p.up && !p.training

def State.port (s : State) (i : Nat) : Port := Map.get {} s.fab.ports i
def State.putPort (s : State) (i : Nat) (p : Port) : State := s.withFab { s.fab with ports := Map.set s.fab.ports i p }

/-- The coordinate of a package in a dimension. -/
def coordinate (pkg dim : Nat) : Nat := pkg / 4 ^ dim % 4

/-- The first dimension in which two packages differ, and the shorter way round it; at a distance of 2 the positive one. Directions
are numbered +x, −x, +y, −y, +z, −z. -/
def direction (src dst : Nat) : Nat :=
  match (List.range 3).find? fun k => decide (coordinate src k ≠ coordinate dst k) with
  | none => 0
  | some k => if (coordinate dst k + 4 - coordinate src k) % 4 = 3 then 2 * k + 1 else 2 * k

/-- A port of a direction that is not down, from the stream's own on. -/
def portIn (s : State) (dir core home : Nat) : Option Nat :=
  ((List.range 4).map fun i => 4 * dir + (Config.streamPort core home + i) % 4).find? fun p => !(s.port p).isDown

/-- The port a stream leaves by; where every port of a direction is down, the other way round. DESIGN CHOICE (log 13). -/
def portFor (s : State) (core dst : Nat) : Nat :=
  let dir := direction (selfPkg s) dst
  let other := if dir % 2 = 0 then dir + 1 else dir - 1
  (portIn s dir core dst).getD ((portIn s other core dst).getD (4 * dir + Config.streamPort core dst % 4))

/-- The flits of a packet behind all that a port has to send of their class. -/
def State.queueAt (s : State) (i k : Nat) (circ : Bool) (bs : List Byte) : State :=
  let x := s.port i
  s.putPort i { x with out := x.out.setIfInBounds k (vget [] x.out k ++ [{ flits := flitsOf k circ bs }]) }

/-- A packet queued at its port, and noted as sent; `circ` : its flits are scheduled (16 R428). -/
def State.sendAs (s : State) (circ : Bool) (cls core dst : Nat) (p : Packet) (log : Sent) : State :=
  let s1 := s.queueAt (portFor s core dst) (min cls 2) circ (p.payload dst)
  s1.withFab { s1.fab with sent := s1.fab.sent ++ [log] }

def State.send (s : State) (cls core dst : Nat) (p : Packet) (log : Sent) : State := s.sendAs false cls core dst p log

def State.sendRequest (s : State) (r : RemoteReq) : State := s.send r.cls r.core r.dst (.request r) (.request r)
def State.sendResponse (s : State) (cls : Nat) (r : RemoteResp) : State := s.send cls r.core r.dst (.response r) (.response r)

/-- The answer to a request. -/
def answerTo (s : State) (r : RemoteReq) (status : Nat) (data : List Byte) : RemoteResp :=
  { src := selfPkg s, dst := r.src, core := r.core, tag := r.tag, sInc := selfInc s, rInc := peerInc s r.src, ctx := r.ctx,
    status := status, data := data }

/-- A fresh request tag. -/
def State.newTag (s : State) : Nat × State := (s.fab.tags % 2 ^ 32, s.withFab { s.fab with tags := s.fab.tags + 1 })

/-- A packet's incarnations are the ones in force (R142). -/
def current (s : State) (src : Nat) (sInc rInc : W16) : Bool := decide (rInc = selfInc s) && decide (sInc = peerInc s src)

def State.countStalePacket (s : State) : State := s.withFab { s.fab with peerStale := s.fab.peerStale + 1 }

end Sys2Proof.Machine
end

