-- ==== Sys2Proof/Machine/Mesh.lean ====
section
/-! DEFINITION. Mesh routers: their ports, what an entry of a slot table connects, where ordinary and scheduled flits go, and those that routers demote
(02 R52 to R55; 04 R110). -/

namespace Sys2Proof.Machine
open Sys2Proof

/-! ## Entries of a slot table (02 R53, R54) -/

/-- The ports of the router of bay b of a die: north, east, south, west, local, bridge. PRESUMED (log 38). -/
def routerPort (b code : Nat) : Bool :=
  match code with
  | 0 => decide (b / 9 > 0)
  | 1 => decide (b % 9 < 8)
  | 2 => decide (b / 9 < 7)
  | 3 => decide (b % 9 > 0)
  | 4 => true
  | 5 => decide (b = 40)
  | _ => false

/-- The valid fields of an entry: output and input codes. -/
def slotFields (w : Nat) : List (Nat × Nat) :=
  (List.range 6).filterMap fun o => if bit w (4 * o + 3) then some (o, bits w (4 * o + 2) (4 * o)) else none

/-- The outputs that a router's entry for a slot connects an input to; a slot without parity is unscheduled (R54, R58). -/
def slotOutputs (r : Router) (slot input : Nat) : List Nat :=
  let k := boolNat (bit r.ctl.toNat 1) * 256 + slot
  if bit r.ctl.toNat 0 && !r.bad.contains k then
    ((slotFields (Map.get (0 : W32) r.table k).toNat).filter fun f => f.2 = input).map Prod.fst
  else []

def connects (r : Router) (slot input : Nat) : Bool := decide (slotOutputs r slot input ≠ [])

def State.router (s : State) (i : Nat) : Router := Map.get {} s.routers i

/-- Some slot connects an input, and every slot does. -/
def everConnects (r : Router) (input : Nat) : Bool := (List.range 256).any fun k => connects r k input
def alwaysConnects (r : Router) (input : Nat) : Bool := (List.range 256).all fun k => connects r k input

/-! ## Ordinary traffic (02 R46, R52) -/

/-- The routers on the way from one bay of a die to another, after the first, each with the input it is reached by: along the row, then along
the column. -/
def meshPath (die : Nat) : Nat → Nat → Nat → List (Nat × Nat)
  | 0, _, _ => []
  | f + 1, a, b =>
    if a = b then []
    else
      let hop : Nat × Nat := if a % 9 < b % 9 then (a + 1, 3) else if b % 9 < a % 9 then (a - 1, 1) else if a < b then (a + 9, 0) else (a - 9, 2)
      (72 * die + hop.1, hop.2) :: meshPath die f hop.1 b

/-- The same for any two bays of the package: from one die to another by their bridges. -/
def hops (a b : Nat) : List (Nat × Nat) :=
  if a / 72 = b / 72 then meshPath (a / 72) 15 (a % 72) (b % 72)
  else meshPath (a / 72) 15 (a % 72) 40 ++ (72 * (b / 72) + 40, 5) :: meshPath (b / 72) 15 40 (b % 72)

/-- Ordinary traffic to a bay may come to a router by this input. -/
def onWay (router input b : Nat) : Bool := decide (input = 4) || (List.range Config.bays).any fun a => (hops a b).contains (router, input)

/-! ## The way of scheduled flits (02 R46, R54) -/

/-- The router that an output leads to, with the input it is reached by; none past the local output. A bridge leads to the three other dies. -/
def nextHops (i out : Nat) : List (Nat × Nat) :=
  let b := i % 72
  if !routerPort b out then []
  else match out with
  | 0 => [(i - 9, 2)]
  | 1 => [(i + 1, 3)]
  | 2 => [(i + 9, 0)]
  | 3 => [(i - 1, 1)]
  | 5 => ((List.range 4).filter fun d => decide (d ≠ i / 72)).map fun d => (72 * d + 40, 5)
  | _ => []

/-- The inputs that the active tables lead on to from an input, in any of their slots. -/
def onFrom (s : State) (x : Nat × Nat) : List (Nat × Nat) :=
  ((List.range 256).flatMap fun k => slotOutputs (s.router x.1) k x.2).eraseDups.flatMap (nextHops x.1)

/-- All that scheduled flits may come to from some inputs, round by round. -/
def scheduledReach (s : State) : Nat → List (Nat × Nat) → List (Nat × Nat) → List (Nat × Nat)
  | 0, _, seen => seen
  | _, [], seen => seen
  | f + 1, xs, seen =>
    let next := ((xs.flatMap (onFrom s)).eraseDups).filter fun y => !seen.contains y
    scheduledReach s f next (seen ++ next)

/-! ## Demoted flits (02 R54, R55) -/

/-- MISS counts demoted flits, up to 65,535. -/
def Router.missed (r : Router) (n : Nat) : Router :=
  { r with ctl := BitVec.ofNat 64 (setBits r.ctl.toNat 31 16 (min (bits r.ctl.toNat 31 16 + n) 65535)) }

/-- The routers that may demote scheduled flits injected at some bays: those whose tables do not connect an input that such flits may come to in
every slot. One that is demoted goes on as ordinary traffic. -/
def demotersFrom (s : State) (bays : List Nat) : List Nat :=
  (((scheduledReach s 1728 (bays.map fun b => (b, 4)) []).filter fun x => !alwaysConnects (s.router x.1) x.2).map Prod.fst).eraseDups

/-- The bays of the slice lines of a run. -/
def Run.bays (r : Run) : List Nat := (List.range (bayOfPa (r.pa + r.len - 1) - bayOfPa r.pa + 1)).map fun i => bayOfPa r.pa + i

/-- The bays that inject the flits of some runs of a job's: its own, and those of the slices it reads (04 R110). -/
def flitBays (b : Nat) (runs : List Run) : List Nat := (b :: runs.flatMap fun r => if r.home.isNone && isSlice r.pa then r.bays else []).eraseDups

/-- A job in circuit mode (04 R98). -/
def Job.circuit (j : Job) : Bool := bit (wordAt j.card 0) 57

/-- What a circuit-mode job moves now goes as scheduled flits, and the routers on their way demote some: how many is free. DESIGN CHOICE (log 15). -/
def State.demoteFlits (s : State) (b : Nat) (j : Job) (runs : List Run) : State :=
  if j.circuit then
    (demotersFrom s (flitBays b runs)).foldl (fun s i => s.putRouter i ((s.router i).missed (Config.demoted s.free i))) s
  else s

/-- Flits of a circuit-mode job of some bay are injected at this one. -/
def injectsAt (s : State) (bay : Nat) : Bool :=
  s.bays.any fun y => y.2.jobs.any fun j => j.started && j.circuit && (flitBays y.1 (j.reads.flatMap Region.runs)).contains bay

/-- CIRCUIT_INJECTION_TIMEOUT: no slot of the active table takes a flit of a circuit-mode job from the bay that injects it. -/
def execCircuitInjectionTimeout (bay : Nat) (s : State) : Out :=
  .next (if everConnects (s.router bay) 4 || !injectsAt s bay then s else s.putRouter bay ((s.router bay).missed 1))

end Sys2Proof.Machine
end

