-- ==== Sys2Proof/Machine/Jobs.lean ====
section
/-! DEFINITION. Jobs: cards and footprints (04 R96 to R99), what a job reads and writes, how it ends, and what its end releases
(04 R102, R104, R113). -/

namespace Sys2Proof.Machine
open Sys2Proof

/-! ## The card (R96 to R98, R280) -/

def cardWord (c : List W64) (i : Nat) : Nat := wordAt c i
def cardKind (c : List W64) : Nat := bits (cardWord c 0) 63 60
def cardClass (c : List W64) : Nat := bits (cardWord c 0) 59 58
def cardReads (c : List W64) : Nat := bits (cardWord c 0) 55 54
def cardWrites (c : List W64) : Nat := bits (cardWord c 0) 53 52
def cardPreds (c : List W64) : Nat := bits (cardWord c 0) 51 49
def cardOp (c : List W64) : Nat := bits (cardWord c 3) 47 44
def cardGroup (c : List W64) : Nat := bits (cardWord c 3) 63 48
def cardIlen (c : List W64) : Nat := bits (cardWord c 3) 41 21
def cardOlen (c : List W64) : Nat := bits (cardWord c 3) 20 0
def cardRows (c : List W64) : Nat := bits (cardWord c 3) 63 52 + 1
def cardRowBytes (c : List W64) : Nat := bits (cardWord c 3) 51 32 + 1
def cardSrcPitch (c : List W64) : Nat := 64 * bits (cardWord c 3) 31 16
def cardDstPitch (c : List W64) : Nat := 64 * bits (cardWord c 3) 15 0

/-- Regions and the predecessor word from continuation words. -/
def cardOf (kind cls circ words nwr nprd : Nat) (src dst len : W64) (cont : List W64) : List W64 :=
  let pred := if nprd > 0 then 1 else 0
  let nrd := words - nwr - pred
  let w (i : Nat) : W64 := if i < nrd + nwr then cont.getD i 0 else 0
  [BitVec.ofNat 64 (kind * 2 ^ 60 + cls * 2 ^ 58 + circ * 2 ^ 57 + nrd * 2 ^ 54 + nwr * 2 ^ 52 + nprd * 2 ^ 49), src, dst, len, w 0, w 1, w 2,
   if nprd > 0 then cont.getD (words - 1) 0 else w 3]

/-- The region word at a card's word. -/
def regionOf (w : Nat) : Region := { base := bits w 49 0 * 64, len := (bits w 61 50 + 1) * granule w }

/-- The commands a card names, as stream and index. -/
def cardNames (c : List W64) : List (BitVec 16) := (List.range (cardPreds c)).map fun i => BitVec.ofNat 16 (cardWord c 7 / 2 ^ (16 * i))

/-- What a card is checked against: it comes from a parameter block, from an overlay load, for the bank, from S or a node; its member
mask and this package. -/
structure CardFrom where
  block : Bool
  noFrame : Bool
  bank : Bool
  mask : W64
  self : Nat

def maskCount (m : W64) : Nat := popCount 64 m.toNat
/-- The rank of a package: the set bits below it. -/
def rankOf (m : W64) (pkg : Nat) : Nat := popCount pkg m.toNat

/-- The OLEN an operation requires (R284). -/
def olenFor (op t n r : Nat) : Nat := if op = 1 then ceilDiv (t - r) n else if op = 2 then n * t else t

def sizeBad (c : List W64) (f : CardFrom) : Bool :=
  let w := cardWord c 3
  match cardKind c with
  | 0 => decide (bits w 63 33 ≠ 0) || decide (w = 0) || decide (w > 2 ^ 32)
  | 1 => (decide (cardSrcPitch c ≠ 0) && decide (cardSrcPitch c < cardRowBytes c))
      || (decide (cardRows c ≠ 1) && decide (cardDstPitch c < cardRowBytes c))
  | 2 => decide (bits w 63 17 ≠ 0) || decide (w < 32) || decide (w > 65536) || decide (w % 32 ≠ 0) || (f.bank && decide (w ≠ 1024))
  | _ =>
    let n := maskCount f.mask
    let t := cardIlen c
    decide (cardOp c > 4) || decide (bits w 43 42 ≠ 0) || decide (t = 0) || decide (cardOlen c = 0) || decide (n < 2)
      || !bit f.mask.toNat f.self || (decide (cardOp c = 1) && decide (t < n))
      || decide (cardOlen c ≠ olenFor (cardOp c) t n (rankOf f.mask f.self))

def wordBad (c : List W64) (f : CardFrom) (i : Nat) : Bool :=
  let w := cardWord c i
  let n := cardReads c + cardWrites c
  match i with
  | 0 => decide (cardKind c > 3) || decide (cardClass c = 3) || bit w 56 || decide (bits w 48 0 ≠ 0) || decide (cardPreds c > 4)
      || decide (n > (if cardPreds c = 0 then 4 else 3)) || (decide (cardKind c = 2) && decide (cardWrites c ≠ 0))
      || (f.block && (decide (cardKind c = 3) || (decide (cardKind c = 2) && f.noFrame)))
  | 1 => decide (cardKind c = 2) && decide (w % 32 ≠ 0)
  | 2 => decide (cardKind c = 2) && (decide (w > 1) || (f.bank && decide (w ≠ 0)))
  | 3 => sizeBad c f
  | _ =>
    if i - 4 < n then regionBad w
    else if i = 7 && decide (cardPreds c ≠ 0) then decide (cardPreds c < 4) && decide (w / 2 ^ (16 * cardPreds c) ≠ 0)
    else decide (w ≠ 0)

/-- The first malformed word of a card. -/
def cardBad (c : List W64) (f : CardFrom) : Option Nat := (List.range 8).find? fun i => wordBad c f i

/-! ## Footprints (R99, R103) -/

def impliedRead (c : List W64) : Region :=
  match cardKind c with
  | 1 => { base := cardWord c 1, len := cardRowBytes c, rows := cardRows c, pitch := cardSrcPitch c }
  | 3 => { base := cardWord c 1, len := 64 * cardIlen c }
  | _ => { base := cardWord c 1, len := cardWord c 3 }

def impliedWrite (c : List W64) : List Region :=
  match cardKind c with
  | 0 => [{ base := cardWord c 2, len := cardWord c 3 }]
  | 1 => [{ base := cardWord c 2, len := cardRowBytes c, rows := cardRows c, pitch := cardDstPitch c }]
  | 2 => []
  | _ => [{ base := cardWord c 2, len := 64 * cardOlen c }]

def declaredReads (c : List W64) : List Region := (List.range (cardReads c)).map fun i => regionOf (cardWord c (4 + i))
def declaredWrites (c : List W64) : List Region := (List.range (cardWrites c)).map fun i => regionOf (cardWord c (4 + cardReads c + i))

/-- The byte ranges of a region. -/
def Region.ranges (r : Region) : List (Nat × Nat) := (List.range r.rows).map fun k => (r.base + k * r.pitch, r.len)

/-- The bytes two regions share. -/
def sharedBytes (a b : Region) : List (Nat × Nat) :=
  a.ranges.flatMap fun x => b.ranges.filterMap fun y =>
    let lo := max x.1 y.1
    let hi := min (x.1 + x.2) (y.1 + y.2)
    if lo < hi then some (lo, hi - lo) else none

def overlaps (a b : Region) : Bool := decide (sharedBytes a b ≠ [])

/-- Two footprints overlap with a write: RAW, WAR or WAW. -/
def footprintsMeet (ra wa rb wb : List Region) : Bool :=
  rb.any (fun b => wa.any (overlaps b)) || wb.any (fun b => (ra ++ wa).any (overlaps b))

/-! ## The bytes a job moves -/

def jobRead (j : Job) : Region := j.reads.headD { base := 0, len := 0 }
def jobWrite (j : Job) : Region := if cardKind j.card = 2 then { base := 0, len := 0 } else j.writes.headD { base := 0, len := 0 }

/-- Runs with their offsets in what the job moves. -/
def offRuns : Nat → List Run → List (Nat × Run)
  | _, [] => []
  | off, r :: rs => (off, r) :: offRuns (off + r.len) rs

/-- Every slice that n bytes reach is on. -/
def awakeAll (s : State) (pa n : Nat) : Chk Unit :=
  match (List.range (bayOfPa (pa + n - 1) - bayOfPa pa + 1)).filterMap fun i =>
      (match awake s (pa + i * Config.sliceSize) with
        | .ok _ => none
        | .error h => some h) with
  | h :: _ => .error h
  | [] => .ok ()

/-- What keeps bytes reached through a pod page of this package from being accessed. -/
def podCheck (s : State) (r : Run) : Chk Unit :=
  if r.pod then
    let st := homeStatus s r.striped r.pa r.len r.key
    if st = statusOk then .ok () else .error (.trap .fabricError (statusTrap st (selfPkg s) r.va).info)
  else .ok ()

/-- A run cut at aligned 8-byte units, the units of a job's events (03 R74), each with its offset in what the job moves. -/
def unitsOf : Nat → Nat → Run → List (Nat × Run)
  | 0, _, _ => []
  | f + 1, off, r =>
    if r.len = 0 then []
    else
      let k := min (8 - r.pa % 8) r.len
      (off, { r with len := k }) :: unitsOf f (off + k) { r with va := r.va + k, pa := r.pa + k, len := r.len - k }

def runUnits (off : Nat) (r : Run) : List (Nat × Run) := unitsOf (r.len / 8 + 2) off r

/-- Bytes of this package read by a job. -/
def readHere (s : State) (j : Job) (r : Run) : Chk (List Byte) := do
  awakeAll s r.pa r.len
  podCheck s r
  match s.mem.read j.ctx r.key r.pa r.len with
  | some bs => .ok bs
  | none => .error (.poison j.ctx (s.mem.badLine j.ctx r.pa r.len))

/-- Units read before, and the others read now. -/
def readUnitsHere (s : State) (j : Job) : List (Nat × Run) → Chk (List Byte)
  | [] => .ok []
  | (off, r) :: rest => do
    let bs ← (match List.lookup off j.parts with
      | some bs => .ok bs
      | none => readHere s j r)
    let more ← readUnitsHere s j rest
    .ok (bs ++ more)

/-- The bytes of a run of the source: read here, or brought by the answers to its requests. -/
def readChunk (s : State) (j : Job) (off : Nat) (r : Run) : Chk (List Byte) :=
  match r.home with
  | some _ =>
    let got := (cutRun (r.len / 256 + 1) off r).map fun x => List.lookup x.1 j.parts
    if got.all Option.isSome then .ok (got.flatMap fun x => x.getD []) else .error .wait
  | none => if j.parts = [] then readHere s j r else readUnitsHere s j (runUnits off r)

def readChunks (s : State) (j : Job) : List (Nat × Run) → Chk (List Byte)
  | [] => .ok []
  | (off, r) :: rest => do
    let bs ← readChunk s j off r
    let more ← readChunks s j rest
    .ok (bs ++ more)

/-- All that a job reads, in the order it reads it. -/
def jobBytes (s : State) (j : Job) : Chk (List Byte) :=
  match j.data with
  | some bs => .ok bs
  | none => readChunks s j (offRuns 0 (jobRead j).runs)

/-- Whether this package can take the writes of a job. -/
def checkDest (s : State) (ctx : W16) : List Run → Chk Unit
  | [] => .ok ()
  | r :: rs => do
    if r.home.isNone then
      awakeAll s r.pa r.len
      podCheck s r
      need (!s.mem.writeBlocked ctx r.pa r.len) (.poison ctx (s.mem.blockedLine ctx r.pa r.len))
    checkDest s ctx rs

/-- One unit of a run written: its line is made ready as a write of the whole run makes it. -/
def Memory.writeUnit (m : Memory) (ctx : W16) (r u : Run) (bs : List Byte) : Memory :=
  (((m.noteSwept ctx u.pa u.len).unweir u.pa u.len).claim ctx r.key r.pa r.len (linesOf u.pa u.len)).setBytes u.pa bs

/-- The writes of a job that this package performs, but for the units written before. -/
def writeRuns (m : Memory) (ctx : W16) (runs : List Run) (bs : List Byte) (done : List Nat) : Memory :=
  (offRuns 0 runs).foldl (fun m x =>
    if x.2.home.isSome then m
    else if done = [] then m.write ctx x.2.key x.2.pa ((bs.drop x.1).take x.2.len)
    else (runUnits x.1 x.2).foldl (fun m u =>
      if done.contains u.1 then m else m.writeUnit ctx x.2 u.2 ((bs.drop u.1).take u.2.len)) m) m

/-- The run and place of one byte of what a job moves. -/
def placeIn (runs : List Run) (k : Nat) : Option Run :=
  ((offRuns 0 runs).find? fun x => decide (x.1 ≤ k) && decide (k < x.1 + x.2.len)).map fun x => { x.2 with pa := x.2.pa + (k - x.1), len := 1 }

/-- The bytes of what a job moves that lie at bad lines here: poisoned, or orphaned. -/
def badSpans (m : Memory) (ctx : W16) (runs : List Run) : List (Nat × Nat) :=
  (offRuns 0 runs).flatMap fun x =>
    if x.2.home.isSome then []
    else ((linesOf x.2.pa x.2.len).filter fun u => m.meets ctx u = .poisoned || m.meets ctx u = .orphan).map fun u =>
      let lo := max u x.2.pa
      (x.1 + (lo - x.2.pa), min (u + 64) (x.2.pa + x.2.len) - lo)

/-- The lines here of bytes of a region. -/
def linesAt (runs : List Run) (off len : Nat) : List Nat :=
  ((List.range len).filterMap fun k => (placeIn runs (off + k)).bind fun w => if w.home.isNone then some (lineOf w.pa) else none).eraseDups

/-- The tiles of the destination here that tile t of what this package contributes would have reached (10 R284). -/
def tilesReached (s : State) (j : Job) (t : Nat) : List Nat :=
  let n := maskCount j.mask
  let r := rankOf j.mask (selfPkg s)
  match cardOp j.card with
  | 1 => if t % n = r then [t / n] else []
  | 2 => [r * cardIlen j.card + t]
  | 3 => if r = 0 then [t] else []
  | _ => [t]

/-- The destination lines here that bytes [off, off + len) of what a job reads would have reached. -/
def destLines (s : State) (j : Job) (off len : Nat) : List Nat :=
  if cardKind j.card = 3 then
    ((List.range (ceilDiv (off % 64 + len) 64)).flatMap fun i => (tilesReached s j (off / 64 + i)).flatMap fun u => linesAt (jobWrite j).runs (64 * u) 64).eraseDups
  else linesAt (jobWrite j).runs off len

/-- They are left poisoned, as a source that is poisoned leaves them (02 R66). A destination in another package stays as it is: no packet carries
poison there. DESIGN CHOICE (log 93). -/
def State.poisonReached (s : State) (j : Job) (off len : Nat) : State :=
  (destLines s j off len).foldl (fun s u => s.leavePoison j.ctx u 64) s

/-- The same for every byte of the source here that is bad. -/
def State.poisonDest (s : State) (j : Job) : State :=
  (badSpans s.mem j.ctx (jobRead j).runs).foldl (fun s x => s.poisonReached j x.1 x.2) s

/-! ### A job's events, one at a time (03 R74, R82) -/

/-- An event of a running job: a unit read, or one written whose bytes it has. -/
inductive JobEvent where
  | read (off : Nat) (r : Run)
  | write (off : Nat) (whole r : Run) (bs : List Byte)

def hereUnits (runs : List Run) : List (Nat × Run × Run) :=
  (offRuns 0 runs).flatMap fun x => if x.2.home.isNone then (runUnits x.1 x.2).map fun u => (u.1, x.2, u.2) else []

/-- The units that a job has not read. -/
def unread (j : Job) : List (Nat × Run) :=
  if j.data.isSome then [] else (hereUnits (jobRead j).runs).filterMap fun u => if (List.lookup u.1 j.parts).isNone then some (u.1, u.2.2) else none

/-- Bytes [off, off + n) of what a job moves, once it has read them. -/
def movedBytes (j : Job) (off n : Nat) : Option (List Byte) :=
  match j.data with
  | some bs => some ((bs.drop off).take n)
  | none =>
    let bs := (List.range n).filterMap fun i =>
      (List.find? (fun (p : Nat × List Byte) => decide (p.1 ≤ off + i) && decide (off + i < p.1 + p.2.length)) j.parts).bind fun p => p.2[off + i - p.1]?
    if bs.length = n then some bs else none

def runsMeet (a b : Run) : Bool := decide (a.pa < b.pa + b.len) && decide (b.pa < a.pa + a.len)

/-- The units that a job may write now: its reads of a unit come before its writes to it, and its writes to one unit in region order. -/
def writable (j : Job) : List JobEvent :=
  let left := (hereUnits (jobWrite j).runs).filter fun u => !j.written.contains u.1
  left.filterMap fun u =>
    if (unread j).any (fun r => runsMeet r.2 u.2.2) || left.any (fun v => decide (v.1 < u.1) && runsMeet v.2.2 u.2.2) then none
    else (movedBytes j u.1 u.2.2.len).map fun bs => .write u.1 u.2.1 u.2.2 bs

def jobEvents (j : Job) : List JobEvent :=
  (unread j).map (fun u => .read u.1 u.2) ++ if cardKind j.card ≤ 1 then writable j else []

/-! ## The hazard table -/

def State.job? (s : State) (b : Nat) (seq : W32) : Option Job := (s.bay b).jobs.find? fun j => j.seq = seq

def State.putJob (s : State) (b : Nat) (j : Job) : State :=
  let y := s.bay b
  s.putBay b { y with jobs := y.jobs.map fun k => if k.seq = j.seq then j else k }

/-- A command's name as predecessor words give it. -/
def cmdName (cl : Cl) (index : BitVec 15) : BitVec 16 := BitVec.ofNat 16 (boolNat (decide (cl = .S)) * 2 ^ 15 + index.toNat)

/-- A command of a task is over: what waited for it by name waits no more (R113). -/
def State.meet (s : State) (b : Nat) (w : Who) (name : BitVec 16) : State :=
  let y := s.bay b
  s.putBay b { y with jobs := y.jobs.map fun k =>
    if k.node.isNone && k.who = w then { k with named := k.named.filter fun x => x ≠ name } else k }

/-- A job leaves the table, and its successors wait for it no more. -/
def State.freeJob (s : State) (b : Nat) (j : Job) : State :=
  let y := s.bay b
  let rest := (y.jobs.filter fun k => k.seq ≠ j.seq).map fun k => { k with preds := k.preds.filter fun x => x ≠ j.seq }
  let s1 := s.putBay b { y with jobs := rest }
  if j.node.isNone then s1.meet b j.who (cmdName j.cl j.index) else s1

/-- JOB, stream, index and bay sequence number, as header offset 80 holds them (14 R377). -/
def jobWord (cl : Cl) (index : BitVec 15) (seq : W32) : W64 :=
  BitVec.ofNat 64 (2 ^ 63 + boolNat (decide (cl = .S)) * 2 ^ 47 + index.toNat * 2 ^ 32 + seq.toNat)

/-- The core at which a node's failures stand: its graph's anchor. -/
def anchorOf (s : State) (g : Nat) : Nat :=
  match s.graph? g with
  | some x => x.anchor
  | none => 0

/-- The failure of a command or a job reaches its lane, its node, or the node of a task that is no more. -/
def State.tellFailure (s : State) (n : Nat) (core : Option Nat) (node : Option (Nat × Nat)) (cl : Cl) (flight : Nat) (who : Who) (t : Trap) :
    State :=
  match node, core with
  | some (g, i), _ => s.wholeOr (fun s => s.faultNode g i t 0 (anchorOf s g) false) fun s => s.postReport n { cl := cl, trap := t, who := who }
  | none, some c => (s.failFlight c cl flight).postReport c { cl := cl, trap := t, who := who }
  | none, none =>
    let r : Report := { cl := cl, trap := t, who := who }
    s.wholeOr (fun s => s.reportNode n r) fun s => s.postReport n r

/-- What its group has sent and is not answered, and what has come for it, is given up with a collective. -/
def State.dropContribs (s : State) (j : Job) : State :=
  if cardKind j.card = 3 then
    s.withFab { s.fab with resend := s.fab.resend.filter fun x => !(x.1.ctx = j.ctx && x.1.group = cardGroup j.card)
                           arrived := s.fab.arrived.filter fun p => !(p.ctx = j.ctx && p.group = cardGroup j.card) }
  else s

/-- A job fails while it runs: the writes that it has performed stand, and it performs no other (R102). -/
def State.failJob (s : State) (b : Nat) (j : Job) (t : Trap) : State :=
  let c := s.core j.target
  let f := cardWord j.card 2
  let s2 := if cardKind j.card = 2 && !j.bank then s.putCore j.target (c.putFrame f (c.frame f).fail) else s
  let t1 := if j.node.isSome then t else { t with lseq := j.iseq, job := jobWord j.cl j.index j.seq }
  ((s2.freeJob b j).dropContribs j).tellFailure j.target j.core j.node j.cl j.flight j.who t1

/-- A job that met poison: what its source would have reached is poisoned, and its context ends (02 R65, R66). -/
def State.failPoison (s : State) (b : Nat) (j : Job) (pa : Nat) : State :=
  ((s.poisonDest j).failJob b j { cause := .uncorrectable, info := 0 }).poisonMet j.ctx pa

/-- What becomes of a job that cannot go on: it waits for a slice, or it fails. -/
def State.jobHalt (s : State) (b : Nat) (j : Job) : Halt → State
  | .trap c info => s.failJob b j { cause := c, info := info }
  | .poison _ pa => s.failPoison b j pa
  | .wait => s
  | h => s.delayed h

/-! ## Leaves of jobs (15 R397, R398, R401) -/

def firstRun (r : Region) : Nat × Nat :=
  match r.runs with
  | x :: _ => (x.fmt, x.geo)
  | [] => (0, 0)

/-- The leaf of a job that read and wrote some bytes; `b` : the digest of a collective's contributions. -/
def jobLeaf (s : State) (j : Job) (read wrote : List Byte) (b : Option (List Byte)) : LeafParts :=
  let base : LeafParts := match j.node with
    | some (g, i) =>
      let det := match s.graph? g with
        | some x => x.det
        | none => false
      { cluster := 0, walk := nodeUsed ((s.node g i).w 0), pkg := pkgId s, core := anchorOf s g, mode := modeWord false false det det 0 0 0 0 0 0,
        node := i }
    | none => leafOfTask s (s.taskOf j.who) j.target j.cl 1 j.iseq j.word j.sv
  let (fa, ga) := firstRun (jobRead j)
  let (fr, gr) := firstRun (jobWrite j)
  let w3 := cardWord j.card 3
  { base with
    mode := base.mode + gr * 2 ^ 20 + fr * 2 ^ 16 + ga * 2 ^ 4 + fa
    param := j.card.flatMap fun w => bytesOf 8 w.toNat
    a := { addr := cardWord j.card 1, geom := w3, digest := blake3 read }
    b := match b with
      | some d => { addr := 0, digest := d }
      | none => noOperand
    res := { addr := cardWord j.card 2, geom := w3, digest := blake3 wrote } }

/-- A node's copy job is over: its leaf goes to the log, and its hash stands in its root area and is its node root (15 R401 to R403). -/
def State.nodeJobDone (s : State) (g i : Nat) (leaf : List Byte) : State :=
  match s.graph? g with
  | none => s
  | some x =>
    let n := s.node g i
    if n.status ≠ 2 then s
    else
      let h := leafHash leaf
      let s1 := if nodeAudit (n.w 0) then
          ((s.vaWrite x.ctx (.store 8) (n.w 9 + 32) h).putNode g i { n with roots := [(0, h)] }).logAppend x.die leaf
        else s
      (s1.completeNode g i).settle g

/-- A job completes: its lane with its leaf and its write match, or its node (R102; 14 R389).
`more` : the leaves that follow its own. -/
def State.finishJob (s : State) (b : Nat) (j : Job) (read wrote : List Byte) (d : Option (List Byte)) (more : List (List Byte)) : State :=
  let leaf := (jobLeaf s j read wrote d).bytes
  let s1 := (s.freeJob b j).dropContribs j
  match j.node, j.core with
  | some (g, i), _ => s1.nodeJobDone g i leaf
  | none, some n =>
    let c := s1.core n
    let x := c.cluster j.cl
    let x1 := { x with flights := x.flights.map fun f => if f.no = j.flight then { f with watch := j.watch } else f }
    (s1.putCore n ((c.putCluster j.cl x1).fillLeaf j.cl j.flight (leaf :: more))).completeFlight n j.cl j.flight
  | none, none => s1

end Sys2Proof.Machine
end

