-- ==== Sys2Proof/Machine/Combine.lean ====
section
/-! DEFINITION. Collectives: contributions, combining tables, flagged folds at the destination, aborts (05 R139 to R144; 10 R284). -/

namespace Sys2Proof.Machine
open Sys2Proof

/-! ## Members and tiles -/

def membersOf (m : W64) : List Nat := setBitsOf 64 0 m.toNat
def memberOfRank (m : W64) (r : Nat) : Nat := (membersOf m).getD r 0
def reduces (op : Nat) : Bool := op = 0 || op = 1 || op = 4

/-- The tiles of bytes. -/
def tilesOf (bs : List Byte) : List (List W32) :=
  (List.range (bs.length / 64)).map fun t => (List.range 16).map fun i => BitVec.ofNat 32 (ofBytes ((bs.drop (64 * t + 4 * i)).take 4))

def tileBytes (t : List W32) : List Byte := t.flatMap fun x => bytesOf 4 x.toNat

/-- One step of Fold (R140). -/
def foldTile (op : Nat) (acc t : List W32) : List W32 :=
  (acc.zip t).map fun p => BitVec.ofNat 32 (if op = 4 then fmax32 p.1.toNat p.2.toNat else fadd32 p.1.toNat p.2.toNat)

/-- The collective of a group that this package's copy engines have accepted. -/
def collJobs (s : State) (ctx : W16) (group : Nat) : List (Nat × Job) :=
  s.bays.flatMap fun b => (b.2.jobs.filter fun j => cardKind j.card = 3 && j.ctx = ctx && cardGroup j.card = group).map fun j => (b.1, j)

def collJob (s : State) (ctx : W16) (group : Nat) : Option (Nat × Job) := (collJobs s ctx group).head?

/-- The tile of a job's destination at a physical address, with the run it lies in. -/
def tileAt (j : Job) (pa : Nat) : Option (Nat × Run) :=
  match (offRuns 0 (jobWrite j).runs).find? fun x => decide (x.2.pa ≤ pa) && decide (pa < x.2.pa + x.2.len) with
  | some (off, r) => some ((off + (pa - r.pa)) / 64, r)
  | none => none

/-- The physical address of a tile of a job's destination. -/
def tilePa (j : Job) (u : Nat) : Nat :=
  match placeIn (jobWrite j).runs (64 * u) with
  | some r => r.pa
  | none => 0

def tileKey (j : Job) (u : Nat) : Nat :=
  match placeIn (jobWrite j).runs (64 * u) with
  | some r => r.key
  | none => 0

/-! ## Answers -/

/-- An answer to a contribution of this package: taken, or refused and kept for re-sending. -/
def State.contribAnswered (s : State) (tag status : Nat) : State :=
  if status = statusRetry then s else s.withFab { s.fab with resend := s.fab.resend.filter fun x => x.1.tag ≠ tag }

/-- The class of a group's traffic here: its job's. -/
def groupClass (s : State) (ctx : W16) (group : Nat) : Nat :=
  match collJob s ctx group with
  | some (_, j) => cardClass j.card
  | none => 0

/-- Every contribution is answered (16 R416). -/
def State.answer (s : State) (p : Contrib) (status : Nat) : State :=
  if p.src = selfPkg s then s.contribAnswered p.tag status
  else s.sendResponse (groupClass s p.ctx p.group)
    { src := selfPkg s, dst := p.src, core := 0, tag := p.tag, sInc := selfInc s, rInc := peerInc s p.src, ctx := p.ctx, status := status,
      data := [] }

/-- A contribution is noted for the digest of its leaf (15 R398). -/
def State.noteArrival (s : State) (p : Contrib) : State :=
  if p.isPrefix || s.fab.arrived.any (fun q => q.ctx = p.ctx && q.group = p.group && q.idx = p.idx && q.dst = p.dst) then s
  else s.withFab { s.fab with arrived := s.fab.arrived ++ [p] }

/-! ## Sending -/

/-- A contribution of a job's, to a package; one to this package stays in the list until it is taken. -/
def State.sendContrib (s : State) (j : Job) (pkg dst : Nat) (place : Bool) (idx : Nat) (tile : List W32) : State :=
  let (tag, s1) := s.newTag
  let self := selfPkg s
  let p : Contrib := { src := self, tag := tag, sInc := selfInc s, rInc := peerInc s pkg, ctx := j.ctx, group := cardGroup j.card,
                       op := cardOp j.card, flagged := false, isPrefix := false, place := place, idx := idx, dst := dst, mask := j.mask,
                       ilen := cardIlen j.card, olen := cardOlen j.card, tile := tile }
  let s2 := s1.withFab { s1.fab with resend := s1.fab.resend ++ [(p, pkg)] }
  if pkg = self then s2 else s2.send (cardClass j.card) j.target pkg (.contrib p j.target) (.contrib p pkg)

/-- Where a member's destination has a tile. -/
def destOf (s : State) (j : Job) (pkg u : Nat) : Nat :=
  if pkg = selfPkg s then tilePa j u else Config.destTile j.ctx.toNat (cardGroup j.card) pkg u

def State.sendTile (s : State) (j : Job) (pkg u : Nat) (place : Bool) (tile : List W32) : State :=
  s.sendContrib j pkg (destOf s j pkg u) place (rankOf j.mask (selfPkg s)) tile

/-- All that a member contributes: each tile to the rank that reduces it, or to every member. -/
def State.sendAll (s : State) (j : Job) (bs : List Byte) : State :=
  let op := cardOp j.card
  let n := maskCount j.mask
  let r := rankOf j.mask (selfPkg s)
  (tilesOf bs).zipIdx.foldl (fun s p =>
    let (tile, t) := p
    if reduces op then s.sendTile j (memberOfRank j.mask (t % n)) (if op = 1 then t / n else t) false tile
    else if op = 2 then (membersOf j.mask).foldl (fun s pkg => s.sendTile j pkg (r * cardIlen j.card + t) true tile) s
    else if r = 0 then (membersOf j.mask).foldl (fun s pkg => s.sendTile j pkg t true tile) s
    else s) s

/-! ## Tiles at the destination -/

/-- The other members of a collective, and the first of them that is not up (R126, R135). -/
def othersOf (s : State) (j : Job) : List Nat := (membersOf j.mask).filter fun pkg => pkg ≠ selfPkg s
def memberGone (s : State) (j : Job) : Option Nat := (othersOf s j).find? fun pkg => !peerUp s pkg

/-- A collective that cannot reach a member fails. -/
def State.failGone (s : State) (b : Nat) (j : Job) (pkg : Nat) : State := s.failJob b j (goneTrap pkg (cardWord j.card 2))

/-- A tile of the destination is final; an all-reduce passes it on to the other ranks (R139). -/
def State.tileDone (s : State) (b : Nat) (j : Job) (u : Nat) (tile : List W32) (reduced : Bool) : State :=
  let j1 := { j with tiles := Map.set j.tiles u tile }
  let s1 := s.putJob b j1
  let op := cardOp j.card
  if reduced && (op = 0 || op = 4) then
    match memberGone s j with
    | some pkg => s1.failGone b j1 pkg
    | none => (othersOf s j).foldl (fun s pkg => s.sendTile j1 pkg u true tile) s1
  else s1

/-- 64 bytes written at their home, under the key their page has. -/
def writeTile (s : State) (j : Job) (u : Nat) (tile : List W32) : Memory := s.mem.write j.ctx (tileKey j u) (tilePa j u) (tileBytes tile)

/-- A byte-exact tile arrives: written, or refused while no job here can take it. -/
def State.placeTile (s : State) (p : Contrib) : State :=
  match (collJobs s p.ctx p.group).find? fun x => x.2.started with
  | none => s.answer p statusRetry
  | some (b, j) =>
    match tileAt j p.dst with
    | none => s.answer p statusRange
    | some (u, _) => ((s.withMem (writeTile s j u p.tile)).tileDone b j u p.tile false).answer p statusOk

/-! ## Flagged tiles (R141) -/

def keyOf (p : Contrib) : W16 × Nat × Nat := (p.ctx, p.group, p.dst)

/-- A contribution waits here. -/
def State.keep (s : State) (p : Contrib) : State := s.withFab { s.fab with kept := s.fab.kept ++ [p] }

/-- The copy engine of the destination bay folds a tile into memory, or refuses it; a prefix of this package's router, which no source could send
again, waits for the job. DEDUCED (log 27). -/
def State.flagTile (s : State) (p : Contrib) : State :=
  match (collJobs s p.ctx p.group).find? fun x => x.2.started with
  | none => if p.isPrefix && p.src = selfPkg s then s.keep p else s.answer p statusRetry
  | some (b, j) =>
    match tileAt j p.dst with
    | none => s.answer p statusRetry
    | some (u, _) =>
      let k := Map.get 0 j.folded u
      let n := maskCount j.mask
      let go (tile : List W32) (count : Nat) : State :=
        let j1 := { j with folded := Map.set j.folded u count }
        let s1 := (s.withMem (writeTile s j u tile)).putJob b j1
        let s2 := if count = n then
            (s1.withFab { s1.fab with flaggedKeys := s1.fab.flaggedKeys.filter fun q => q ≠ keyOf p }).tileDone b j1 u tile true
          else s1
        s2.answer p statusOk
      if p.isPrefix then (if k = 0 then go p.tile p.idx else s.answer p statusRetry)
      else if p.idx ≠ k then s.answer p statusRetry
      else if k = 0 then go p.tile 1
      else match s.mem.read j.ctx (tileKey j u) (tilePa j u) 64 with
      | some bs => go (foldTile p.op ((tilesOf bs).headD []) p.tile) (k + 1)
      | none => (s.failPoison b j (s.mem.badLine j.ctx (tilePa j u) 64)).answer p statusOk

/-- The router forwards a contribution flagged. -/
def State.forwardFlagged (s : State) (p : Contrib) : State :=
  (s.withFab { s.fab with combFlagged := s.fab.combFlagged + 1 }).flagTile { p with flagged := true }

/-! ## The combining table (R139 to R141) -/

def combAt (s : State) (p : Contrib) : Option Comb :=
  s.fab.combs.find? fun e => e.ctx = p.ctx && e.group = p.group && e.dst = p.dst

def State.dropComb (s : State) (e : Comb) : State := s.withFab { s.fab with combs := s.fab.combs.filter fun x => x ≠ e }

def State.putComb (s : State) (old new : Comb) : State :=
  s.withFab { s.fab with combs := s.fab.combs.map fun x => if x = old then new else x }

/-- The whole fold is written at its destination. DESIGN CHOICE (log 26). -/
def State.combDone (s : State) (e : Comb) : State :=
  let s1 := s.dropComb e
  match collJob s1 e.ctx e.group with
  | none => s1.withMem (s1.mem.write e.ctx 0 e.dst (tileBytes e.acc))
  | some (b, j) =>
    match tileAt j e.dst with
    | none => s1.withMem (s1.mem.write e.ctx 0 e.dst (tileBytes e.acc))
    | some (u, _) => (s1.withMem (writeTile s1 j u e.acc)).tileDone b j u e.acc true

/-- Contribution k into an entry, then the parked one if it is next. -/
def foldOne (e : Comb) (p : Contrib) : Comb := { e with k := e.k + 1, acc := if e.k = 0 then p.tile else foldTile e.first.op e.acc p.tile }

def State.foldIn (s : State) (e : Comb) (p : Contrib) : State :=
  let e1 := foldOne e p
  let s1 := s.answer p statusOk
  let (e2, s2) := match e1.parked with
    | some q => if q.idx = e1.k then ({ foldOne e1 q with parked := none }, s1.answer q statusOk) else (e1, s1)
    | none => (e1, s1)
  let s3 := s2.putComb e e2
  if e2.k = maskCount e2.first.mask then s3.combDone e2 else s3

/-- The fold of an entry, as this package's own router forwards it; no request has its tag. -/
def prefixOf (s : State) (e : Comb) (p : Contrib) : Contrib :=
  { p with src := selfPkg s, tag := 2 ^ 32, isPrefix := true, idx := e.k, tile := e.acc }

/-- Overflow: the contribution, the prefix and the parked tile go on flagged, and so does all that comes later for the key. -/
def State.combOverflow (s : State) (e : Option Comb) (p : Contrib) : State :=
  let s1 := (s.withFab { s.fab with flaggedKeys := s.fab.flaggedKeys ++ [keyOf p] }).forwardFlagged p
  match e with
  | none => s1
  | some e =>
    let s2 := if e.k > 0 then s1.forwardFlagged (prefixOf s e p) else s1
    let s3 := match e.parked with
      | some q => s2.forwardFlagged q
      | none => s2
    s3.dropComb e

def combEntries : Nat := 4096

/-- A contribution at the router of the die that owns its destination. -/
def State.combine (s : State) (p : Contrib) : State :=
  if s.fab.flaggedKeys.contains (keyOf p) then s.forwardFlagged p
  else match combAt s p with
  | some e =>
    if p.idx = e.k then s.foldIn e p
    else if p.idx < e.k then s.answer p statusOk
    else if e.parked.isNone then s.putComb e { e with parked := some p }
    else s.combOverflow (some e) p
  | none =>
    let die := dieOfPa p.dst
    if (s.fab.combs.filter fun e => e.die = die).length ≥ combEntries then s.combOverflow none p
    else
      let e : Comb := { die := die, ctx := p.ctx, group := p.group, dst := p.dst, k := 0, acc := [], first := p }
      let s1 := s.withFab { s.fab with combs := s.fab.combs ++ [e] }
      if p.idx = 0 then s1.foldIn e p else s1.putComb e { e with parked := some p }

/-! ## Arrival -/

/-- A contribution agrees with the job here in OP, ILEN and mask (10 R284). -/
def agrees (j : Job) (p : Contrib) : Bool := decide (p.op = cardOp j.card) && decide (p.ilen = cardIlen j.card) && decide (p.mask = j.mask)

/-- FABRIC_ERROR and COLLECTIVE_ABORTED of a collective: no layout of TRAPINFO is given for them, so it is a free value.
DESIGN CHOICE (log 17). -/
def openInfo (s : State) : W64 := BitVec.ofNat 64 (Config.choice s.free)

/-- A contribution that reaches this package, or is its own. One whose slice is asleep waits for it (02 R70): its own package tries it again.
DEDUCED (log 27). -/
def State.takeContrib (s : State) (p : Contrib) : State :=
  if s.fab.abortedHere.contains (p.ctx, p.group) then s
  else if !(awakeAll s p.dst 64).isOk then
    let s1 := match awakeAll s p.dst 64 with
      | .ok _ => s
      | .error h => s.delayed h
    if p.src = selfPkg s then s1 else s1.keep p
  else match (collJobs s p.ctx p.group).find? fun x => !agrees x.2 p with
  | some (b, j) => (s.failJob b j { cause := .fabricError, info := openInfo s }).answer p statusOk
  | none =>
    let s1 := s.noteArrival p
    if p.place then s1.placeTile p else if p.flagged then s1.flagTile p else s1.combine p

/-- What waits here is tried again, in order. -/
def State.tryKept (s : State) : State :=
  s.fab.kept.foldl (fun s p => if p.isPrefix then s.flagTile p else s.takeContrib p) (s.withFab { s.fab with kept := [] })

def execTryKept (s : State) : Out := .next s.tryKept

/-- The contributions of this package to itself that have not been taken are tried, in order. -/
def State.tryOwn (s : State) (ctx : W16) (group : Nat) : State :=
  let self := selfPkg s
  (s.fab.resend.filter fun x => x.2 = self && x.1.ctx = ctx && x.1.group = group).foldl (fun s x =>
    let parked := s.fab.combs.any fun e => e.parked = some x.1
    if parked then s else s.takeContrib x.1) s

/-- A refused contribution is sent again. -/
def State.resendTo (s : State) (tag : Nat) : State :=
  match s.fab.resend.find? fun x => x.1.tag = tag with
  | some (p, pkg) =>
    if pkg = selfPkg s then s else s.send (groupClass s p.ctx p.group) 0 pkg (.contrib p 0) (.contrib p pkg)
  | none => s

/-! ### Between the dies (R136, R137) -/

/-- What comes in at one die for bytes of another crosses with a stamp, and its packet goes by their bridge (16 R427). DEDUCED (log 32). -/
def State.cross (s : State) (src dst cls : Nat) (req : Option RemoteReq) (tile : Option Contrib) (bs : List Byte) : State :=
  let d := s.die src
  let no := d.sent + 1
  let t := d.vector.setIfInBounds src no
  let s1 := s.putDie src { d with sent := no, lastSend := d.lastSend.setIfInBounds dst s.sys.pkgCycle.toNat }
  let e := s1.die dst
  let w : Wire := { src := src, came := s.fab.came, no := no, stamp := t, req := req, tile := tile }
  let s2 := (s1.putDie dst { e with wire := e.wire ++ [w] }).withFab { s1.fab with came := s1.fab.came + 1 }
  s2.queueAt (24 + 4 * src + dst) (min cls 2) false bs

/-- A contribution's packet: one of a life gone by is dropped and counted. A tile placed here is a write from another package: it crosses from the
die it comes in at to the one that holds its bytes (R136). DEDUCED (log 32). -/
def State.contribPacket (s : State) (p : Contrib) : State :=
  if !current s p.src p.sInc p.rInc then s.countStalePacket
  else
    let src := Config.ingressDie p.src 0 0 % 4
    let dst := dieOfPa p.dst % 4
    if p.place && src ≠ dst then s.cross src dst 0 none (some p) ((Packet.contrib p 0).payload (selfPkg s)) else s.takeContrib p

/-- CONTRIBUTION. -/
def execContribution (p : Contrib) (s : State) : Out := .next (s.contribPacket p)

/-- FLAGGED_TILE. -/
def execFlaggedTile (p : Contrib) (s : State) : Out := .next (s.contribPacket { p with flagged := true })

/-! ## Aborts (R144) -/

/-- A package that receives an ABORT: its jobs of the group fail, and its entries are freed. -/
def State.abortHere (s : State) (ctx : W16) (group : Nat) : State :=
  let s1 := (collJobs s ctx group).foldl (fun s x => s.failJob x.1 x.2 { cause := .collectiveAborted, info := openInfo s }) s
  let mine (c : W16) (g : Nat) : Bool := decide (c = ctx) && decide (g = group)
  s1.withFab { s1.fab with
    combs := s1.fab.combs.filter fun e => !mine e.ctx e.group
    flaggedKeys := s1.fab.flaggedKeys.filter fun k => !mine k.1 k.2.1
    arrived := s1.fab.arrived.filter fun p => !mine p.ctx p.group
    kept := s1.fab.kept.filter fun p => !mine p.ctx p.group
    resend := s1.fab.resend.filter fun x => !mine x.1.ctx x.1.group
    abortedHere := if s1.fab.abortedHere.contains (ctx, group) then s1.fab.abortedHere else s1.fab.abortedHere ++ [(ctx, group)] }

def abortHead (s : State) (opk dst : Nat) (ctx : W16) : PktHead :=
  { opk := opk, dst := dst, src := selfPkg s, sInc := selfInc s, rInc := peerInc s dst, ctx := ctx }

/-- An ABORT is applied and acknowledged. -/
def State.takeAbort (s : State) (src : Nat) (ctx : W16) (group : Nat) (mask : W64) : State :=
  let s1 := s.abortHere ctx group
  s1.send 2 0 src (.abortAck (abortHead s1 4 src ctx) group mask) (.abortAck src ctx group)

/-- COLLECTIVE_ABORT. -/
def execCollectiveAbort (src : Nat) (ctx : W16) (group : Nat) (mask : W64) (s : State) : Out := .next (s.takeAbort src ctx group mask)

/-- ABORT_ACK. -/
def State.abortAcked (s : State) (src : Nat) (ctx : W16) (group : Nat) : State :=
  let rest := (s.fab.aborting.map fun a => if a.1 = ctx && a.2.1 = group then (a.1, a.2.1, a.2.2.filter fun k => k ≠ src) else a).filter
    fun a => decide (a.2.2 ≠ [])
  s.withFab { s.fab with aborting := rest }

def execAbortAck (src : Nat) (ctx : W16) (group : Nat) (s : State) : Out := .next (s.abortAcked src ctx group)

/-- The group of a killed task's collective is aborted on every member, this one included. -/
def State.abortGroup (s : State) (j : Job) : State :=
  let others := (membersOf j.mask).filter fun k => k ≠ selfPkg s
  let g := cardGroup j.card
  let s1 := others.foldl (fun s k => s.send 2 0 k (.abort (abortHead s 3 k j.ctx) g j.mask) (.abort k j.ctx g j.mask)) s
  let s2 := s1.withFab { s1.fab with aborting := if others = [] then s1.fab.aborting else s1.fab.aborting ++ [(j.ctx, g, others)] }
  s2.abortHere j.ctx g

/-- The collectives of a core whose task a kill has reached. -/
def State.abortAll (s : State) (n : Nat) : State :=
  (((s.bay (bayOfCore n)).jobs.filter fun j => j.core = some n && cardKind j.card = 3)).foldl (fun s j => s.abortGroup j) s

end Sys2Proof.Machine
end

