-- ==== Sys2Proof/Machine/Ue.lean ====
section
/-! DEFINITION. The Ultra Ethernet engine: descriptors handed over by a copy job, packets sent and delivered, completion records
(16 R429 to R431; 15 R393, R397). -/

namespace Sys2Proof.Machine
open Sys2Proof

/-! ## The tree of a task, wherever it stands -/

def Task.mapTree (t : Task) (cl : Cl) (f : Tree → Tree) : Task := { t with block := t.block.map fun b => b.putTree cl (f (b.tree cl)) }

/-- The leaf under which the packets of a posted receive stand. -/
def recvKey (endpoint slot : Nat) : Nat := 2 ^ 48 + endpoint * 2 ^ 16 + slot

/-! ## Descriptors (R430) -/

def State.endpoint? (s : State) (e : Nat) : Option Endpoint := Map.find? s.fab.endpoints e
def State.putEndpoint (s : State) (i : Nat) (e : Endpoint) : State := s.withFab { s.fab with endpoints := Map.set s.fab.endpoints i e }

def descOp (w0 : Nat) : Nat := bits w0 63 62
def descPeer (w0 : Nat) : Nat := bits w0 47 32
def descLen (w0 : Nat) : Nat := bits w0 31 0
def descRecord (ws : List W64) : Nat := wordAt ws 3 % 2 ^ 56 / 32 * 32

/-- A completion record (R430). -/
def State.ueRecord (s : State) (ctx : W16) (ws : List W64) (status moved : Nat) : State :=
  s.vaPost ctx .jobWrite (descRecord ws)
    (bytesOf 8 status ++ bytesOf 8 moved ++ bytesOf 8 (descPeer (wordAt ws 0)) ++ bytesOf 8 (wordAt ws 2))

/-- The ring whose whole slots a region is: the endpoint, whether it is the receive ring, the first slot and their number. -/
def ringSlotsAt (base slots va len : Nat) : Option (Nat × Nat) :=
  if base ≤ va && va + len ≤ base + 64 * slots && (va - base) % 64 = 0 && len % 64 = 0 && 0 < len then some ((va - base) / 64, len / 64) else none

def ringOf (s : State) (ctx : W16) (va len : Nat) : Option (Nat × Bool × Nat × Nat) :=
  (s.fab.endpoints.filterMap fun e =>
    if e.2.ctx ≠ ctx then none
    else match ringSlotsAt e.2.sendVa.toNat e.2.sendSlots va len with
    | some (k, n) => some (e.1, false, k, n)
    | none => (ringSlotsAt e.2.recvVa.toNat e.2.recvSlots va len).map fun p => (e.1, true, p.1, p.2)).head?

/-- A descriptor is refused: its cluster, its OP, a field, or its buffer's pages. -/
def descBad (s : State) (e : Endpoint) (recv : Bool) (cl : Cl) (ws : List W64) : Bool :=
  let w := wordAt ws 0
  let path : Path := if recv then .jobWrite else .jobRead
  decide (cl ≠ (if recv then Cl.L else Cl.S)) || decide (descOp w ≠ boolNat recv) || decide (bits w 61 48 ≠ 0)
    || decide (descLen w = 0) || decide (descLen w > 2 ^ 24) || (List.range 4).any (fun i => wordAt ws (4 + i) ≠ 0)
    || (match translateRange s e.ctx false path anyFmt (wordAt ws 1) (descLen w) with
      | .ok _ => false
      | .error h => !h.delays)

/-! ## Sending -/

def payloadMax : Nat := 4096

def payloads : Nat → List Byte → List (List Byte)
  | 0, _ => []
  | f + 1, bs => if bs = [] then [] else bs.take payloadMax :: payloads f (bs.drop payloadMax)

/-- The leaf of a packet (15 R397). -/
def packetLeaf (s : State) (ctx : W16) (who : Who) (n : Nat) (cl : Cl) (iseq : BitVec 48) (word : W32) (sv : Bool) (va index : Nat) (bs : List Byte) :
    List Byte :=
  let (fmt, geo) := match findPage s ctx va with
    | .ok p => (leafFmt p.leaf, leafGeo p.leaf)
    | .error _ => (0, 0)
  let p := leafOfTask s (s.taskOf who) n cl 3 iseq word sv
  ({ p with mode := p.mode + geo * 2 ^ 20 + fmt * 2 ^ 16
            param := bytesOf 8 index ++ bytesOf 8 bs.length
            res := { addr := va, geom := bs.length % 2 ^ 30 * 2 ^ 32 + bs.length, digest := blake3 bs } }).bytes

/-- What reading the slots of a job has brought: the leaves of the packets sent, the leaves opened, and the packets so far. -/
structure Handed where
  st : State
  recs : List (List Byte) := []
  opens : List Leaf := []
  count : Nat := 0

/-- The packets of a message, handed to the network one after another. -/
def sendPackets (j : Job) (n ep : Nat) (peer : List Byte) (va : Nat) : List (List Byte) → Nat → Handed × List Nat → Handed × List Nat
  | [], _, x => x
  | bs :: rest, off, (h, nos) =>
    match h.st.endpoint? ep with
    | none => (h, nos)
    | some e =>
      let no := e.nextPacket
      let s1 := h.st.putEndpoint ep { e with nextPacket := no + 1 }
      let s2 := s1.withFab { s1.fab with sent := s1.fab.sent ++ [.uePacket ep no peer bs] }
      let leaf := packetLeaf s2 j.ctx j.who n .S j.iseq j.word j.sv (va + off) h.count bs
      sendPackets j n ep peer va rest (off + bs.length) ({ h with st := s2, recs := h.recs ++ [leaf], count := h.count + 1 }, nos ++ [no])

/-- A peer-table entry: address, endpoint index and job id (17 R437). -/
def peerBytes : Nat := 32

/-- One slot read. A send goes to the peer that its table entry names; a table page that gives no bytes refuses it as its buffer's would.
DESIGN CHOICE (log 102). -/
def handSlot (j : Job) (n ep : Nat) (recv : Bool) (h : Handed) (slot : Nat) : Handed :=
  let s := h.st
  match s.endpoint? ep with
  | none => h
  | some e =>
    match s.vaWords e.ctx ((if recv then e.recvVa else e.sendVa).toNat + 64 * slot) 8 with
    | .error x => { h with st := s.met x }
    | .ok ws =>
      if descBad s e recv j.cl ws then { h with st := s.ueRecord e.ctx ws 2 0 }
      else
        let w := wordAt ws 0
        let va := wordAt ws 1
        let d : UeDesc := { recv := recv, slot := slot, words := ws, core := n, ctx := e.ctx, who := j.who, iseq := j.iseq, word := j.word,
                            sv := j.sv, base := h.count }
        if recv then
          { h with st := s.putEndpoint ep { e with descs := e.descs ++ [d] }
                   opens := h.opens ++ [{ flight := recvKey ep slot, place := 0, opened := true }]
                   count := h.count + ceilDiv (descLen w) payloadMax }
        else match (do
          let peer ← s.vaRead e.ctx .jobRead (e.peerVa.toNat + peerBytes * descPeer w) peerBytes
          let bs ← s.vaRead e.ctx .jobRead va (descLen w)
          pure (peer, bs)) with
        | .error x => if x.delays then { h with st := s.met x } else { h with st := (s.met x).ueRecord e.ctx ws 2 0 }
        | .ok (peer, bs) =>
          let ps := payloads (ceilDiv bs.length payloadMax) bs
          let (h1, nos) := sendPackets j n ep peer va ps 0 (h, [])
          match h1.st.endpoint? ep with
          | none => h1
          | some e1 => { h1 with st := h1.st.putEndpoint ep { e1 with descs := e1.descs ++ [{ d with pkts := ps.length, bytes := bs.length, first := e1.nextPacket - ps.length, unacked := nos }] } }

/-- A copy job whose implied write region is whole slots of a ring hands them over when it completes (R431); after a kill of its task none is
read (R432). -/
def handOver (s : State) (j : Job) : Handed :=
  match (if s.dying j.who.scope then none else j.core), cardKind j.card with
  | some n, 0 =>
    match ringOf s j.ctx (cardWord j.card 2) (cardWord j.card 3) with
    | some (ep, recv, first, count) => (List.range count).foldl (fun h k => handSlot j n ep recv h (first + k)) { st := s }
    | none => { st := s }
  | _, _ => { st := s }

/-- Leaves put behind the leaf of a flight, at its place. -/
def putBehind (flight : Nat) (ls : List Leaf) : List Leaf → List Leaf
  | [] => ls
  | l :: rest => if l.flight = flight && !l.note then l :: ls.map (fun k => { k with place := l.place }) ++ rest else l :: putBehind flight ls rest

/-- The leaves of posted receives stand after their job's own, before those of later lanes (15 R393, R394). -/
def State.openLeaves (s : State) (j : Job) (ls : List Leaf) : State :=
  if ls = [] then s else s.mapTask j.who fun t => t.mapTree j.cl fun x => { x with held := putBehind j.flight ls x.held }

/-! ## Ends of messages -/

/-- A posted receive's leaf takes no more packets. -/
def State.closeLeaf (s : State) (ep : Nat) (d : UeDesc) : State :=
  if d.recv then
    s.mapTask d.who fun t => t.mapTree .L fun x =>
      { x with held := x.held.map fun l => if l.flight = recvKey ep d.slot then { l with ready := true } else l }
  else s

/-- The reply to a destroy request: no descriptor is left, and every completion record is written (17 R437). -/
def answerDestroyed (s : State) (ep : Nat) : State :=
  match s.endpoint? ep with
  | none => s
  | some e =>
    match e.destroying with
    | some _ =>
      if e.descs = [] && !(s.sys.heldWrites.any fun w => w.1 = e.ctx) then (s.withFab { s.fab with endpoints := Map.erase s.fab.endpoints ep }).reply 0x011 0 0 [] else s
    | none => s

/-- The bytes that a descriptor has moved: those received, or sent and acknowledged. -/
def UeDesc.moved (d : UeDesc) : Nat :=
  d.bytes - (d.unacked.map fun no => min payloadMax (d.bytes - payloadMax * (no - d.first))).sum

/-- Every packet of a message received is in. -/
def UeDesc.ended (d : UeDesc) : Bool := d.total = some d.got.length

/-- A descriptor is over: its record is written, and its slot may be used again. -/
def State.endDesc (s : State) (ep : Nat) (d : UeDesc) (status : Nat) : State :=
  match s.endpoint? ep with
  | none => s
  | some e =>
    let s1 := s.putEndpoint ep { e with descs := e.descs.filter fun x => x ≠ d }
    answerDestroyed ((s1.ueRecord d.ctx d.words status d.moved).closeLeaf ep d) ep

/-- How a message can have ended. -/
def mayEnd (e : Endpoint) (d : UeDesc) (status : Nat) : Bool :=
  match status with
  | 0 => if d.recv then d.ended else decide (d.unacked = [])
  | 1 => !d.recv
  | 3 => e.destroying.isSome
  | _ => false

/-- UE_MESSAGE_COMPLETE. -/
def execUeMessageComplete (endpoint : Nat) (recv : Bool) (slot : Nat) (status : BitVec 2) (s : State) : Out :=
  .next (match s.endpoint? endpoint with
    | none => s
    | some e =>
      match e.descs.find? fun d => d.recv == recv && d.slot = slot with
      | none => s
      | some d => if mayEnd e d status.toNat then s.endDesc endpoint d status.toNat else s)

/-- UE_PACKET_ACKNOWLEDGE. -/
def execUePacketAcknowledge (endpoint packet : Nat) (s : State) : Out :=
  .next (match s.endpoint? endpoint with
    | none => s
    | some e => s.putEndpoint endpoint { e with descs := e.descs.map fun d => { d with unacked := d.unacked.filter fun k => k ≠ packet } })

/-! ## Receiving -/

/-- The receive a packet belongs to: the oldest of its peer, and of its tag where its message has one, whose message has not ended and that has
not had this packet. PRESUMED (log 101). -/
def matchRecv (e : Endpoint) (peer : Nat) (tag : Option W64) (index : Nat) : Option UeDesc :=
  e.descs.find? fun d => d.recv && !d.ended && !d.got.contains index && decide (descPeer (wordAt d.words 0) = peer)
    && tag.all fun t => decide (d.words.getD 2 0 = t)

/-- A packet's payload goes to its place in the message's buffer, in whatever order the packets come (R429, R430). -/
def State.deliverPacket (s : State) (ep : Nat) (d : UeDesc) (index : Nat) (payload : List Byte) (last : Bool) : State :=
  match s.endpoint? ep with
  | none => s
  | some e =>
    let bs := payload.take (min payloadMax (descLen (wordAt d.words 0) - payloadMax * index))
    let va := wordAt d.words 1 + payloadMax * index
    let s1 := if bs = [] then s else s.vaPost d.ctx .jobWrite va bs
    let leaf := packetLeaf s1 d.ctx d.who d.core .L d.iseq d.word d.sv va (d.base + index) bs
    let s2 := s1.mapTask d.who fun t => t.mapTree .L fun x =>
      { x with held := x.held.map fun l => if l.flight = recvKey ep d.slot then { l with recs := l.recs ++ [leaf] } else l }
    let d1 := { d with pkts := d.pkts + 1, bytes := d.bytes + bs.length, got := d.got ++ [index], total := if last then some (index + 1) else d.total }
    s2.putEndpoint ep { e with descs := e.descs.map fun x => if x = d then d1 else x }

/-- UE_PACKET_RECEIVE: a packet for no posted receive is dropped. -/
def execUePacketReceive (endpoint peer : Nat) (tag : Option W64) (payload : UePart) (last : Bool) (s : State) : Out :=
  .next (match s.endpoint? endpoint with
    | none => s
    | some e =>
      if e.peers ≤ peer then s
      else match matchRecv e peer tag payload.index with
      | none => s
      | some d => s.deliverPacket endpoint d payload.index payload.bytes last)

/-- The posted receives of a task that ends are cancelled. DEDUCED (log 36). -/
def State.cancelReceives (s : State) (w : Who) : State :=
  s.fab.endpoints.foldl (fun s e =>
    (e.2.descs.filter fun d => d.recv && d.who = w).foldl (fun s d =>
      match (s.endpoint? e.1).bind fun x => x.descs.find? fun y => y = d with
      | some y => s.endDesc e.1 y 3
      | none => s) s) s

end Sys2Proof.Machine
end

