-- ==== Sys2Proof/Machine/Copy.lean ====
section
/-! DEFINITION. The copy engine: the command lanes of L and S, acceptance, execution and completion of jobs (04 R96 to R114;
10 R280 to R285). -/

namespace Sys2Proof.Machine
open Sys2Proof

/-! ## Streams (R100) -/

def Core.stream (c : Core) (cl : Cl) : List Command := if cl = .S then c.mem.streamS else c.mem.streamL
def Core.streamNext (c : Core) (cl : Cl) : BitVec 15 := if cl = .S then c.mem.indexS else c.mem.indexL
def Core.putStream (c : Core) (cl : Cl) (ks : List Command) : Core :=
  if cl = .S then { c with mem := { c.mem with streamS := ks } } else { c with mem := { c.mem with streamL := ks } }

/-- A command enters its stream with the next index. -/
def Core.enqueue (c : Core) (cl : Cl) (k : Command) : Core :=
  let c1 := c.putStream cl (c.stream cl ++ [k])
  if cl = .S then { c1 with mem := { c1.mem with indexS := c1.mem.indexS + 1 } } else { c1 with mem := { c1.mem with indexL := c1.mem.indexL + 1 } }

/-- What every command has from its lane. -/
def newCommand (s : State) (cl : Cl) : Command :=
  let c := s.cc
  let x := c.cluster cl
  { index := c.streamNext cl, gen := c.csr.gen, cl := cl, flight := x.flightNo, iseq := x.iseq, word := s.cur.word, card := [], sv := c.sys.sv }

/-- A command lane: it issues when its stream has a free place (R280). `leafy` : its job makes a leaf. -/
def commandLane (cl : Cl) (cue : BitVec 4) (leafy : Bool) (f : State → Command → Command) (s : State) : Out :=
  issue cl cue.toNat (.ok ()) [] [] (fun _ => do
    need (decide ((s.cc.stream cl).length < 8)) .wait
    let k := f s (newCommand s cl)
    let c := s.cc.enqueue cl k
    let c1 := if leafy then c.holdLeaf cl k.flight s.cur.place [] else c
    .ok { st := s.putCc c1, flight := some (.job k.index) }) s

/-- The card of `cp`, `cp.2d` and `coll` (R280). -/
def laneCard (s : State) (cl : Cl) (kind : Nat) (d a l : BitVec 4) (f : BitVec 9) : List W64 :=
  let w := f.toNat
  cardOf kind (bits w 6 5) (bits w 4 4) (bits w 8 7) (bits w 3 2) (bits w 1 0) (s.regs.getG cl a.toNat) (s.regs.getG cl d.toNat)
    (s.regs.getG cl l.toNat) s.cur.cont

def copyLane (cl : Cl) (kind : Nat) (c d a l : BitVec 4) (f : BitVec 9) (s : State) : Out :=
  commandLane cl c true (fun s k => { k with card := laneCard s cl kind d a l f }) s

def collLane (cl : Cl) (c d a l : BitVec 4) (f : BitVec 9) (s : State) : Out :=
  commandLane cl c true (fun s k => { k with card := laneCard s cl 3 d a l f, mask := s.regs.getG cl (l.toNat + 1) }) s

def blockLane (cl : Cl) (c a : BitVec 4) (s : State) : Out :=
  commandLane cl c true (fun s k => { k with pb := some (s.regs.getG cl a.toNat) }) s

def invLane (cl : Cl) (c a : BitVec 4) (w : BitVec 1) (s : State) : Out :=
  commandLane cl c false (fun s k => { k with inv := some (decide (w = 1), s.regs.getG cl a.toNat) }) s

def execLCp (c d a l : BitVec 4) (f : BitVec 9) (s : State) : Out := copyLane .L 0 c d a l f s
def execLCp2d (c d a l : BitVec 4) (f : BitVec 9) (s : State) : Out := copyLane .L 1 c d a l f s
def execLCpPb (c a : BitVec 4) (s : State) : Out := blockLane .L c a s
def execLColl (c d a l : BitVec 4) (f : BitVec 9) (s : State) : Out := collLane .L c d a l f s
def execLPbInv (c a : BitVec 4) (w : BitVec 1) (s : State) : Out := invLane .L c a w s
def execSCp (c d a l : BitVec 4) (f : BitVec 9) (s : State) : Out := copyLane .S 0 c d a l f s
def execSCp2d (c d a l : BitVec 4) (f : BitVec 9) (s : State) : Out := copyLane .S 1 c d a l f s
def execSCpPb (c a : BitVec 4) (s : State) : Out := blockLane .S c a s
def execSColl (c d a l : BitVec 4) (f : BitVec 9) (s : State) : Out := collLane .S c d a l f s
def execSPbInv (c a : BitVec 4) (w : BitVec 1) (s : State) : Out := invLane .S c a w s

/-- `cp.ovl` (R283): FRAME, BANK, and no write region. -/
def execCpOvl (c : BitVec 4) (f : BitVec 1) (a l : BitVec 4) (w k : BitVec 2) (b : BitVec 1) (p : BitVec 2) (s : State) : Out :=
  commandLane .L c true (fun s x =>
    { x with card := cardOf 2 k.toNat 0 w.toNat 0 p.toNat (s.regs.getLx a.toNat) (f.setWidth 64) (s.regs.getLx l.toNat) s.cur.cont,
             bank := decide (b = 1) }) s

/-! ## Commands of a stop (14 R375) -/

def Core.stopping (c : Core) : Bool :=
  match c.sys.stop with
  | some st => st.phase = .draining || st.phase = .drained
  | none => false

/-- A card names a command that is saved unstarted, or one that has not issued. -/
def Core.namesAny (c : Core) (card : List W64) (saved : List (BitVec 16)) : Bool :=
  (cardNames card).any fun e =>
    saved.contains e || decide ((e.setWidth 15 - c.streamNext (if bit e.toNat 15 then .S else .L)).toInt ≥ 0)

/-- The commands of a stream that are saved unstarted: from the first on that the stop keeps, or that names a saved one. -/
def Core.staysIn (c : Core) (cl : Cl) (saved : List (BitVec 16)) : List (BitVec 16) :=
  ((c.stream cl).dropWhile fun k => !(k.held || k.gen = c.csr.gen || c.namesAny k.card saved)).map fun k => cmdName cl k.index

/-- The commands of both streams that are saved unstarted; each may keep others. -/
def Core.saved (c : Core) : List (BitVec 16) := (List.range 17).foldl (fun w _ => c.staysIn .L w ++ c.staysIn .S w) []

/-- A card names one of them. -/
def Core.namesSaved (c : Core) (card : List W64) : Bool := c.namesAny card c.saved

/-- The head of a stream, and with it all behind it, stays where it is while the core stops. -/
def Core.streamStays (c : Core) (cl : Cl) : Bool :=
  match c.stream cl with
  | k :: _ => c.saved.contains (cmdName cl k.index)
  | [] => false

/-! ## Reading the card (R101, R106 to R108) -/

def cacheHit (y : Bay) (ctx : W16) (va : Nat) : Option (List W64) :=
  (List.find? (fun (e : Nat × W16 × W64 × List W64) => e.2.1 = ctx && e.2.2.1.toNat = va / 64) y.pbCache).map fun e => e.2.2.2

/-- A block read into the cache, in place of the next entry in turn. -/
def Bay.fillCache (y : Bay) (ctx : W16) (va : Nat) (card : List W64) : Bay :=
  { y with pbCache := Map.set y.pbCache y.pbNext (ctx, BitVec.ofNat 64 (va / 64), card), pbNext := (y.pbNext + 1) % 32 }

def readBlock (s : State) (b : Nat) (ctx : W16) (sv : Bool) (va : Nat) : Chk (List W64 × State) :=
  if va % 64 ≠ 0 then .error (.trap .align (vaInfo 0 va))
  else match cacheHit (s.bay b) ctx va with
  | some card => .ok (card, s)
  | none => do
    let ps ← translateRange s ctx sv .qload anyFmt va 64
    let bs ← readPieces s ctx ps
    let card := words64 8 bs
    .ok (card, (s.cacheAll ctx [va]).putBay b ((s.bay b).fillCache ctx va card))

/-- `pb.inv` at its acceptance (R109). -/
def Bay.invalidate (y : Bay) (ctx : W16) (all : Bool) (va : W64) : Bay :=
  { y with pbCache := y.pbCache.filter fun (e : Nat × W16 × W64 × List W64) => !(e.2.1 = ctx && (all || decide (e.2.2.1.toNat = va.toNat % 2 ^ 56 / 64))) }

/-! ## The footprint's pages (R101) -/

/-- A region translated, all its rows with one leaf value for each page (01 R20, R37); one the job performs events on keeps its runs. -/
def resolveRegion (s : State) (ctx : W16) (sv : Bool) (path : Path) (bad : Nat → Bool) (keep : Bool) (r : Region) : Chk Region := do
  let ps ← translateList s ctx sv path bad (r.ranges.flatMap fun x => cutRange (x.2 / 4096 + 2) x.1 x.2)
  .ok (if keep then { r with runs := joinRuns (ps.map (runOf s)) } else r)

def resolveRegions (s : State) (ctx : W16) (sv : Bool) (path : Path) : List Region → Chk (List Region)
  | [] => .ok []
  | r :: rs => do
    let x ← resolveRegion s ctx sv path anyFmt false r
    let xs ← resolveRegions s ctx sv path rs
    .ok (x :: xs)

/-- A collective names memory of its own package (10 R284). DEDUCED (log 77). -/
def checkLocal (kind : Nat) (r : Region) : Chk Unit :=
  match r.runs.find? fun x => x.home.isSome with
  | some x => if kind = 3 then badPerm 0x15 x.va else .ok ()
  | none => .ok ()

/-- Implied read, declared reads, implied write, declared writes. -/
def resolveCard (s : State) (ctx : W16) (sv : Bool) (card : List W64) : Chk (List Region × List Region) := do
  let kind := cardKind card
  let bad := fun f => kind = 3 && reduces (cardOp card) && f ≠ fmtF32
  let rp : Path := if kind = 2 then .ovl else .jobRead
  let r0 ← resolveRegion s ctx sv rp bad true (impliedRead card)
  checkLocal kind r0
  let rs ← resolveRegions s ctx sv rp (declaredReads card)
  let w0 ← (match impliedWrite card with
    | r :: _ => do
      let x ← resolveRegion s ctx sv .jobWrite bad true r
      checkLocal kind x
      .ok [x]
    | [] => .ok [])
  let ws ← resolveRegions s ctx sv .jobWrite (declaredWrites card)
  .ok (r0 :: rs, w0 ++ ws)

/-! ## Edges (R103, R113, R114) -/

def sameTarget (j : Job) (target : Nat) (card : List W64) (bank : Bool) : Bool :=
  cardKind card = 2 && cardKind j.card = 2 && decide (j.target = target) && j.bank == bank && (bank || decide (cardWord j.card 2 = cardWord card 2))

/-- The jobs that a new one waits for. -/
def edgesOf (y : Bay) (det : Bool) (j : Job) : List W32 :=
  (y.jobs.filter fun a =>
    sameTarget a j.target j.card j.bank
      || (decide (a.ctx = j.ctx) && footprintsMeet a.reads a.writes j.reads j.writes
          && (!det || (decide (a.core = j.core) && a.core.isSome && decide (a.cl = j.cl))))).map Job.seq

/-- The named commands that are not met yet: those not issued, and those that wait or run. DEDUCED (log 23). -/
def namesLeft (s : State) (n : Nat) (y : Bay) (card : List W64) : List (BitVec 16) :=
  (cardNames card).filter fun e =>
    let cl : Cl := if bit e.toNat 15 then .S else .L
    let i : BitVec 15 := e.setWidth 15
    let c := s.core n
    decide ((i - c.streamNext cl).toInt ≥ 0) || (c.stream cl).any (fun k => k.index = i)
      || y.jobs.any fun a => a.core = some n && a.cl = cl && a.index = i

/-- The jobs a job directly waits for: by edges, and by name. -/
def waitsFor (js : List Job) (j : Job) : List W32 :=
  j.preds ++ (js.filter fun a => a.node.isNone && j.node.isNone && a.who = j.who && j.named.contains (cmdName a.cl a.index)).map Job.seq

/-- Everything a set of jobs waits for, in rounds. -/
def waitsAll (js : List Job) : Nat → List W32 → List W32
  | 0, w => w
  | f + 1, w =>
    let more := (js.filter fun j => w.contains j.seq).flatMap (waitsFor js)
    let w1 := more.foldl (fun a x => if a.contains x then a else a ++ [x]) w
    if w1.length = w.length then w else waitsAll js f w1

/-- Two jobs have an edge, direct or through a path. -/
def ordered (js : List Job) (a b : Job) : Bool :=
  (waitsAll js js.length [b.seq]).contains a.seq || (waitsAll js js.length [a.seq]).contains b.seq

/-- Some byte that two jobs share, one of them writing it, lies in a slice page. -/
def sharesSlice (s : State) (a b : Job) : Bool :=
  let pairs := (a.writes.flatMap fun x => (b.reads ++ b.writes).map fun y => (x, y)) ++ a.reads.flatMap fun x => b.writes.map fun y => (x, y)
  pairs.any fun p => (sharedBytes p.1 p.2).any fun r => (cutRange (r.2 / 4096 + 2) r.1 r.2).any fun g =>
    match findPage s b.ctx g.1 with
    | .ok q => leafMt q.leaf = 0
    | .error _ => false

/-- The overlap checker: the first job in the table that a deterministic job races with. -/
def raceOf (s : State) (y : Bay) (j : Job) : Option Job :=
  let js := y.jobs ++ [j]
  y.jobs.find? fun a => decide (a.ctx = j.ctx) && !ordered js a j && sharesSlice s a j

/-! ## Acceptance -/

/-- Where the engine takes a command from: a core's stream, or the nodes' (13 R359). -/
inductive Source where
  | stream (n : Nat) (cl : Cl)
  | nodes
  deriving DecidableEq, Repr

def sourceOf (b k : Nat) : Source := if k < 8 then .stream (4 * b + k / 2) (if k % 2 = 0 then .L else .S) else .nodes

/-- A head is ready: every earlier lane of its cluster has completed, its generation may be accepted, and its task lives (R100, R105).
DEDUCED (log 22). -/
def sourceReady (s : State) (b : Nat) : Source → Bool
  | .nodes => decide ((s.bay b).nodeCmds ≠ [])
  | .stream n cl =>
    let c := s.core n
    match c.stream cl with
    | [] => false
    | k :: _ => !k.held && (c.cluster cl).flights.all (fun f => decide (k.flight ≤ f.no)) && !(c.stopping && c.streamStays cl)
        && (match c.sys.task with
          | some t => !s.dying t.scope
          | none => false)

/-- What a command brings to acceptance. -/
structure Taken where
  source : Source
  core : Option Nat
  target : Nat
  cmd : Command
  ctx : W16
  who : Who
  det : Bool
  node : Option (Nat × Nat)

def takenFrom (s : State) (b : Nat) : Source → Option Taken
  | .stream n cl =>
    match (s.core n).stream cl, (s.core n).sys.task with
    | k :: _, some t => some { source := .stream n cl, core := some n, target := n, cmd := k, ctx := t.ctx, who := t.who, det := t.det, node := none }
    | _, _ => none
  | .nodes =>
    match (s.bay b).nodeCmds with
    | x :: _ =>
      let det := match s.graph? x.graph with
        | some y => y.det
        | none => false
      let k : Command := { index := 0, gen := 0, cl := .K, flight := 0, iseq := 0, word := 0, card := [], pb := some x.pb, taken := x.taken }
      some { source := .nodes, core := none, target := anchorOf s x.graph, cmd := k, ctx := x.ctx,
             who := { nest := none, tid := 0, scope := x.scope, owner := some (x.graph, x.node) }, det := det, node := some (x.graph, x.node) }
    | [] => none

/-- The command leaves its source, and the next stream's turn comes first. -/
def State.pop (s : State) (b k : Nat) (src : Source) : State :=
  let s1 := match src with
    | .stream n cl => s.putCore n ((s.core n).putStream cl ((s.core n).stream cl).tail)
    | .nodes => s.putBay b { s.bay b with nodeCmds := (s.bay b).nodeCmds.tail }
  if k < 8 then s1.putBay b { s1.bay b with rr := (k + 1) % 8 } else s1

/-- The card: the lane's, or the block's, which is read once (R107). -/
def takeCard (s : State) (b : Nat) (t : Taken) : Chk (List W64 × State) :=
  match t.cmd.taken, t.cmd.pb with
  | some (_, some card), _ => .ok (card, s)
  | _, some va => readBlock s b t.ctx t.cmd.sv va.toNat
  | _, none => .ok (t.cmd.card, s)

/-- The first check of a card. -/
def checkCard (s : State) (t : Taken) (card : List W64) : Chk Unit := do
  let c : CardFrom := { block := t.cmd.pb.isSome, noFrame := decide (t.cmd.cl ≠ .L), bank := t.cmd.bank, mask := t.cmd.mask, self := selfPkg s }
  match cardBad card c with
  | some i => .error (.trap .illegalOp (BitVec.ofNat 64 (i * 2 ^ 56 + (t.cmd.pb.getD 0).toNat % 2 ^ 56)))
  | none => need (decide (cardClass card ≠ 2) || t.cmd.sv) (.trap .priv 0)

/-- The job of an accepted command, before its edges. -/
def jobOf (t : Taken) (seq : W32) (card : List W64) (rs ws : List Region) : Job :=
  { seq := seq, core := t.core, target := t.target, cl := t.cmd.cl, index := t.cmd.index, gen := t.cmd.gen, flight := t.cmd.flight,
    iseq := t.cmd.iseq, ctx := t.ctx, who := t.who, word := t.cmd.word, card := card, bank := t.cmd.bank, mask := t.cmd.mask, sv := t.cmd.sv,
    reads := rs, writes := ws, preds := [], named := [], node := t.node }

/-- The watch regions of the core that a stream's job meets (14 R387, R389). -/
def jobWatch (s : State) (t : Taken) (wr : Bool) (rs : List Region) : Option (W64 × List Nat) :=
  match t.core with
  | none => none
  | some n => if t.cmd.sv || t.cmd.skipw then none else watchMatch s (s.core n) agentJob wr ((rs.take 1).flatMap Region.ranges)

/-- Everything that acceptance checks once it has the card: the card, the pages, the edges, and then the read matches. -/
def acceptStep (s1 : State) (b : Nat) (t : Taken) (seq : W32) (card : List W64) : Chk (Job × State) := do
  checkCard s1 t card
  need (!(cardKind card = 3 && s1.fab.aborting.any fun a => a.1 = t.ctx && a.2.1 = cardGroup card)) (.trap .collectiveAborted (openInfo s1))
  let (rs, ws) ← resolveCard s1 t.ctx t.cmd.sv card
  let y := s1.bay b
  let j0 := jobOf t seq card rs ws
  let named := match t.core with
    | some n => namesLeft s1 n y card
    | none => []
  let j := { j0 with preds := edgesOf y t.det j0, named := named, watch := jobWatch s1 t true (if cardKind card = 2 then [] else ws) }
  if t.det then
    match raceOf s1 y j with
    | some a => .error (.trap .hazardCheck (BitVec.ofNat 64 (seq.toNat * 2 ^ 32 + a.seq.toNat)))
    | none => .ok (j, s1)
  else .ok (j, s1)

/-- What acceptance sets besides the table (09 R241; 14 R381). -/
def State.loadAccepted (s : State) (j : Job) : State :=
  if cardKind j.card ≠ 2 then s
  else
    let c := s.core j.target
    let src := BitVec.ofNat 64 (cardWord j.card 1)
    if j.bank then s.putCore j.target { c with mem := { c.mem with bankSrc := src }, sys := { c.sys with bankLoads := c.sys.bankLoads + 1 } }
    else s.putCore j.target (c.putFrame (cardWord j.card 2) ((c.frame (cardWord j.card 2)).accept src (cardWord j.card 3)))

/-- A command ended at acceptance (R101): it is over for those that wait for it by name. -/
def State.refuse (s : State) (b : Nat) (t : Taken) (seq : W32) (trap : Trap) : State :=
  let s1 := if t.node.isNone then s.meet b t.who (cmdName t.cmd.cl t.cmd.index) else s
  let trap1 := if t.node.isSome then trap else { trap with lseq := t.cmd.iseq, job := jobWord t.cmd.cl t.cmd.index seq }
  s1.tellFailure t.target t.core t.node t.cmd.cl t.cmd.flight t.who trap1

/-- A command put back at the head of its stream. -/
def State.putFirst (s : State) (t : Taken) (k : Command) : State :=
  match t.source with
  | .stream n cl => s.putCore n ((s.core n).putStream cl (k :: (s.core n).stream cl))
  | .nodes => s

/-- One that stays there until the stop is over. -/
def State.putBack (s : State) (t : Taken) (skipw : Bool) : State := s.putFirst t { t.cmd with skipw := skipw, held := true, taken := none }

/-- One whose acceptance waits for a page or a slice: it keeps its number, and its card if it has been read. -/
def State.putWaiting (s : State) (b : Nat) (t : Taken) (seq : W32) (card : Option (List W64)) : State :=
  match t.source, t.node with
  | .nodes, some (g, i) =>
    let x : NodeCmd := { graph := g, node := i, pb := t.cmd.pb.getD 0, ctx := t.ctx, scope := t.who.scope, taken := some (seq, card) }
    s.putBay b { s.bay b with nodeCmds := x :: (s.bay b).nodeCmds }
  | _, _ => s.putFirst t { t.cmd with taken := some (seq, card) }

/-- A read match: the job is saved unstarted, and its cluster raises WATCH (14 R389). -/
def State.matched (s : State) (t : Taken) (info : W64) (hits : List Nat) : State :=
  match t.source with
  | .stream n cl =>
    let s1 := s.putBack t true
    let c := s1.core n
    (s1.putCore n { c with csr := c.csr.watchHit hits }).report n cl { cause := .watch, info := info, lseq := t.cmd.iseq }
  | .nodes => s

/-! ## Execution (R102) -/

/-- A request of a job's; a circuit-mode job's go as scheduled flits where its bay's router takes them (04 R110; 16 R428). -/
def State.jobRequest (s : State) (j : Job) (op off : Nat) (r : Run) (home : Nat) (data : List Byte) : JobReq × State :=
  let (tag, s1) := s.newTag
  let req : RemoteReq := { src := selfPkg s, dst := home, core := j.target, tag := tag, sInc := selfInc s, rInc := peerInc s home, ctx := j.ctx,
                           addr := r.pa, op := op, striped := r.striped, len := r.len, aop := 0, key := r.key, cls := cardClass j.card,
                           data := data }
  ({ tag := tag, home := home, va := r.va, off := off, len := r.len, write := op = 1, deadline := s.sys.pkgCycle.toNat + timeoutCycles s },
   s1.sendAs (j.circuit && everConnects (s.router (bayOfCore j.target)) 4) req.cls req.core req.dst (.request req) (.request req))

/-- The packets of a job's remote runs. -/
def remoteChunks (runs : List Run) : List (Nat × Run × Nat) :=
  (offRuns 0 runs).flatMap fun x =>
    match x.2.home with
    | some h => (cutRun (x.2.len / 256 + 1) x.1 x.2).map fun y => (y.1, y.2, h)
    | none => []

/-- Requests for some remote runs, or the failure where a home is not up. -/
def State.sendRuns (s : State) (b : Nat) (j : Job) (op : Nat) (runs : List Run) (data : List Byte) : State :=
  let xs := remoteChunks runs
  match xs.find? fun x => !peerUp s x.2.2 with
  | some x => s.failJob b j (goneTrap x.2.2 x.2.1.va)
  | none =>
    let (reqs, s1) := xs.foldl (fun (a : List JobReq × State) x =>
      let (r, s1) := a.2.jobRequest j op x.1 x.2.1 x.2.2 (if op = 1 then (data.drop x.1).take x.2.1.len else [])
      (a.1 ++ [r], s1)) ([], s)
    s1.putJob b { j with reqs := j.reqs ++ reqs, data := if op = 1 then some data else j.data, started := true }

def hasRemote (runs : List Run) : Bool := runs.any fun r => r.home.isSome

/-- A collective's contributions go out, if every member is up. -/
def State.startColl (s : State) (b : Nat) (j : Job) (bs : List Byte) : State :=
  let j1 := { j with started := true, data := some bs }
  match memberGone s j with
  | some pkg => s.failGone b j pkg
  | none => (s.putJob b j1).sendAll j1 bs

/-- A job that waits for nothing starts: it asks for what lies in other packages. -/
def State.startJob (s : State) (b : Nat) (j : Job) : State :=
  if j.started || j.preds ≠ [] || j.named ≠ [] then s
  else if cardKind j.card = 3 then
    match jobBytes s j with
    | .ok bs => s.startColl b j bs
    | .error h => s.jobHalt b j h
  else if hasRemote (jobRead j).runs then s.sendRuns b j 0 (jobRead j).runs []
  else s.putJob b { j with started := true }

/-- Tile t of what rank q contributes to a reducing collective: this package's own, one that came here to be reduced, or one that went to another
member, whose bytes are free (15 R398). DESIGN CHOICE (log 14). -/
def contribTile (s : State) (j : Job) (q t : Nat) : List Byte :=
  let n := maskCount j.mask
  let r := rankOf j.mask (selfPkg s)
  let u := if cardOp j.card = 1 then t / n else t
  let far := (List.range 64).map fun i => Config.farByte s.free (64 * (q * cardIlen j.card + t) + i)
  if q = r then ((j.data.getD []).drop (64 * t)).take 64
  else match s.fab.arrived.find? fun p => p.ctx = j.ctx && p.group = cardGroup j.card && !p.place && p.idx = q && decide (p.dst = tilePa j u) with
    | some p => if t % n = r then tileBytes p.tile else far
    | none => far

/-- The digest of every rank's contributions, rank by rank (15 R398). A gather's or a broadcast's are what it writes. -/
def contribDigest (s : State) (j : Job) (wrote : List Byte) : List Byte :=
  let op := cardOp j.card
  if op = 2 || op = 3 then blake3 wrote
  else blake3 ((List.range (maskCount j.mask)).flatMap fun q => (List.range (cardIlen j.card)).flatMap fun t => contribTile s j q t)

/-- The end of a collective: every tile is final and every contribution taken. DEDUCED (log 28). -/
def State.endColl (s : State) (b : Nat) (j : Job) : State :=
  let waiting := s.fab.resend.any fun x => x.1.ctx = j.ctx && x.1.group = cardGroup j.card
  if j.tiles.length < cardOlen j.card || waiting then s
  else
    let wrote := (List.range (cardOlen j.card)).flatMap fun u => tileBytes (Map.get [] j.tiles u)
    let d := contribDigest s j wrote
    let s1 := s.withFab { s.fab with arrived := s.fab.arrived.filter fun p => !(p.ctx = j.ctx && p.group = cardGroup j.card) }
    s1.finishJob b j (j.data.getD []) wrote (some d) []

/-- The end of a copy or a load: what is local is read and written. -/
def State.endCopy (s : State) (b : Nat) (j : Job) (bs : List Byte) : State :=
  if cardKind j.card = 2 then
    let c := s.core j.target
    let f := cardWord j.card 2
    let c1 := if j.bank then c.fillBank j.ctx bs else c.putFrame f ((c.frame f).fill j.ctx bs)
    ((s.putCore j.target c1).demoteFlits b j (jobRead j).runs).finishJob b j bs bs none []
  else match checkDest s j.ctx (jobWrite j).runs with
  | .error h => s.jobHalt b j h
  | .ok _ =>
    let s1 := (s.withMem (writeRuns s.mem j.ctx (jobWrite j).runs bs j.written)).demoteFlits b j ((jobRead j).runs ++ (jobWrite j).runs)
    let h := handOver s1 j
    (h.st.finishJob b j bs bs none h.recs).openLeaves j h.opens

/-- One turn of a started job: with every answer in, it sends its remote writes, and then it ends. -/
def State.advanceJob (s : State) (b : Nat) (j : Job) : State :=
  if !j.started || j.reqs ≠ [] then s
  else if cardKind j.card = 3 then
    let s1 := s.tryOwn j.ctx (cardGroup j.card)
    match s1.job? b j.seq with
    | some j1 => s1.endColl b j1
    | none => s1
  else match jobBytes s j with
  | .error h => s.jobHalt b j h
  | .ok bs => if hasRemote (jobWrite j).runs && j.data.isNone then s.sendRuns b j 1 (jobWrite j).runs bs else s.endCopy b j bs

/-- JOB_COMPLETE. -/
def State.turnJob (s : State) (b : Nat) (seq : W32) : State :=
  match s.job? b seq with
  | none => s
  | some j =>
    let s1 := s.startJob b j
    match s1.job? b seq with
    | none => s1
    | some j1 => s1.whole fun s => s.advanceJob b j1

/-- One event of a job that waits for nothing: `pick` says which of those that R74 and R82 let come next. DESIGN CHOICE (log 92). -/
def State.stepJob (s : State) (b : Nat) (seq : W32) (pick : Nat) : State :=
  match s.job? b seq with
  | none => s
  | some j =>
    if j.preds ≠ [] || j.named ≠ [] then s
    else match (jobEvents j)[pick % (jobEvents j).length]? with
    | none => s
    | some (.read off r) =>
      (match readHere s j r with
        | .ok bs => (s.putJob b { j with parts := j.parts ++ [(off, bs)] }).demoteFlits b j [r]
        | .error h => s.jobHalt b j h)
    | some (.write off whole r bs) =>
      match checkDest s j.ctx [whole] with
      | .error h => s.jobHalt b j h
      | .ok _ => ((s.withMem (s.mem.writeUnit j.ctx whole r bs)).putJob b { j with written := off :: j.written }).demoteFlits b j [r]

def execJobComplete (bay : Nat) (seq : W32) (s : State) : Out := .next (s.turnJob bay seq)

/-! ## JOB_ACCEPT -/

/-- A command of a stop's that names a saved one is saved with it (14 R375). -/
def staysFor (s : State) (t : Taken) (card : List W64) : Bool :=
  match t.source with
  | .stream n _ => (s.core n).stopping && (s.core n).namesSaved card
  | .nodes => false

/-- A bay sequence number is taken. -/
def State.takeSeq (s : State) (b : Nat) : State := s.putBay b { s.bay b with seq := (s.bay b).seq + 1 }

/-- A contribution to the collective's group that came before it does not agree with it (10 R284). -/
def disagrees (s : State) (j : Job) : Bool :=
  cardKind j.card = 3 && s.fab.arrived.any fun p => p.ctx = j.ctx && p.group = cardGroup j.card && !agrees j p

/-- The accepted job enters the table, and starts if it waits for nothing; a collective first reads its source, unit by unit or at its next
turn (03 R74). DESIGN CHOICE (log 91). -/
def State.enter (s : State) (b : Nat) (j : Job) : State :=
  let y := s.bay b
  let s1 := (s.putBay b { y with jobs := y.jobs ++ [j] }).loadAccepted j
  let s2 := if cardKind j.card = 3 then
      s1.withFab { s1.fab with abortedHere := s1.fab.abortedHere.filter fun a => a ≠ (j.ctx, cardGroup j.card) }
    else s1
  if disagrees s j then s2.failJob b j { cause := .fabricError, info := openInfo s }
  else if cardKind j.card = 3 then s2 else s2.startJob b j

/-- What acceptance makes of a command whose card is read. -/
def State.acceptCard (s : State) (b : Nat) (t : Taken) (seq : W32) (card : List W64) : State :=
  match acceptStep s b t seq card with
  | .error (.poison ctx pa) => (s.refuse b t seq { cause := .uncorrectable, info := 0 }).poisonMet ctx pa
  | .error h => if h.delays then (s.delayed h).putWaiting b t seq (some card) else s.refuse b t seq h.toTrap
  | .ok (j, s1) =>
    match jobWatch s1 t false j.reads with
    | some (info, hits) => s1.matched t info hits
    | none => if staysFor s1 t j.card then s1.putBack t t.cmd.skipw else s1.enter b j

/-- The command at a source's head is taken for acceptance: its number, its card, then its checks. DEDUCED (log 25). -/
def State.acceptFrom (s : State) (b k : Nat) (t : Taken) : State :=
  let src := t.source
  let seq := (t.cmd.taken.map Prod.fst).getD (s.bay b).seq
  let s0 := if t.cmd.taken.isSome then s.pop b k src else (s.pop b k src).takeSeq b
  match t.cmd.inv with
  | some (all, va) =>
    let s1 := s0.putBay b ((s0.bay b).invalidate t.ctx all va)
    (s1.meet b t.who (cmdName t.cmd.cl t.cmd.index)).completeFlight t.target t.cmd.cl t.cmd.flight
  | none =>
    match takeCard s0 b t with
    | .error (.poison ctx pa) => (s0.refuse b t seq { cause := .uncorrectable, info := 0 }).poisonMet ctx pa
    | .error h => if h.delays then (s0.delayed h).putWaiting b t seq none else s0.refuse b t seq h.toTrap
    | .ok (card, s1) => s1.acceptCard b t seq card

/-- The ready heads, in round-robin order of the eight streams; a node's command comes when none of them is ready. DESIGN CHOICE (log 24). -/
def readySources (s : State) (b : Nat) : List Nat :=
  (((List.range 8).map fun i => ((s.bay b).rr + i) % 8) ++ [8]).filter fun k => sourceReady s b (sourceOf b k)

/-- The engine takes the next ready head while its table has room. -/
def State.accept (s : State) (b : Nat) : State :=
  if (s.bay b).jobs.length ≥ 32 || !(s.bay b).logicOn || (s.bay b).logicTarget.isSome then s
  else match readySources s b with
  | [] => s
  | k :: _ =>
    match takenFrom s b (sourceOf b k) with
    | none => s
    | some t => { (State.acceptFrom { s with via := .bay b } b k t) with via := s.via }

def execJobAccept (bay : Nat) (s : State) : Out := .next (s.accept bay)

/-! ## JOB_FAIL -/

/-- The failure an event reports, where the job can fail so: a request to that home is not answered and its home is down or its time is over,
or an answer said so. What an answer, an ABORT or poison decides fails the job at once. -/
def failureOf (s : State) (j : Job) : JobEnd → Option Trap
  | .peerGone home va => if j.reqs.any (fun r => r.home = home) && !peerUp s home then some (goneTrap home va) else none
  | .timeout home va =>
    if j.reqs.any fun r => r.home = home && decide (r.deadline ≤ s.sys.pkgCycle.toNat) then some (timeoutTrap home va) else none
  | .range home va => if j.reqs.any (fun r => r.home = home) then some (statusTrap statusRange home va) else none
  | .key home va => if j.reqs.any (fun r => r.home = home) then some (statusTrap statusKey home va) else none
  | .foreign => none
  | .aborted => none
  | .poison _ => none

def execJobFail (bay : Nat) (seq : W32) (how : JobEnd) (s : State) : Out :=
  .next (match s.job? bay seq with
    | none => s
    | some j =>
      match failureOf s j how with
      | some t => s.failJob bay j t
      | none => s)

end Sys2Proof.Machine
end

