-- ==== Sys2Proof/Machine/Remote.lean ====
section
/-! DEFINITION. Remote operations: the lanes `rld.q`, `rst.q` and `ramo`, the answers to their requests, their failures, what a home does,
the peer table, and the die clocks (05 R130 to R138, R142, R143; 10 R279). -/

namespace Sys2Proof.Machine
open Sys2Proof

/-! ## Slices woken by a remote access (02 R70) -/

def State.wakeRange (s : State) (pa n : Nat) : State :=
  match awakeAll s pa n with
  | .ok _ => s
  | .error h => s.delayed h

/-- A request can be performed: every slice it reaches is ON. -/
def sliceReady (s : State) (pa n : Nat) : Bool := (awakeAll s pa n).isOk

/-! ## Reserved entries (R131) -/

/-- An entry with more of its data, or in another state. -/
def QEntry.add (e : QEntry) (off : Nat) (bs : List Byte) : QEntry := { e with data := e.data ||| BitVec.ofNat 2048 (ofBytes bs * 2 ^ (8 * off)) }

/-- The entries of a queue that one lane pushed; a spilled one's bytes lie in the ring, whose slice is woken for them (02 R70). -/
def State.mapEntry (s : State) (n q src : Nat) (f : QEntry → QEntry) : State :=
  let c := s.core n
  let x := c.queue q
  let g := fun (e : QEntry) => if e.src = src then f e else e
  let w := queueBytes q
  let s1 := x.ring.zipIdx.foldl (fun s e =>
    if e.1.src = src then s.leaveBytes e.1.tag (x.ringPa ((x.head + e.2 * w) % x.size)) (bytesOf w (f e.1).data.toNat) else s) s
  s1.putCore n (c.putQueue q { x with chip := x.chip.map g, ring := x.ring.map g })

/-! ## The request table (R130) -/

def remoteEntries : Nat := 64

def State.putRemote (s : State) (n : Nat) (rs : List RemoteOp) : State :=
  let c := s.core n
  s.putCore n { c with mem := { c.mem with remote := rs } }

/-- The requests of a lane are of no use any more; each keeps its entry until it is answered or its time is over. -/
def State.deaden (s : State) (n : Nat) (cl : Cl) (flight : Nat) : State :=
  s.putRemote n ((s.core n).mem.remote.map fun r => if r.cl = cl ∧ r.flight = flight then { r with dead := true } else r)

/-- What a remote lane asks for: bytes from `va` on, to be read, written or combined. -/
structure Ask where
  cl : Cl
  cls : Nat
  op : Nat
  va : Nat
  aop : Nat := 0
  data : List Byte := []
  dest : Option Nat := none
  fmt : Nat := 0
  queue : Option Nat := none

/-- How the parts of an access went: what was answered here, whether a request is out, and what failed. -/
structure Asked where
  st : State
  got : List (Nat × List Byte) := []
  away : Bool := false
  bad : Option Trap := none
  poisoned : Bool := false

/-- The bytes that a request carries. -/
def Ask.bytes (q : Ask) (off len : Nat) : List Byte :=
  match q.op with
  | 0 => []
  | 1 => (q.data.drop off).take len
  | _ => q.data

/-- A request of a lane, with its entry. -/
def Ask.request (q : Ask) (s : State) (n flight : Nat) (iseq : BitVec 48) (ctx : W16) (who : Who) (off : Nat) (r : Run) (home : Nat) : State :=
  let (tag, s1) := s.newTag
  let req : RemoteReq := { src := selfPkg s, dst := home, core := n, tag := tag, sInc := selfInc s, rInc := peerInc s home, ctx := ctx,
                           addr := r.pa, op := q.op, striped := r.striped, len := r.len, aop := q.aop, key := r.key, cls := q.cls,
                           data := q.bytes off r.len }
  let e : RemoteOp := { tag := tag, cl := q.cl, flight := flight, iseq := iseq, home := home, cls := q.cls, va := BitVec.ofNat 64 r.va,
                        op := q.op, off := off, len := r.len, dest := q.dest, fmt := q.fmt, queue := q.queue,
                        deadline := s.sys.pkgCycle.toNat + timeoutCycles s, ctx := ctx, who := who, base := BitVec.ofNat 64 q.va, key := r.key }
  (s1.putRemote n ((s1.core n).mem.remote ++ [e])).sendRequest req

/-- One part of an access: served here, or asked of its home. -/
def Ask.part (q : Ask) (n flight : Nat) (iseq : BitVec 48) (ctx : W16) (who : Who) (x : Asked) (p : Nat × Run) : Asked :=
  let s := x.st
  match p.2.home with
  | none =>
    let (st, bs, s1) := s.homeAccess true ctx p.2.striped p.2.pa p.2.key q.op p.2.len q.aop (q.bytes p.1 p.2.len)
    { x with st := s1
             got := x.got ++ [(p.1, bs)]
             bad := if st = statusRange || st = statusKey then x.bad.or (some (statusTrap st (selfPkg s) p.2.va)) else x.bad
             poisoned := x.poisoned || st = statusPoison }
  | some h =>
    if !peerUp s h then { x with bad := x.bad.or (some (goneTrap h p.2.va)) }
    else { x with st := q.request s n flight iseq ctx who p.1 p.2 h, away := true }

/-- The parts of an access, and how many entries they need. -/
def remoteParts (s : State) (ps : List Piece) : List (Nat × Run) := cutRuns 0 (runsOf s ps)
def entriesFor (parts : List (Nat × Run)) : Nat := (parts.filter fun p => p.2.home.isSome).length

def awakeParts (s : State) : List (Nat × Run) → Chk Unit
  | [] => .ok ()
  | p :: ps => do
    (match p.2.home with
      | none => awakeAll s p.2.pa p.2.len
      | some _ => .ok ())
    awakeParts s ps

/-- The task that a core runs, as its work names it. -/
def Core.who (c : Core) : Who :=
  match c.sys.task with
  | some t => t.who
  | none => { nest := none, tid := 0, scope := 0, owner := none }

/-- Room in the table, the slices on, and the parts asked for. DEDUCED (log 29). -/
def askAll (s : State) (q : Ask) (ps : List Piece) : Chk Asked := do
  let c := s.cc
  let x := c.cluster q.cl
  let parts := remoteParts s ps
  awakeParts s parts
  need (decide (c.mem.remote.length + entriesFor parts ≤ remoteEntries)) .wait
  .ok (parts.foldl (q.part s.curCore x.flightNo x.iseq c.ctx c.who) { st := s.cacheAll c.ctx (ps.map Piece.va) })

/-- A lane that has failed at its issue (R135). -/
def Asked.failed (x : Asked) (q : Ask) : State :=
  let s := x.st
  let n := s.curCore
  let c := s.cc
  let y := c.cluster q.cl
  let s1 := s.deaden n q.cl y.flightNo
  match x.bad with
  | some t => s1.postReport n { cl := q.cl, trap := { t with lseq := y.iseq, job := remoteWord }, who := c.who }
  | none => s1

def Asked.fails (x : Asked) : Bool := x.poisoned || x.bad.isSome

/-- The data answered here, placed. -/
def Asked.value (x : Asked) : Vec := (x.got.foldl (fun (e : QEntry) p => e.add p.1 p.2) { data := 0 }).data

/-! ## The lanes (10 R279) -/

/-- The urgent class is for a supervisor (R133). -/
def classOk (s : State) (k : BitVec 2) : Chk Unit := need (decide (k ≠ 2) || s.cc.sys.sv) (.trap .priv 0)

def execRldQ (c : BitVec 4) (d : BitVec 5) (a : BitVec 4) (k : BitVec 2) (s : State) : Out :=
  let q := d.toNat
  issue .L c.toNat (do
    classOk s k
    pushOk .L q (queueWide q)) [] [q] (fun _ => do
    let va := (s.regs.getLx a.toNat).toNat
    let ps ← accessCheck s .L .rld va (queueBytes q) 8 true
    let ask : Ask := { cl := .L, cls := k.toNat, op := 0, va := va, queue := some q }
    let x ← askAll s ask ps
    if x.fails then
      .ok { st := x.failed ask, push := [(q, 0)], flight := some .sync, fill := .failed (BitVec.ofNat 64 va) k (s.cc.cluster .L).iseq, fails := true }
    else if x.away then .ok { st := x.st, push := [(q, x.value)], flight := some .remote, fill := .awaiting }
    else .ok { st := x.st, push := [(q, x.value)], flight := some .sync }) s

/-- The size of an `rst.q` (R279). -/
def rstSize (z : BitVec 2) : Nat := [8, 1, 2, 4].getD z.toNat 8

def execRstQ (c : BitVec 4) (d : BitVec 5) (a : BitVec 4) (z k : BitVec 2) (s : State) : Out :=
  let q := d.toNat
  let wide := decide (q < 16) && queueWide q
  let n := if wide then 256 else rstSize z
  issue .S c.toNat (do
    classOk s k
    if q < 16 then popOk .S q) (if q < 16 then [q] else []) [] (fun vs => do
    let va := (s.regs.getSx a.toNat).toNat
    let ps ← accessCheck s .S .rst va n (if wide then 8 else n) false
    let v := if q < 16 then (vs.headD 0).toNat else (s.regs.getSx (q - 16)).toNat
    let bs := bytesOf n v
    let ask : Ask := { cl := .S, cls := k.toNat, op := 1, va := va, data := bs }
    let x ← askAll s ask ps
    if x.fails then .ok { st := x.failed ask, flight := some .sync, fails := true }
    else
      let (fmt, geo) := firstFmt ps
      let s1 := if wide then x.st.storeLeaf va (storeGeometry 0 (countOf fmt n) n) fmt geo bs else x.st
      .ok { st := s1, flight := some (if x.away then .remote else .sync), watch := watchWrite s s.curCore .S agentS [(va, n)] }) s

def execRamo (c : BitVec 4) (d : BitVec 5) (a b : BitVec 4) (k : BitVec 2) (o : BitVec 4) (s : State) : Out :=
  let q := d.toNat
  issue .S c.toNat (do
    classOk s k
    dstOk .S q) [] (dstQueues q) (fun _ => do
    let va := (s.regs.getSx a.toNat).toNat
    let (p, w) ← amoCheck s .ramo va o.toNat
    let operand (r : Nat) : List Byte := bytesOf 8 ((s.regs.getSx r).toNat % 2 ^ (8 * w))
    let data := operand b.toNat ++ operand (b.toNat + 1)
    let ask : Ask := { cl := .S, cls := k.toNat, op := 2, va := va, aop := o.toNat, data := data, fmt := p.fmt,
                       dest := if q < 16 then none else some (q - 16), queue := if q < 16 then some q else none }
    let x ← askAll s ask [{ va := va, len := w, place := p }]
    let push (v : W64) : List (Nat × Vec) := dstPush q v
    if x.fails then .ok { st := x.failed ask, flight := some .sync, fails := true }
    else
      let watch := watchWrite s s.curCore .S agentS [(va, w)]
      if x.away then .ok { st := x.st, push := push 0, flight := some .remote, fill := .awaiting, watch := watch }
      else
        let v := amoResult p.fmt (ofBytes (x.got.headD (0, [])).2)
        .ok { st := x.st.dst .S q v, push := push v, flight := some .sync, watch := watch }) s

/-! ## Answers (R129, R135) -/

/-- Every request of a lane is answered. -/
def State.remoteDone (s : State) (n : Nat) (r : RemoteOp) : State :=
  let s1 := match r.queue with
    | some q => s.mapEntry n q r.flight fun e => { e with fill := .ready }
    | none => s
  (s1.putCore n ((s1.core n).readyLeaf r.cl r.flight)).completeFlight n r.cl r.flight

/-- What an answer brings. -/
def State.remoteData (s : State) (n : Nat) (r : RemoteOp) (bs : List Byte) : State :=
  if r.op = 0 then
    match r.queue with
    | some q => s.mapEntry n q r.flight fun e => e.add r.off (bs.take r.len)
    | none => s
  else if r.op = 2 then
    let v := amoResult r.fmt (ofBytes (bs.take r.len))
    match r.queue, r.dest with
    | some q, _ => s.mapEntry n q r.flight fun e => { e with data := v.setWidth 2048 }
    | none, some d => s.putCore n { s.core n with regs := (s.core n).regs.setSx d v }
    | none, none => s
  else s

/-- The queue's entry of a lane that has failed: a load's is sent again on a resume; an atomic's never comes. -/
def State.remoteEntryFailed (s : State) (n : Nat) (r : RemoteOp) : State :=
  match r.queue with
  | some q =>
    if r.op = 0 then s.mapEntry n q r.flight fun e => { e with fill := .failed r.base (BitVec.ofNat 2 r.cls) r.iseq }
    else
      let c := s.core n
      s.putCore n (c.putQueue q { c.queue q with chip := (c.queue q).chip.filter fun e => e.src ≠ r.flight })
  | none => s

/-- A remote operation brings nothing. -/
def State.remoteLost (s : State) (n : Nat) (r : RemoteOp) : State :=
  ((s.deaden n r.cl r.flight).remoteEntryFailed n r).failFlight n r.cl r.flight

/-- A remote operation has failed. DESIGN CHOICE (log 81). -/
def State.remoteFailed (s : State) (n : Nat) (r : RemoteOp) (t : Option Trap) : State :=
  let s1 := s.remoteLost n r
  match t with
  | some t => s1.postReport n { cl := r.cl, trap := { t with lseq := r.iseq, job := remoteWord }, who := r.who }
  | none => s1.endContext r.ctx

/-- An entry of the table is free. -/
def State.freeRemote (s : State) (n : Nat) (r : RemoteOp) : State := s.putRemote n ((s.core n).mem.remote.filter fun x => x.tag ≠ r.tag)

def State.remoteAnswered (s : State) (n : Nat) (r : RemoteOp) (a : RemoteResp) : State :=
  let s1 := s.freeRemote n r
  if r.dead then s1
  else if a.status = statusOk then
    let s2 := s1.remoteData n r a.data
    if (s2.core n).mem.remote.any fun x => x.cl = r.cl && x.flight = r.flight then s2 else s2.remoteDone n r
  else if a.status = statusPoison then s1.remoteFailed n r none
  else s1.remoteFailed n r (some (statusTrap a.status r.home r.va.toNat))

/-- The job that a tag belongs to. -/
def jobOfTag (s : State) (tag : Nat) : Option (Nat × Job) :=
  (s.bays.flatMap fun b => (b.2.jobs.filter fun j => j.reqs.any fun r => r.tag = tag).map fun j => (b.1, j)).head?

/-- An answer to a job's request. DESIGN CHOICE (log 81). -/
def State.jobAnswered (s : State) (b : Nat) (j : Job) (a : RemoteResp) : State :=
  match j.reqs.find? fun r => r.tag = a.tag with
  | none => s
  | some r =>
    if a.status = statusOk then
      s.putJob b { j with reqs := j.reqs.filter fun x => x.tag ≠ a.tag
                          parts := if r.write then j.parts else j.parts ++ [(r.off, a.data.take r.len)] }
    else if a.status = statusPoison then
      ((if r.write then s else s.poisonReached j r.off r.len).failJob b j { cause := .uncorrectable, info := 0 }).endContext j.ctx
    else s.failJob b j (statusTrap a.status r.home r.va)

/-! ### The requests of a referee (15 R410) -/

/-- Bytes that no answer brings: `ref.exec` has no cause for that, and what it then reads is free. DESIGN CHOICE (log 14). -/
def refFar (s : State) (va n : Nat) : List Byte := (List.range n).map fun i => Config.farByte s.free (va + i)

/-- A request of a referee is over: its bytes are there, or its lane completes with the last of its writes. -/
def State.refSettled (s : State) (n : Nat) (x : RefReq) (bs : List Byte) : State :=
  let c := s.core n
  let rest := c.mem.refReqs.filter fun r => r.tag ≠ x.tag
  let put (l : List RefReq) : State := s.putCore n { c with mem := { c.mem with refReqs := l } }
  if x.write then (if rest.any (fun r => r.write && r.flight = x.flight) then put rest else (put rest).completeFlight n .K x.flight)
  else put (c.mem.refReqs.map fun r => if r.tag = x.tag then { r with data := some bs } else r)

def State.refAnswered (s : State) (n : Nat) (x : RefReq) (a : RemoteResp) : State :=
  let s1 := if a.status = statusPoison then s.endContext (s.core n).ctx else s
  s1.refSettled n x (if a.status = statusOk then a.data.take x.len else refFar s x.va x.len)

/-- A referee's request is not answered in time. -/
def execRefTimeout (n : Nat) (s : State) : Out :=
  .next (match (s.core n).mem.refReqs.find? fun x => x.data.isNone && decide (x.deadline ≤ s.sys.pkgCycle.toNat) with
    | some x => s.refSettled n x (refFar s x.va x.len)
    | none => s)

/-- An answer's packet: one of a life gone by, or with a reserved status, is dropped and counted. -/
def State.takeResponse (s : State) (a : RemoteResp) : State :=
  if !current s a.src a.sInc a.rInc || a.status > statusRetry then s.countStalePacket
    else if s.fab.resend.any (fun x => x.1.tag = a.tag && x.2 = a.src) then (s.contribAnswered a.tag a.status).resendTo a.tag
    else if a.status = statusRetry then s
    else match (s.core a.core).mem.remote.find? fun r => r.tag = a.tag && r.home = a.src with
    | some r => s.remoteAnswered a.core r a
    | none =>
      match jobOfTag s a.tag with
      | some (b, j) => s.jobAnswered b j a
      | none =>
        match (s.core a.core).mem.refReqs.find? fun x => x.tag = a.tag && x.home = a.src && x.data.isNone with
        | some x => s.refAnswered a.core x a
        | none => s

/-- REMOTE_RESPONSE. -/
def execRemoteResponse (a : RemoteResp) (s : State) : Out := .next (s.takeResponse a)

/-- REMOTE_TIMEOUT. -/
def execRemoteTimeout (core tag : Nat) (s : State) : Out :=
  .next (match (s.core core).mem.remote.find? fun r => r.tag = tag && decide (r.deadline ≤ s.sys.pkgCycle.toNat) with
    | none => s
    | some r =>
      let s1 := s.freeRemote core r
      if r.dead then s1 else s1.remoteFailed core r (some (timeoutTrap r.home r.va.toNat)))

/-! ## Reads sent again (14 R381) -/

/-- A read that its page does not take when it is to be sent again fails as its lane would (01 R35). DEDUCED (log 100). -/
def State.unsent (s : State) (n : Nat) (r : RemoteOp) : Halt → State
  | .poison ctx pa => s.poisonMet ctx pa
  | h => s.postReport n { cl := r.cl, trap := { h.toTrap with lseq := r.iseq }, who := r.who }

/-- The failed entries of a queue, on chip and in its ring, read again into their places while the request table has room; the others keep
their place in it for a later turn. -/
def State.resendQueue (s : State) (n q : Nat) : State :=
  (((s.core n).queue q).chip ++ ((s.core n).queue q).ring).foldl (fun s e =>
    match e.fill with
    | .failed va cls iseq =>
      let c := s.core n
      let ask : Ask := { cl := .L, cls := cls.toNat, op := 0, va := va.toNat, queue := some q }
      let r : RemoteOp := { tag := 0, cl := .L, flight := e.src, iseq := iseq, home := 0, cls := cls.toNat, va := va, op := 0, off := 0, len := 0,
                            queue := some q, deadline := 0, ctx := c.ctx, who := c.who, base := va }
      match translateRange s c.ctx c.sys.sv .rld anyFmt va.toNat (queueBytes q) with
      | .error h => if h.delays then s.delayed h else (s.remoteLost n r).unsent n r h
      | .ok ps =>
        match awakeParts s (remoteParts s ps) with
        | .error h => s.delayed h
        | .ok _ =>
        if remoteEntries < c.mem.remote.length + entriesFor (remoteParts s ps) then s
        else
        let s1 := s.mapEntry n q e.src fun e => { e with data := 0, fill := .awaiting }
        let x := (remoteParts s1 ps).foldl (ask.part n e.src iseq c.ctx c.who) { st := s1 }
        let s2 := x.st.mapEntry n q e.src fun e => { e with data := e.data ||| x.value }
        if x.poisoned then s2.remoteLost n r
        else match x.bad with
        | some t => s2.remoteFailed n r (some t)
        | none => if x.away then s2 else s2.remoteDone n r
    | _ => s) s

def State.resendFailed (s : State) (n : Nat) : State := [0, 1, 2, 3, 9, 12].foldl (fun s q => s.resendQueue n q) s

/-- Nothing stands between a core's task and its failed reads: no kill, no stop, and no failure that has not stopped it yet. -/
def State.mayResend (s : State) (n : Nat) : Bool :=
  let c := s.core n
  (match c.sys.task with
    | some t => !s.dying t.scope
    | none => false)
    && c.sys.stop.isNone && allCl.all (fun cl => (c.cluster cl).stopped.isNone && (c.cluster cl).held.isNone)
    && !c.mem.reports.any fun r => c.runs r.who

/-- The reads that found no room at the restore go when there is some. -/
def execResend (n : Nat) (s : State) : Out := .next (if s.mayResend n then { State.resendFailed { s with via := .core n } n with via := s.via } else s)

/-! ## The home (R129, R132, R137) -/

/-- A request performed where its bytes lie, and answered. -/
def State.performRequest (s : State) (r : RemoteReq) : State :=
  let (st, bs, s1) := s.homeAccess false r.ctx r.striped r.addr r.key r.op r.len r.aop r.data
  s1.sendResponse r.cls (answerTo s1 r st bs)

def dieOfAddress (pa : Nat) : Nat := dieOfPa pa % 4

/-- The entrywise maximum of two vectors. -/
def mergeVec (a b : Vector (BitVec 48) 4) : Vector (BitVec 48) 4 := a.mapIdx fun i x => if x ≤ vget 0 b i then vget 0 b i else x

/-- A request waits where it came in. -/
def State.waitHere (s : State) (die : Nat) (r : RemoteReq) : State :=
  let d := s.die die
  let w : Wire := { src := die, came := s.fab.came, no := vget 0 d.seen die, stamp := Vector.replicate 4 0, req := some r }
  (s.putDie die { d with wire := d.wire ++ [w] }).withFab { s.fab with came := s.fab.came + 1 }

/-- A request crosses from the die it came in at to the die that holds its bytes (R137). DEDUCED (log 32). -/
def State.crossDie (s : State) (src dst : Nat) (r : RemoteReq) : State := s.cross src dst r.cls (some r) none ((Packet.request r).payload r.dst)

/-- Two requests are of one stream (R136). -/
def sameStream (a b : RemoteReq) : Bool := decide (a.src = b.src) && decide (a.core = b.core) && decide (a.cls = b.cls)

/-- A request of the same stream that came before waits at a die: the stream's requests are performed in arrival order (03 R89; 05 R136). -/
def streamWaits (s : State) (r : RemoteReq) (came : Nat) : Bool :=
  (List.range 4).any fun d => (s.die d).wire.any fun w => decide (w.came < came) && (w.req.map (sameStream r)).getD false

/-- A request's packet. -/
def State.takeRequest (s : State) (r : RemoteReq) : State :=
  if !current s r.src r.sInc r.rInc then s.countStalePacket
  else
    let src := Config.ingressDie r.src r.core r.cls % 4
    let dst := dieOfAddress r.addr
    if !installed s r.addr r.len then s.performRequest r
    else if src ≠ dst then s.crossDie src dst r
    else if streamWaits s r s.fab.came || !sliceReady s r.addr r.len then (s.waitHere dst r).wakeRange r.addr r.len
    else s.performRequest r

/-- REMOTE_REQUEST: one of a reserved OP is dropped (16 R416). -/
def execRemoteRequest (r : RemoteReq) (s : State) : Out := .next (if r.op > 2 then s else s.takeRequest r)

/-- DIE_CLOCK_BEAT. -/
def execDieClockBeat (die dst : Nat) (s : State) : Out :=
  let d := s.die die
  .next (if die ≥ 4 || dst ≥ 4 || die = dst || s.sys.pkgCycle.toNat < vget 0 d.lastSend dst + 64 then s
    else
      let s1 := s.putDie die { d with lastSend := d.lastSend.setIfInBounds dst s.sys.pkgCycle.toNat }
      let e := s1.die dst
      s1.putDie dst { e with wire := e.wire ++ [{ src := die, no := d.sent, stamp := Vector.replicate 4 0, req := none }] })

/-- What a die has received from another, up to what it has not applied yet. -/
def Die.reached (d : Die) (e : Nat) : BitVec 48 :=
  match d.wire.find? fun w => w.src = e with
  | some w => if vget 0 d.seen e ≤ w.no then w.no else vget 0 d.seen e
  | none => vget 0 d.seen e

/-- A die may apply a request once what its stamp names has been received from every other die. -/
def Die.mayApply (d : Die) (die : Nat) (w : Wire) : Bool :=
  (List.range 4).all fun e => e = die || e = w.src || decide (vget 0 w.stamp e ≤ d.reached e)

/-- What a die applies of another's: a beat, a request once its stream and the slices it reaches let it be performed, or a tile placed here. -/
def State.applyWire (s : State) (die : Nat) (w : Wire) (d1 : Die) : State :=
  let src := w.src
  let v := mergeVec (s.die die).vector w.stamp
  let told (s : State) : State := s.putDie src { s.die src with vector := mergeVec (s.die src).vector v }
  match w.req, w.tile with
  | some r, _ =>
    if !(s.die die).mayApply die w || streamWaits s r w.came then s
    else if !sliceReady s r.addr r.len then s.wakeRange r.addr r.len
    else told ((s.putDie die { d1 with vector := v }).performRequest r)
  | none, some p => if !(s.die die).mayApply die w then s else told ((s.putDie die { d1 with vector := v }).takeContrib p)
  | none, none => s.putDie die d1

/-- CROSS_DIE_APPLY: the oldest of what a die holds from another. -/
def execCrossDieApply (die src : Nat) (s : State) : Out :=
  let d := s.die die
  .next (match d.wire.find? fun w => w.src = src with
    | none => s
    | some w => s.applyWire die w { d with wire := d.wire.erase w, seen := d.seen.setIfInBounds src w.no })

/-! ## The peer table (R127, R135, R143) -/

/-- A tile of a collective's destination here still needs what a member sends: its contribution to the fold, or the tile it places. -/
def tileAwaits (s : State) (j : Job) (pkg u : Nat) : Bool :=
  let n := maskCount j.mask
  let q := rankOf j.mask pkg
  let op := cardOp j.card
  let key := (j.ctx, cardGroup j.card, tilePa j u)
  if (Map.find? j.tiles u).isSome then false
  else if op = 2 then decide (u / cardIlen j.card = q)
  else if op = 3 then decide (q = 0)
  else if op = 1 || u % n = rankOf j.mask (selfPkg s) then
    match s.fab.combs.find? fun e => (e.ctx, e.group, e.dst) = key with
    | some e => decide (e.k ≤ q) && !(e.parked.any fun p => p.idx = q)
    | none => decide (Map.get 0 j.folded u ≤ q)
  else decide (u % n = q)

/-- A collective of this package awaits a member: what the member contributes, or its answer to what was sent to it. -/
def awaitsMember (s : State) (j : Job) (pkg : Nat) : Bool :=
  (List.range (cardOlen j.card)).any (tileAwaits s j pkg)
    || s.fab.resend.any fun x => x.2 = pkg && x.1.ctx = j.ctx && x.1.group = cardGroup j.card

/-- Everything that was outstanding to a package when it went fails with PEER_GONE (R135, R143): requests, the jobs that made them, and the
collectives that await it; the combining entries that do write nothing. -/
def State.peerGone (s : State) (f : Fall) : State :=
  let s1 := s.cores.foldl (fun s c =>
    c.2.mem.remote.foldl (fun s r =>
      if r.home ≠ f.pkg || !f.tags.contains r.tag then s
      else match (s.core c.1).mem.remote.find? fun x => x.tag = r.tag with
      | none => s
      | some x =>
        let s1 := s.freeRemote c.1 x
        if x.dead then s1 else s1.remoteFailed c.1 x (some (goneTrap f.pkg x.va.toNat))) s) s
  let s2 := s1.bays.foldl (fun s b =>
    b.2.jobs.foldl (fun s j =>
      match s.job? b.1 j.seq with
      | none => s
      | some k =>
        match k.reqs.find? fun r => r.home = f.pkg && f.tags.contains r.tag with
        | some r => s.failJob b.1 k (goneTrap f.pkg r.va)
        | none =>
          if f.jobs.contains (b.1, k.seq) && awaitsMember s k f.pkg then s.failJob b.1 k (goneTrap f.pkg (cardWord k.card 2)) else s) s) s1
  let awaits (e : Comb) : Bool :=
    let q := rankOf e.first.mask f.pkg
    f.combs.contains (e.ctx, e.group, e.dst) && decide (e.k ≤ q) && !(e.parked.any fun p => p.idx = q)
  s2.withFab { s2.fab with combs := s2.fab.combs.filter fun e => !awaits e }

/-- PEER_STATE_UPDATE: the entry takes the state and incarnation; a package that is no longer up is gone. -/
def State.setPeer (s : State) (pkg : Nat) (state : Nat) (inc : W16) : State :=
  let s1 := s.withFab { s.fab with peer := s.fab.peer.setIfInBounds pkg (BitVec.ofNat 64 (inc.toNat * 2 ^ 48 + state % 4)) }
  if state = 1 then s1 else s1.peerGone (fallOf s pkg)

/-- What a store that has set an entry DOWN fails. -/
def execPeersFallen (s : State) : Out := .next (s.fab.falls.foldl State.peerGone (s.withFab { s.fab with falls := [] }))

def execPeerStateUpdate (pkg : Nat) (state : BitVec 2) (inc : W16) (s : State) : Out := .next (s.setPeer pkg state.toNat inc)

/-! ## Registers that wait for an atomic (06 R150) -/

/-- The registers of S that an instruction of S reads or writes. -/
def sNames : Instr → List Nat
  | .stq _ _ b _ | .stqWb _ _ b _ => [b.toNat]
  | .stqS _ _ a b => [a.toNat, b.toNat]
  | .stqX _ _ a _ => [a.toNat]
  | .sStB _ t b _ | .sStH _ t b _ | .sStW _ t b _ | .sStD _ t b _ => b.toNat :: (if t.toNat < 16 then [] else [t.toNat - 16])
  | .rstQ _ d a _ _ => a.toNat :: (if d.toNat < 16 then [] else [d.toNat - 16])
  | .ramo _ d a b _ _ | .amo _ d a b _ => [a.toNat, b.toNat, b.toNat + 1] ++ (if d.toNat < 16 then [] else [d.toNat - 16])
  | .sCp _ d a l _ | .sCp2d _ d a l _ => [d.toNat, a.toNat, l.toNat]
  | .sColl _ d a l _ => [d.toNat, a.toNat, l.toNat, l.toNat + 1]
  | .sCpPb _ a | .sPbInv _ a _ => [a.toNat]
  | .sAdd _ d a b q | .sSub _ d a b q | .sMul _ d a b q =>
    a.toNat :: ((if q = 1 then [] else [b.toNat]) ++ (if d.toNat < 16 then [] else [d.toNat - 16]))
  | .sAddi _ d a _ | .sSlli _ d a _ | .sSrli _ d a _ => a.toNat :: (if d.toNat < 16 then [] else [d.toNat - 16])
  | .amoG _ d a b _ | .dgrpOpen _ d a b => [d.toNat, a.toNat, b.toNat]
  | .dgrpClose _ d => [d.toNat]
  | .sCueTest d => [d.toNat]
  | .sBCond _ _ _ a b => [a.toNat, b.toNat]
  | .sLoop _ _ a => [a.toNat]
  | _ => []

/-- A lane names a register whose atomic has not returned. DEDUCED (log 31). -/
def State.awaits (s : State) (n : Nat) (i : Instr) : Bool :=
  (s.core n).mem.remote.any fun r => !r.dead && (match r.dest with
    | some d => (sNames i).contains d
    | none => false)

end Sys2Proof.Machine
end

