-- ==== Sys2Proof/Machine/Groups.lean ====
section
/-! DEFINITION. Deterministic atomic groups: their lanes, and their serving units (04 R115 to R118; 10 R276 to R278). -/

namespace Sys2Proof.Machine
open Sys2Proof

/-! ## Units -/

/-- The unit that serves an address: a bay's, a stack's or a channel's. -/
def unitOf (pa : Nat) : Nat :=
  if isSlice pa then bayOfPa pa
  else if isHbm pa then 288 + (pa - Config.hbmBase) / 4096 % 12
  else 300 + (pa - Config.ddrBase) / 4096 % 8

def State.unit (s : State) (u : Nat) : List Group := Map.get [] s.units u
def State.putUnit (s : State) (u : Nat) (gs : List Group) : State := { s with units := Map.put [] s.units u gs }

def isGroup (id ctx : W16) (g : Group) : Bool := decide (g.id = id) && decide (g.ctx = ctx)

/-- The slice of a bay's unit is on: its unit's accesses wait for that (02 R70). -/
def unitAwake (s : State) (u : Nat) : Chk Unit := if u < Config.bays then awake s (u * Config.sliceSize) else .ok ()

def State.groupAt (s : State) (u : Nat) (id ctx : W16) : Option Group := (s.unit u).find? (isGroup id ctx)

/-- The units that hold an open group of an id and a context. -/
def unitsWith (s : State) (id ctx : W16) : List Nat := (s.units.filter fun u => u.2.any (isGroup id ctx)).map Prod.fst

def State.putGroup (s : State) (u : Nat) (g : Group) : State :=
  s.putUnit u ((s.unit u).map fun x => if isGroup g.id g.ctx x then g else x)

/-! ## The lanes -/

/-- PERMISSION, subcode ATOMIC. -/
def badAtomic {α : Type} (va : Nat) : Chk α := badPerm 0x13 va

def groupId (w : W64) : W16 := w.setWidth 16
def groupIndex (w : W64) : Nat := bits w.toNat 23 16

/-- The group word's high bits are zero. -/
def wordOk (w : W64) (va : Nat) : Chk Unit := if bits w.toNat 63 24 = 0 then .ok () else badAtomic va

def groupFmtBad (f : Nat) : Bool := !(f = fmtRaw || f = fmtF32 || f = fmtI32)

/-- The places of a range, joined where they follow each other. -/
def joinPas : List Piece → List (Nat × Nat)
  | [] => []
  | p :: ps =>
    match joinPas ps with
    | [] => [(p.place.pa, p.len)]
    | (a, n) :: rest => if a = p.place.pa + p.len then (p.place.pa, p.len + n) :: rest else (p.place.pa, p.len) :: (a, n) :: rest

/-- DEDUCED (log 34). DESIGN CHOICE (log 106). -/
def execDgrpOpen (c d a b : BitVec 4) (s : State) : Out :=
  issue .S c.toNat (.ok ()) [] [] (fun _ => do
    let w := s.regs.getSx d.toNat
    let va := (s.regs.getSx a.toNat).toNat
    let len := (s.regs.getSx b.toNat).toNat
    let ctx := s.cc.ctx
    if va % 8 ≠ 0 then badAlign va
    else if len % 8 ≠ 0 || len < 8 || len > 2 ^ 26 then badAtomic va
    else do
      wordOk w va
      let ps ← translateRange s ctx s.cc.sys.sv .amo groupFmtBad va len
      let slices := ps.map fun p => decide (p.place.mt = 0)
      if slices.contains true && slices.contains false then badPerm 0x15 va
      else if unitsWith s (groupId w) ctx ≠ [] then badAtomic va
      else
        let units := (ps.map fun p => unitOf p.place.pa).foldl setIns []
        let x := s.cc.cluster .S
        let op : GroupOp := { flight := x.flightNo, iseq := x.iseq, ctx := ctx, who := s.cc.who, group := groupId w, issuer := 0,
                              n := groupIndex w + 1, ranges := joinPas ps, waiting := units, units := units, va := BitVec.ofNat 64 va }
        let s1 := s.cacheAll ctx (ps.map Piece.va)
        let c1 := s1.cc
        .ok { st := s1.putCc { c1 with mem := { c1.mem with opens := c1.mem.opens ++ [op] } }, flight := some .opening }) s

/-- The issuer's slot takes the update's number; a fifth slot is refused (R277). -/
def takeSlot (ps : List PartSlot) (id : W16) (i : Byte) (va : Nat) : Chk (Nat × List PartSlot) :=
  match ps.find? fun p => p.group = id && p.issuer = i with
  | some p => .ok (p.s, ps.map fun q => if q.group = id && q.issuer = i then { q with s := q.s + 1 } else q)
  | none => if ps.length < 4 then .ok (0, ps ++ [{ group := id, issuer := i, s := 1 }]) else badAtomic va

def execAmoG (c d a b o : BitVec 4) (s : State) : Out :=
  issue .S c.toNat (.ok ()) [] [] (fun _ => do
    let w := s.regs.getSx d.toNat
    let va := (s.regs.getSx a.toNat).toNat
    wordOk w va
    let (p, _) ← amoCheck s .amo va o.toNat
    let i : Byte := BitVec.ofNat 8 (groupIndex w)
    let (k, slots) ← takeSlot s.cc.mem.parts (groupId w) i va
    let x := s.cc.cluster .S
    let u : Update := { flight := x.flightNo, core := s.curCore, ctx := s.cc.ctx, who := s.cc.who, group := groupId w, issuer := i, s := k,
                        pa := p.pa, key := p.key, va := BitVec.ofNat 64 va, fmt := p.fmt, aop := o.toNat, value := s.regs.getSx b.toNat,
                        unit := unitOf p.pa, iseq := x.iseq }
    let s1 := s.cacheAll s.cc.ctx [va]
    let c1 := s1.cc
    .ok { st := s1.putCc { c1 with mem := { c1.mem with parts := slots, transit := c1.mem.transit ++ [u] } }, flight := some .group,
          watch := watchWrite s s.curCore .S agentS [(va, amoWidth p.fmt)] }) s

/-- What keeps a close from being taken at a unit. -/
def closeBad (g : Group) (i : Nat) : Bool := decide (g.n ≤ i) || g.closed.contains i

def execDgrpClose (c d : BitVec 4) (s : State) : Out :=
  issue .S c.toNat (.ok ()) [] [] (fun _ => do
    let w := s.regs.getSx d.toNat
    let va := Config.choice s.free
    wordOk w va
    let id := groupId w
    let units := unitsWith s id s.cc.ctx
    let i := groupIndex w
    if units = [] || units.any (fun u => match s.groupAt u id s.cc.ctx with
      | some g => closeBad g i
      | none => true) then badAtomic va
    else
      let x := s.cc.cluster .S
      let op : GroupOp := { flight := x.flightNo, iseq := x.iseq, ctx := s.cc.ctx, who := s.cc.who, group := id, issuer := BitVec.ofNat 8 i, n := 0,
                            ranges := [], waiting := units, units := units }
      let c1 := s.cc
      let slots := c1.mem.parts.filter fun p => !(p.group = id && p.issuer = BitVec.ofNat 8 i)
      .ok { st := s.putCc { c1 with mem := { c1.mem with parts := slots, closes := c1.mem.closes ++ [op] } }, flight := some .closing }) s

/-! ## Failures that the units decide (R102, R116) -/

def State.groupFailed (s : State) (n flight : Nat) (iseq : BitVec 48) (who : Who) (va : Nat) : State :=
  (s.failFlight n .S flight).postReport n
    { cl := .S, trap := { cause := .permission, info := vaInfo 0x13 va, lseq := iseq }, who := who }

/-! ## DGRP_OPEN_TAKE -/

def State.putOpens (s : State) (n : Nat) (ops : List GroupOp) : State :=
  let c := s.core n
  s.putCore n { c with mem := { c.mem with opens := ops } }

/-- Another open of the id has reached the units first. -/
def openLost (s : State) (op : GroupOp) : Bool := decide (op.waiting = op.units) && decide (unitsWith s op.group op.ctx ≠ [])

/-- One unit takes an open; that of a killed task is taken too (03 R92). -/
def State.openTake (s : State) (n : Nat) (op : GroupOp) (u : Nat) : State :=
  let rest := (s.core n).mem.opens.filter fun x => x ≠ op
  if openLost s op then (if op.dead then s.putOpens n rest else (s.putOpens n rest).groupFailed n op.flight op.iseq op.who op.va.toNat)
  else if (s.unit u).length ≥ 8 then s
  else
    let g : Group := { id := op.group, ctx := op.ctx, n := op.n, range := op.ranges }
    let s1 := s.putUnit u (s.unit u ++ [g])
    let op1 := { op with waiting := op.waiting.filter fun x => x ≠ u }
    if op1.waiting = [] then (if op.dead then s1.putOpens n rest else (s1.putOpens n rest).completeFlight n .S op.flight)
    else s1.putOpens n ((s1.core n).mem.opens.map fun x => if x = op then op1 else x)

def execDgrpOpenTake (core unit : Nat) (s : State) : Out :=
  .next (match (s.core core).mem.opens.find? fun op => op.waiting.contains unit with
    | none => s
    | some op => s.openTake core op unit)

/-! ## Updates at a unit (R117) -/

/-- Canonical order. -/
def earlier (a b : Update) : Bool := decide (a.issuer < b.issuer) || (decide (a.issuer = b.issuer) && decide (a.s < b.s))

def insertUpdate (u : Update) : List Update → List Update
  | [] => [u]
  | x :: xs => if earlier u x then u :: x :: xs else x :: insertUpdate u xs

/-- Every issuer with a lower index has closed. -/
def lowerClosed (g : Group) (i : Nat) : Bool := (List.range i).all fun k => g.closed.contains k
def allClosed (g : Group) : Bool := (List.range g.n).all fun k => g.closed.contains k

/-- One update applied: its lane is complete. -/
def State.applyUpdate (s : State) (u : Update) : State :=
  let s1 := match s.mem.rmw u.ctx u.key u.pa (amoWidth u.fmt) u.aop u.value.toNat 0 with
    | some (_, m) => s.withMem m
    | none => s.poisonMet u.ctx (s.mem.badLine u.ctx u.pa (amoWidth u.fmt))
  if u.dead then s1 else s1.completeFlight u.core .S u.flight

/-- The held updates that may be applied now, in canonical order. -/
def ripe (g : Group) (u : Update) : Bool := if g.ordered then lowerClosed g u.issuer.toNat else allClosed g

def State.flush (s : State) (unit : Nat) (g : Group) : State :=
  (g.held.filter (ripe g)).foldl (fun s u => s.applyUpdate u) (s.putGroup unit { g with held := g.held.filter fun u => !ripe g u })

def heldIn (s : State) (unit : Nat) : Nat := (s.unit unit).foldl (fun n g => n + g.held.length) 0

/-- An earlier update of the issuer has not been accepted. -/
def overtakes (c : Core) (u : Update) : Bool :=
  (c.mem.transit ++ c.mem.refused).any fun x => x.group = u.group && x.issuer = u.issuer && x.unit = u.unit && decide (x.s < u.s)

def State.refuseUpdate (s : State) (u : Update) : State :=
  if u.dead then s
  else
    let c := s.core u.core
    s.putCore u.core { c with mem := { c.mem with refused := c.mem.refused ++ [u] } }

def inRanges (rs : List (Nat × Nat)) (pa n : Nat) : Bool := rs.any fun r => decide (r.1 ≤ pa) && decide (pa + n ≤ r.1 + r.2)

/-- Ordered admission of one update. -/
def State.takeIn (s : State) (g : Group) (u : Update) : State :=
  if lowerClosed g u.issuer.toNat && !overtakes (s.core u.core) u then s.applyUpdate u else s.refuseUpdate u

/-- DESIGN CHOICE (log 86). -/
def State.updateArrives (s : State) (u : Update) : State :=
  match s.groupAt u.unit u.group u.ctx with
  | none => if u.dead then s else s.groupFailed u.core u.flight u.iseq u.who u.va.toNat
  | some g =>
    if g.n ≤ u.issuer.toNat || !inRanges g.range u.pa (amoWidth u.fmt) then
      (if u.dead then s else s.groupFailed u.core u.flight u.iseq u.who u.va.toNat)
    else if g.ordered then s.takeIn g u
    else if heldIn s u.unit < 16 then s.putGroup u.unit { g with held := insertUpdate u g.held }
    else
      let g1 := { g with ordered := true }
      (s.flush u.unit g1).takeIn g1 u

def execDgrpUpdateArrive (core : Nat) (s : State) : Out :=
  let c := s.core core
  .next (match c.mem.transit with
    | [] => s
    | u :: rest =>
      match unitAwake s u.unit with
      | .error h => s.delayed h
      | .ok _ => (s.putCore core { c with mem := { c.mem with transit := rest } }).updateArrives u)

/-- A refused update is on its way again. -/
def execDgrpUpdateResend (core : Nat) (s : State) : Out :=
  let c := s.core core
  .next (match c.mem.refused with
    | [] => s
    | u :: rest => s.putCore core { c with mem := { c.mem with refused := rest, transit := u :: c.mem.transit } })

/-! ## Closes at a unit (R118) -/

/-- A close is sent once every update of the issuer has been accepted or held. -/
def mayClose (c : Core) (op : GroupOp) : Bool :=
  (c.mem.transit ++ c.mem.refused).all fun u => !(u.group = op.group && u.ctx = op.ctx && u.issuer = op.issuer)

def State.putCloses (s : State) (n : Nat) (ops : List GroupOp) : State :=
  let c := s.core n
  s.putCore n { c with mem := { c.mem with closes := ops } }

/-- A group is complete at a unit: the unit is free of it, and the closes that wait for it wait there no more. -/
def State.unitComplete (s : State) (unit : Nat) (id ctx : W16) : State :=
  let s1 := s.putUnit unit ((s.unit unit).filter fun g => !isGroup id ctx g)
  s1.cores.foldl (fun s c =>
    s.putCloses c.1 ((s.core c.1).mem.closes.map fun op =>
      if op.group = id ∧ op.ctx = ctx then { op with units := op.units.filter fun x => x ≠ unit } else op)) s1

/-- The closes that are complete leave. -/
def State.settleCloses (s : State) : State :=
  s.cores.foldl (fun s c =>
    let done (op : GroupOp) : Bool := decide (op.waiting = []) && (op.dead || decide (op.units = []))
    let ops := (s.core c.1).mem.closes
    (ops.filter done).foldl (fun s op => if op.dead then s else s.completeFlight c.1 .S op.flight)
      (s.putCloses c.1 (ops.filter fun op => !done op))) s

def State.closeArrives (s : State) (n : Nat) (op : GroupOp) (unit : Nat) : State :=
  let reached := { op with waiting := op.waiting.filter fun x => x ≠ unit }
  let gone := { reached with units := op.units.filter fun x => x ≠ unit }
  let put (s : State) (x : GroupOp) : State := s.putCloses n ((s.core n).mem.closes.map fun y => if y = op then x else y)
  match s.groupAt unit op.group op.ctx with
  | none => (put s gone).settleCloses
  | some g =>
    if closeBad g op.issuer.toNat then
      let s1 := s.putCloses n ((s.core n).mem.closes.filter fun y => y ≠ op)
      if op.dead then s1 else s1.groupFailed n op.flight op.iseq op.who (Config.choice s.free)
    else
      let g1 := { g with closed := setIns g.closed op.issuer.toNat }
      let s1 := (put s reached).flush unit g1
      (if allClosed g1 then s1.unitComplete unit op.group op.ctx else s1).settleCloses

def execDgrpCloseArrive (core unit : Nat) (s : State) : Out :=
  let c := s.core core
  .next (match c.mem.closes.find? fun op => op.waiting.contains unit && mayClose c op with
    | none => s
    | some op =>
      match unitAwake s unit with
      | .error h => s.delayed h
      | .ok _ => s.closeArrives core op unit)

/-! ## A kill (04 R118; 13 R366) -/

/-- The updates of a killed task that are on their way stay; those refused are dropped; and each of its participations is closed.
DEDUCED (log 35). -/
def State.killGroups (s : State) (n : Nat) : State :=
  let c := s.core n
  let ctx := c.ctx
  let who := c.who
  let close (p : PartSlot) : GroupOp :=
    let units := unitsWith s p.group ctx
    { flight := 0, iseq := 0, ctx := ctx, who := who, group := p.group, issuer := p.issuer, n := 0, ranges := [], waiting := units, units := units,
      dead := true }
  let dead (op : GroupOp) : GroupOp := { op with dead := true }
  s.putCore n { c with mem := { c.mem with
    parts := []
    refused := []
    transit := c.mem.transit.map fun u => { u with dead := true }
    opens := c.mem.opens.map dead
    closes := (c.mem.closes.map dead ++ c.mem.parts.map close).filter fun op => decide (op.waiting ≠ []) } }

end Sys2Proof.Machine
end

