-- ==== Sys2Proof/Machine/KTrap.lean ====
section
/-! DEFINITION. `sret`, and the events of a stop: CORE_STOP, CUT_WRITE, the handler image's arrival and the reloads of a restore
(14 R374, R379, R381, R383). -/

namespace Sys2Proof.Machine
open Sys2Proof

/-! ## The restore (R381) -/

/-- The last steps of a restore: what the cut holds is back, the reads of failed entries go again, and a requested lease may be granted. A lease
that the handler holds is free before the one of a HARD cut is requested. DEDUCED (log 78). -/
def State.endRestore (s : State) (n : Nat) (x : Cut) (die i : Nat) : State :=
  (((if x.slots then s.releaseLease n else s).finishRestore n x die i).resendFailed n).grantArray (bayOfCore n)

def Core.setStop (c : Core) (st : Stop) : Core := { c with sys := { c.sys with stop := some st } }

/-- The checks have passed: what differs from the cut is loaded first. `moved` : another core wrote the cut (R384). -/
def State.startRestore (s : State) (n : Nat) (x : Cut) (area : Nat × Nat) (moved : Bool) : State :=
  let c := s.core n
  match reloads c x moved with
  | [] => s.endRestore n x area.1 area.2
  | items => s.putCore n (c.setStop { why := .trap, phase := .restoring, area := some area, reload := items })

/-- ILLEGAL_OP with reason 0x11 at the `sret`. -/
def sretIllegal (s : State) : Halt := .trap .illegalOp (BitVec.ofNat 64 (0x11 * 2 ^ 56 + s.addr % 2 ^ 17))

/-- The cut that CUT_K to CUT_S name, if the checks pass. -/
def sretCut (s : State) (t : Task) : Chk (Nat × Cut) :=
  let die := dieOfCore s.curCore
  match cutArea (s.die die) s.cc.csr.cut with
  | none => .error (sretIllegal s)
  | some i => do
    match ← s.cutIn t.ctx die i with
    | none => .error (sretIllegal s)
    | some x => .ok (i, x)

/-- The mode, then the handler's own work, then the cut. -/
def sretCheck (s : State) : Chk (Nat × Cut) := do
  need s.cc.sys.sv privHalt
  let t ← s.needTask
  need s.quiesced .wait
  sretCut s t

/-- `sret` restores in place of its own issue: K goes on at the lane the cut names. -/
def execSret (s : State) : Out :=
  .next (match sretCheck s with
    | .ok (i, x) => s.startRestore s.curCore x (dieOfCore s.curCore, i) false
    | .error h => s.halted s.curCore .K h)

/-! ## The events of a stop -/

/-- The stop of a core whose task is neither reached by a kill nor over: a kill point takes precedence over every stop (R391). -/
def State.liveStop (s : State) (n : Nat) : Option (Stop × Task) :=
  match (s.core n).sys.stop, (s.core n).sys.task with
  | some st, some t => if s.dying t.scope || (s.core n).sys.halting then none else some (st, t)
  | _, _ => none

/-- CORE_STOP: fetch routes nothing further, and the clusters drain (R374). -/
def execCoreStop (core : Nat) (s : State) : Out :=
  .next (match s.liveStop core with
    | some (st, _) => if st.phase = .requested then s.putCore core ((s.core core).setStop { st with phase := .draining }) else s
    | none => s)

/-- A hard stop gives the lease back once its cut is written (R383). -/
def hardStop (st : Stop) : Bool := decide (st.why = .park) || decide (st.why = .run)

def StopWhy.isDebug : StopWhy → Bool
  | .debug _ => true
  | _ => false

/-- The debug stops that the core has not answered: the one in hand, and the one held behind it. -/
def Core.debugPending (c : Core) : Nat :=
  let why : List StopWhy := (c.sys.stop.map Stop.why).toList ++ c.sys.nextStop.toList
  (why.filter StopWhy.isDebug).length

/-- The core gives its task up: a debug stop that waited has nothing to stop, and each request has its own reply (17 R437). -/
def State.endDebug (before : State) (n : Nat) (s : State) : State :=
  if (s.core n).sys.task.isNone then
    (List.range (before.core n).debugPending).foldl (fun s _ => s.reply 0x013 1 0 []) s
  else s

/-- CUT_WRITE: nothing more can issue, and what has issued has completed. -/
def execCutWrite (core : Nat) (s : State) : Out :=
  .next (match s.liveStop core with
    | some (st, _) =>
      if st.phase ≠ .drained then s
      else s.whole fun s => s.endDebug core (if hardStop st then (s.takeCut core st).releaseLease core else s.takeCut core st)
    | none => s)

/-- HANDLER_IMAGE_LOADED (R379, R380). -/
def execHandlerImageLoaded (core : Nat) (s : State) : Out :=
  .next (match s.liveStop core with
    | some (st, _) => if st.phase = .loading then s.whole fun s => s.loadHandler core st else s
    | none => s)

/-- One reload of a restore, or its failure. -/
def State.reloadStep (s : State) (n : Nat) (st : Stop) (area : Nat × Nat) (x : Cut) : List Nat → State
  | [] => s.endRestore n x area.1 area.2
  | item :: rest =>
    match s.reload n x item with
    | .error h => if h.delays then s.delayed h else (s.delayed h).failRestore n (some area) h.toTrap
    | .ok s1 =>
      let c := s1.core n
      match rest with
      | [] => s1.endRestore n x area.1 area.2
      | _ => s1.putCore n (c.setStop { st with reload := rest })

/-- FRAME_RELOAD_COMPLETE: one frame or the bank of a restore is in (R381 step 1). -/
def execFrameReloadComplete (core : Nat) (s : State) : Out :=
  .next (match s.liveStop core with
    | some (st, t) =>
      match st.phase, st.area with
      | .restoring, some area =>
        s.whole fun s => (match s.cutIn t.ctx area.1 area.2 with
          | .ok (some x) => s.reloadStep core st area x st.reload
          | .ok none => s.failRestore core (some area) { cause := .illegalOp, info := BitVec.ofNat 64 (0x11 * 2 ^ 56) }
          | .error h => s.delayed h)
      | _, _ => s
    | none => s)

end Sys2Proof.Machine
end

