-- ==== Sys2Proof/Machine/Fec.lean ====
section
/-! DEFINITION. The decoder of a damaged flit: Reed and Solomon's code over GF(2^10), corrected up to half the parity symbols held
(16 R422, R423). -/

namespace Sys2Proof.Machine
open Sys2Proof

/-! ## The field -/

/-- The inverse: the power 1022. -/
def gfInv (a : Nat) : Nat :=
  let sq (x : Nat) : Nat := gfMul 10 x x
  let go := (List.range 9).foldl (fun (p : Nat × Nat) _ => (gfMul 10 p.1 (sq p.2), sq p.2)) (1, a)
  go.1

/-- α to the power n. -/
def alpha (n : Nat) : Nat := gfPow 2 (n % 1023)

/-! ## Syndromes and the locator -/

/-- What the parity held adds to the parity of the flit as it came. -/
def syndromes (f : BitVec 1024) (symbols : List Nat) : List Nat := symbols.zipIdx.map fun p => p.1 ^^^ paritySymbol f p.2

/-- Coefficient i of a polynomial, lowest first. -/
def coef (p : List Nat) (i : Nat) : Nat := p.getD i 0

def polyAdd (a b : List Nat) : List Nat := (List.range (max a.length b.length)).map fun i => coef a i ^^^ coef b i
def polyScale (k : Nat) (a : List Nat) : List Nat := a.map (gfMul 10 k)

/-- The state of Berlekamp and Massey's search: the locator, the one before the last length change, its discrepancy, the length, and
the steps since. -/
structure Search where
  c : List Nat
  b : List Nat
  d : Nat
  len : Nat
  gap : Nat

def Search.next (x : Search) (ss : List Nat) (k : Nat) : Search :=
  let d := (List.range (x.len + 1)).foldl (fun a i => a ^^^ gfMul 10 (coef x.c i) (if i ≤ k then coef ss (k - i) else 0)) 0
  if d = 0 then { x with gap := x.gap + 1 }
  else
    let t := polyAdd x.c (List.replicate x.gap 0 ++ polyScale (gfMul 10 d (gfInv x.d)) x.b)
    if 2 * x.len ≤ k then { c := t, b := x.c, d := d, len := k + 1 - x.len, gap := 1 } else { x with c := t, gap := x.gap + 1 }

def locator (ss : List Nat) : Search :=
  (List.range ss.length).foldl (fun x k => x.next ss k) { c := [1], b := [1], d := 1, len := 0, gap := 1 }

/-! ## Places and values -/

/-- The symbols in error: those whose inverse position is a root of the locator. -/
def errorPlaces (c : List Nat) : List Nat := (List.range 103).filter fun j => gfEval (alpha (1023 - j)) c = 0

/-- The derivative at a point: odd coefficients alone. -/
def derivative (c : List Nat) : List Nat := (List.range (c.length - 1)).map fun i => if i % 2 = 0 then coef c (i + 1) else 0

/-- The value of the error at place j. -/
def errorValue (ss c : List Nat) (j : Nat) : Nat :=
  let omega := (List.range ss.length).map fun k => (List.range (k + 1)).foldl (fun a i => a ^^^ gfMul 10 (coef ss i) (coef c (k - i))) 0
  let x := alpha (1023 - j)
  gfMul 10 (gfEval x omega) (gfInv (gfEval x (derivative c)))

/-- The flit with its errors taken out, where at most half as many symbols as the parity held are in error. -/
def correct (f : BitVec 1024) (symbols : List Nat) : Option (BitVec 1024) :=
  let ss := syndromes f symbols
  let x := locator ss
  let js := errorPlaces x.c
  if 2 * x.len > symbols.length || js.length ≠ x.len then none
  else
    let ds := flitSymbols f
    some (BitVec.ofNat 1024 (joinNat 10 (js.foldl (fun ds j => setNth ds j (coef ds j ^^^ errorValue ss x.c j)) ds)))

/-- The flit that a receiver accepts from what it holds: one whose check passes. -/
def recover (f : BitVec 1024) (symbols : List Nat) : Option (BitVec 1024) :=
  if crcOk f then some f
  else match correct f symbols with
  | some g => if crcOk g then some g else none
  | none => none

end Sys2Proof.Machine
end

