-- ==== Sys2Proof/Machine/Link.lean ====
section
/-! DEFINITION. The Dalor link: flits sent and received, acknowledgement and recovery, training, and a port that goes down (16 R417 to
R426, R432). -/

namespace Sys2Proof.Machine
open Sys2Proof

/-! ## Sending -/

/-- A control flit (16 R423): its CTYPE, the SEQ it names, the round, and what follows from byte 8 on. -/
def controlFlit (ctype seq round more : Nat) : BitVec 1024 :=
  BitVec.ofNat 1024 (flitHead 3 3 0 0 false false + ctype * 2 ^ 32 + seq % 256 * 2 ^ 40 + round % 4 * 2 ^ 48 + more * 2 ^ 64)

/-- The SEQ that a port acknowledges. -/
def Port.ackSeq (p : Port) : Nat := (p.expect - 1).toNat

def Port.queueControl (p : Port) (f : BitVec 1024) : Port := { p with control := p.control ++ [f] }

/-- The end at die src of its bridge to die dst is port 24 + 4 src + dst (16 R427). -/
def isBridge (i : Nat) : Bool := decide (24 ≤ i) && decide (i < 40) && decide ((i - 24) / 4 ≠ (i - 24) % 4)

/-- How many flits the retry buffer holds (16 R421, R427). -/
def retryMax (i : Nat) : Nat := if isBridge i then 16 else 64

/-- A class has a flit ready. -/
def Port.ready (p : Port) (k : Nat) : Bool := (vget [] p.out k).any fun x => decide (x.flits ≠ [])

/-- The next flit of a class: the first packet's. -/
def takeFlit : List OutPacket → Option (BitVec 1024 × List OutPacket)
  | [] => none
  | x :: xs =>
    match x.flits with
    | [] => takeFlit xs
    | [f] => some (f, xs)
    | f :: fs => some (f, { flits := fs, started := true } :: xs)

/-- A flit time passes in which flit `f` is sent, of bulk or not. -/
def Port.sent (p : Port) (bulk : Bool) : Port := { p with quiet := 0, noBulk := if bulk then 0 else p.noBulk + 1, reqTime := p.reqTime + 1 }

/-- A flit of a class with its number, kept for a replay. -/
def Port.sendClass (p : Port) (k : Nat) : Option (BitVec 1024 × Port) :=
  (takeFlit (vget [] p.out k)).map fun x =>
    let f := sealFlit x.1 p.nextSeq.toNat p.ackSeq true
    (f, { p with out := p.out.setIfInBounds k x.2, nextSeq := p.nextSeq + 1, retry := p.retry ++ [f] }.sent (k = 0))

/-- A bulk flit is due (R419). -/
def Port.floorDue (p : Port) : Bool := decide (15 ≤ p.noBulk) && p.ready 0

/-- The class of the next flit (R417). -/
def Port.nextClass (p : Port) : Nat := if p.floorDue then 0 else if p.ready 2 then 2 else if p.ready 1 then 1 else 0

/-- What a port sends at a flit boundary, if anything; `cap` : the flits its retry buffer holds. -/
def Port.boundary (p : Port) (cap : Nat) : Option (BitVec 1024) × Port :=
  match p.control, p.resend with
  | f :: fs, _ => (some (sealFlit f 0 p.ackSeq true), { p with control := fs }.sent false)
  | [], f :: fs => (some f, { p with resend := fs }.sent (flitClass f = 0))
  | [], [] =>
    match (if p.retry.length < cap then p.sendClass p.nextClass else none) with
    | some (f, q) => (some f, q)
    | none => (none, { p with quiet := p.quiet + 1, noBulk := p.noBulk + 1, reqTime := p.reqTime + 1 })

/-- What a port sends goes with its trailer (R422, R423). -/
def State.emit (s : State) (i : Nat) (r : Option (BitVec 1024) × Port) : State :=
  let s1 := s.putPort i r.2
  match r.1 with
  | some f => s1.withFab { s1.fab with sent := s1.fab.sent ++ [.flit i f (baseParity f)] }
  | none => s1

/-- FLIT_BOUNDARY. -/
def execFlitBoundary (port : Nat) (s : State) : Out := .next (if (s.port port).up then s.emit port ((s.port port).boundary (retryMax port)) else s)

/-- BULK_FLOOR_FLIT: after 15 flit times without bulk, and with no control flit and no replay waiting, the next flit is bulk. -/
def execBulkFloorFlit (port : Nat) (s : State) : Out :=
  let p := s.port port
  .next (if p.up && p.floorDue && p.control.isEmpty && p.resend.isEmpty then s.emit port (p.boundary (retryMax port)) else s)

/-! ## Acknowledgement (R421) -/

/-- Every flit up to and including SEQ is acknowledged. -/
def dropThrough (seq : Nat) : List (BitVec 1024) → Option (List (BitVec 1024))
  | [] => none
  | f :: fs => if flitSeq f = seq then some fs else dropThrough seq fs

def Port.acked (p : Port) (seq : Nat) : Port :=
  match dropThrough seq p.retry with
  | none => p
  | some rest => { p with retry := rest, resend := p.resend.filter fun f => rest.contains f }

def execLinkAck (port : Nat) (seq : Byte) (s : State) : Out := .next (s.putPort port ((s.port port).acked seq.toNat))

/-- ACK_IDLE_TIMEOUT: a receiver that has sent nothing for 32 flit times acknowledges. -/
def execAckIdleTimeout (port : Nat) (s : State) : Out :=
  let p := s.port port
  .next (if p.up && decide (32 ≤ p.quiet) then s.putPort port (p.queueControl (controlFlit 0 0 0 0)) else s)

/-! ## Retraining (R425) -/

def Port.retrain (p : Port) (now : Nat) : Port := { p with up := false, training := true, since := now }

def State.retrainPort (s : State) (i : Nat) : State := s.putPort i ((s.port i).retrain s.sys.pkgCycle.toNat)

/-! ## A packet that has arrived whole (R415) -/

/-- The port by which a packet that came by another goes on. One that would turn back, since it goes the other way round its dimension, keeps its
direction while that has a port (R426). -/
def onward (s : State) (came : Option Nat) (core dst : Nat) : Nat :=
  match came with
  | none => portFor s core dst
  | some i =>
    let dir := direction (selfPkg s) dst
    if i < 24 && dir = i / 4 then (portIn s (if dir % 2 = 0 then dir + 1 else dir - 1) core dst).getD (portFor s core dst) else portFor s core dst

/-- A packet for another package goes on. -/
def State.forward (s : State) (came : Option Nat) (circ : Bool) (cls core dst : Nat) (bs : List Byte) : State :=
  s.queueAt (onward s came core dst) cls circ bs

/-- A management packet of an earlier life of its sender, where this package knows the sender's life (05 R143). DEDUCED (log 73). -/
def earlierLife (s : State) (h : PktHead) : Bool := decide (peerInc s h.src ≠ 0) && decide (h.sInc ≠ peerInc s h.src)

/-- `came` : the port it came by; `circ` : its flits were scheduled. -/
def State.arrive (s : State) (came : Option Nat) (circ : Bool) (cls : Nat) (bs : List Byte) : State :=
  match packetOf bs with
  | none => s
  | some (dst, p) =>
    if dst ≠ selfPkg s then s.forward came circ cls (headOfPacket bs).core dst bs
    else match p with
    | .request r => s.takeRequest { r with cls := cls }
    | .response a => s.takeResponse a
    | .management h pkg state inc => if earlierLife s h then s.countStalePacket else s.setPeer pkg state inc
    | .abort h group mask => if current s h.src h.sInc h.rInc then s.takeAbort h.src h.ctx group mask else s.countStalePacket
    | .abortAck h group _ => if current s h.src h.sInc h.rInc then s.abortAcked h.src h.ctx group else s.countStalePacket
    | .contrib c _ => s.contribPacket c

/-! ## Reassembly (R420) -/

/-- The slot a flit enters: its class's, or the circuit slot. -/
def slotOfFlit (f : BitVec 1024) : Nat := if flitCirc f then 3 else flitClass f

/-- The flits of a packet, complete: its bytes, if the count it gives is right. -/
def wholePacket (fs : List (BitVec 1024)) : Option (List Byte) :=
  let bs := fs.flatMap flitPayload
  if packetFlits bs = fs.length then some bs else none

/-- A flit accepted in order. What crosses a bridge is applied by CROSS_DIE_APPLY, which holds it (05 R137). -/
def State.assemble (s : State) (i : Nat) (f : BitVec 1024) : State :=
  let p := s.port i
  let k := slotOfFlit f
  let held := vget [] p.slots k
  let first := flitPos f = 1 || flitPos f = 3
  if first ≠ held.isEmpty then (s.putPort i { p with slots := p.slots.setIfInBounds k [] }).retrainPort i
  else
    let fs := held ++ [f]
    if flitPos f = 2 || flitPos f = 3 then
      let s1 := s.putPort i { p with slots := p.slots.setIfInBounds k [] }
      match wholePacket fs with
      | some bs => if isBridge i then s1 else s1.arrive (some i) (flitCirc f) (flitClass f) bs
      | none => s1
    else s.putPort i { p with slots := p.slots.setIfInBounds k fs }

/-! ## Recovery (R422 to R424) -/

/-- The symbols that answer a request for a round. -/
def answerSymbols (f : BitVec 1024) (round : Nat) : Nat := joinNat 10 (paritySymbols f (parityCount (round - 1)) (parityCount round))

def Port.parityAsked (p : Port) (seq round : Nat) : Port :=
  match p.retry.find? fun f => flitSeq f = seq with
  | some f => if 1 ≤ round && round ≤ 2 then p.queueControl (controlFlit 2 seq round (answerSymbols f round)) else p
  | none => p

/-- Every flit from a SEQ on is sent again. -/
def Port.replayAsked (p : Port) (seq : Nat) : Port :=
  if p.retry.any fun f => flitSeq f = seq then { p with resend := p.retry.dropWhile fun f => flitSeq f ≠ seq } else p

/-- A damaged flit is kept and the next round asked for; past round 2 a replay, and past two replays the port retrains. The round kept is
the one asked for; 3 stands for a replay. -/
def State.askRound (s : State) (i : Nat) (f : BitVec 1024) (symbols : List Nat) (round : Nat) : State :=
  let p := s.port i
  let seq := p.expect.toNat
  if round ≤ 2 then s.putPort i ({ p with damaged := some (f, round, symbols), reqTime := 0 }.queueControl (controlFlit 1 seq round 0))
  else if p.replays ≥ 2 then (s.putPort i { p with damaged := none, heldBack := [], replays := 0 }).retrainPort i
  else s.putPort i ({ p with damaged := some (f, 3, symbols), heldBack := [], replays := p.replays + 1, reqTime := 0 }.queueControl
    (controlFlit 3 seq 0 0))

/-- A flit received whole: in order it is accepted, else discarded. -/
def State.acceptFlit (s : State) (i : Nat) (f : BitVec 1024) : State :=
  let p := if flitAv f then (s.port i).acked (flitAck f) else s.port i
  if flitSeq f = p.expect.toNat then (s.putPort i { p with expect := p.expect + 1, damaged := none, replays := 0 }).assemble i f
  else s.putPort i p

def trailerSymbols (parity : BitVec 80) : List Nat := elemsOf 10 8 parity.toNat

/-- A sequenced flit as it comes, with none damaged before it. -/
def State.takeFlit (s : State) (i : Nat) (f : BitVec 1024) (parity : BitVec 80) : State :=
  match recover f (trailerSymbols parity) with
  | some g => s.acceptFlit i g
  | none => s.askRound i f (trailerSymbols parity) 1

/-- The flits held behind a damaged one, until one of them is damaged too. -/
def releaseHeld (i : Nat) : Nat → State → State
  | 0, s => s
  | n + 1, s =>
    let p := s.port i
    match p.heldBack, p.damaged with
    | (f, parity) :: rest, none => if p.up then releaseHeld i n ((s.putPort i { p with heldBack := rest }).takeFlit i f parity) else s
    | _, _ => s

def State.release (s : State) (i : Nat) : State := releaseHeld i (s.port i).heldBack.length s

/-- An answer's symbols join those held, and the flit is decoded again. -/
def State.parityAnswered (s : State) (i seq round : Nat) (more : Nat) : State :=
  let p := s.port i
  match p.damaged with
  | none => s
  | some (f, r, symbols) =>
    if r ≠ round || seq ≠ p.expect.toNat then s
    else
      let all := symbols ++ elemsOf 10 (parityCount round - parityCount (round - 1)) more
      match recover f all with
      | some g => ((s.putPort i { p with damaged := none }).acceptFlit i g).release i
      | none => s.askRound i f all (round + 1)

/-- A control flit (R423); one of a reserved CTYPE is ignored. -/
def State.controlArrives (s : State) (i : Nat) (f : BitVec 1024) : State :=
  if flitByte f 4 % 16 > 3 then s
  else
  let s1 := if flitAv f then s.putPort i ((s.port i).acked (flitAck f)) else s
  let seq := flitByte f 5
  let round := flitByte f 6
  match flitByte f 4 % 16 with
  | 1 => s1.putPort i ((s1.port i).parityAsked seq round)
  | 2 => s1.parityAnswered i seq round (f.toNat / 2 ^ 64)
  | 3 => s1.putPort i ((s1.port i).replayAsked seq)
  | _ => s1

/-- A sequenced flit arrives. -/
def State.flitArrives (s : State) (i : Nat) (f : BitVec 1024) (parity : BitVec 80) : State :=
  let p := s.port i
  match p.damaged with
  | none => s.takeFlit i f parity
  | some (_, r, _) =>
    if r ≠ 3 then s.putPort i { p with heldBack := p.heldBack ++ [(f, parity)] }
    else match recover f (trailerSymbols parity) with
    | some g => s.acceptFlit i g
    | none => s.askRound i f (trailerSymbols parity) 1

/-- FLIT_RECEIVE: a control flit that cannot be read is discarded. -/
def execFlitReceive (port : Nat) (flit : BitVec 1024) (parity : BitVec 80) (s : State) : Out :=
  .next (if !(s.port port).up then s
    else match recover flit (trailerSymbols parity) with
    | some g => if flitClass g = 3 then s.controlArrives port g else s.flitArrives port g (baseParity g)
    | none => if flitClass flit = 3 then s else s.flitArrives port flit parity)

def execLinkParityRequest (port : Nat) (seq : Byte) (round : BitVec 2) (s : State) : Out :=
  .next (s.putPort port ((s.port port).parityAsked seq.toNat round.toNat))

def execLinkParityAnswer (port : Nat) (seq : Byte) (round : BitVec 2) (symbols : BitVec 160) (s : State) : Out :=
  .next (s.parityAnswered port seq.toNat round.toNat symbols.toNat)

def execLinkReplayRequest (port : Nat) (seq : Byte) (s : State) : Out := .next (s.putPort port ((s.port port).replayAsked seq.toNat))

/-- PARITY_REQUEST_TIMEOUT: a request not answered for 128 flit times is sent again. -/
def execParityRequestTimeout (port : Nat) (s : State) : Out :=
  let p := s.port port
  .next (match p.damaged with
    | some (_, r, _) =>
      if p.up && decide (128 ≤ p.reqTime) then
        s.putPort port ({ p with reqTime := 0 }.queueControl
          (if r = 3 then controlFlit 3 p.expect.toNat 0 0 else controlFlit 1 p.expect.toNat r 0))
      else s
    | none => s)

/-! ## Training and loss (R425, R426; 05 R127, R143) -/

def execLaneLockLoss (port : Nat) (s : State) : Out := .next (if (s.port port).up then s.retrainPort port else s)

/-- The neighbour in a direction. -/
def neighbourOf (pkg dir : Nat) : Nat :=
  let k := dir / 2
  let x := coordinate pkg k
  let y := if dir % 2 = 0 then (x + 1) % 4 else (x + 3) % 4
  pkg - x * 4 ^ k + y * 4 ^ k

/-- The management complex tells every other member of a peer's state. DEDUCED (log 73). -/
def State.flood (s : State) (pkg state : Nat) (inc : W16) : State :=
  ((List.range (podCount s)).map (memberAt s)).foldl (fun s k =>
    if k = selfPkg s || k = pkg then s
    else
      let h : PktHead := { opk := 2, dst := k, src := selfPkg s, sInc := selfInc s, rInc := peerInc s k }
      s.send 2 0 k (.management h pkg state inc) (.peerState pkg state inc)) s

/-- What a port learns of its neighbour at training. -/
def State.learn (s : State) (pkg : Nat) (inc : W16) : State :=
  if peerWord s pkg = inc.toNat * 2 ^ 48 + 1 then s
  else
    let s1 := if peerInc s pkg = inc then s else s.peerGone (fallOf s pkg)
    (s1.setPeer pkg 1 inc).flood pkg 1 inc

/-- LINK_TRAINING_COMPLETE: a port resumes; with a neighbour of another life it starts anew. A bridge's neighbour is of the package's own life. -/
def execLinkTrainingComplete (port : Nat) (inc : W16) (s : State) : Out :=
  let p := s.port port
  .next (if p.up || selfInc s = 0 || (port ≥ 24 && !(isBridge port && decide (inc = selfInc s))) then s
    else
      let same := decide (p.neighbour = inc)
      let q : Port := if same then { p with resend := p.retry } else
        { p with retry := [], resend := [], slots := Vector.replicate 4 [], nextSeq := 0, expect := 0, damaged := none, heldBack := [], replays := 0 }
      let s1 := s.putPort port { q with up := true, training := false, neighbour := inc, quiet := 0, reqTime := 0 }
      if isBridge port then s1 else s1.learn (neighbourOf (selfPkg s) (port / 4)) inc)

/-- A package that no port leads to is set DOWN. -/
def State.dropUnreachable (s : State) : State :=
  (List.range 64).foldl (fun s k =>
    let dir := direction (selfPkg s) k
    let other := if dir % 2 = 0 then dir + 1 else dir - 1
    if k ≠ selfPkg s && decide (bits (peerWord s k) 1 0 = 1) && (portIn s dir 0 k).isNone && (portIn s other 0 k).isNone then
      (s.setPeer k 0 (peerInc s k)).flood k 0 (peerInc s k)
    else s) s

/-- PORT_DOWN: 1 ms after its training began. What it holds in part, and what it has not sent, is discarded. -/
def execPortDown (port : Nat) (s : State) : Out :=
  let p := s.port port
  .next (if isBridge port || p.up || !p.training || s.sys.pkgCycle.toNat < p.since + 1050000 then s
    else (s.putPort port { neighbour := p.neighbour, training := false, since := p.since, noBulk := p.noBulk }).dropUnreachable)

end Sys2Proof.Machine
end

