-- ==== Sys2Proof/Machine/Life.lean ====
section
/-! DEFINITION. A task's life on its core: fetch, completion of lanes, start, retirement, the kill point, refill of sluices, and the limits
that stop it (06 R149, R161, R167, R168; 13 R359, R365, R368; 15 R402, R405). -/

namespace Sys2Proof.Machine
open Sys2Proof

/-! ## Fetch and completion -/

/-- FETCH_LINE: a cluster's stream is served by fetch. -/
def execFetchLine (core : Nat) (cl : Cl) (s : State) : Out := .next (s.fetch core cl)

/-- The oldest lane that has nothing more to wait for. -/
def Cluster.oldestSync (x : Cluster) : Option Nat := (List.find? (fun f => decide (f.kind = .sync)) x.flights).map Flight.no

/-- LANE_COMPLETE: the oldest issued synchronous lane of a cluster completes, with its leaf (03 R81; 15 R394). -/
def execLaneComplete (core : Nat) (cl : Cl) (s : State) : Out :=
  .next (match (s.cluster core cl).oldestSync with
    | none => s
    | some no => (s.putCore core ((s.core core).readyLeaf cl no)).completeFlight core cl no)

/-- LEAF_APPEND: the digest engine appends the oldest held leaf of a cluster's tree once it is ready (15 R394, R404); K has no tree. -/
def execLeafAppend (core : Nat) (cl : Cl) (s : State) : Out := .next (if cl = .K then s else s.appendRecord core cl)

/-! ## Start (06 R167; 13 R359) -/

/-- The frame that holds a task's overlay, or the one it is to be loaded into. -/
def startFrame (c : Core) (t : Task) : Nat × Bool :=
  let holds (f : Frame) : Bool := f.img = t.ovl && f.len = t.ovlLen && f.tag = t.ctx && !f.empty && f.loading = 0
  if holds c.frame0 then (0, false) else if holds c.frame1 then (1, false) else (1 - c.sys.lastFrame, true)

/-- The overlay, where the core does not hold it. DEDUCED (log 50). -/
def State.startOverlay (s : State) (n : Nat) (t : Task) (f : Nat) (load : Bool) : Chk State :=
  if !load then .ok s
  else if ((s.core n).frame f).loading ≠ 0 then .error .wait
  else do
    let bs ← s.vaRead t.ctx .ovl t.ovl.toNat t.ovlLen
    let c := s.core n
    .ok (s.putCore n (c.putFrame f (((c.frame f).accept t.ovl t.ovlLen).fill t.ctx bs)))

/-- The bank image, with the overlay or where the core does not hold it; a load of the bank still in hand ends first (04 R103). -/
def State.startBank (s : State) (n : Nat) (t : Task) (load : Bool) : Chk State :=
  match t.bank with
  | none => .ok s
  | some va =>
    let c := s.core n
    if !load && c.mem.bankTag = t.ctx && c.mem.bankSrc = va then .ok s
    else if (s.bay (bayOfCore n)).jobs.any fun j => j.bank && decide (j.target = n) then .error .wait
    else do
      let bs ← s.vaRead t.ctx .ovl va.toNat 1024
      let c1 := c.fillBank t.ctx bs
      .ok (s.putCore n { c1 with mem := { c1.mem with bankSrc := va }, sys := { c1.sys with bankLoads := c1.sys.bankLoads + 1 } })

def startRegs (t : Task) : Regs :=
  let r : Regs := {}
  let indexed := (List.range 4).foldl (fun (r : Regs) i => r.setX (i + 1) (t.index.getD i 0)) r
  ((indexed.setX 5 t.arg).setX 6 (t.tid.setWidth 64)).setX 7 (BitVec.ofNat 64 t.level)

/-- A cluster at the start of a task: its flights are counted on, and nothing else is kept. -/
def Cluster.begin (x : Cluster) (fpc : LaneAddr) : Cluster := { flightNo := x.flightNo, fpc := fpc }

/-- K at the start of a task: its entry is a target (08 R199). -/
def Cluster.beginAt (x : Cluster) (fpc : LaneAddr) : Cluster := { x.begin fpc with jumped := true }

/-- The start state (R167). GEN, WEIR_STALE, the slots, the frames and the bank stand as they are. -/
def Core.begin (c : Core) (t : Task) (f : Nat) (now : Nat) : Core :=
  { c with
    regs := startRegs t
    queues := Vector.replicate 16 {}
    cues := Vector.replicate 4 []
    k := c.k.beginAt (BitVec.ofNat 17 (f * 0x10000 + 4 * t.entry))
    l := c.l.begin 0
    c := c.c.begin 0
    s := c.s.begin 0
    lease := .none
    leaseFlights := []
    mem := { c.mem with weirs := [], parts := [], streamL := [], streamS := [], indexL := 0, indexS := 0 }
    sys := { c.sys with sv := false, apart := false, task := some t, halting := false, lastFrame := f, startCycle := now, stop := none,
                        nextStop := none, handled := none } }

/-- A core that meets another context than that of its last task: every word of its bank reads zero (09 R232). -/
def Core.meetCtx (c : Core) (ctx : W16) : Core :=
  if c.sys.lastCtx = ctx then c
  else
    { c with mem := { c.mem with bank := [], bankPoison := [], bankTag := 0, bankSrc := 0 },
             sys := { c.sys with lastCtx := ctx, ctxStarts := c.sys.ctxStarts + 1 } }

def State.meetCtx (s : State) (n : Nat) (ctx : W16) : State := s.putCore n ((s.core n).meetCtx ctx)

/-- The head of the prefetch buffer becomes the core's task. -/
def Core.takeNext (c : Core) (t : Task) (now : Nat) : Core :=
  { c with sys := { c.sys with prefetch := c.sys.prefetch.tail, task := some t, halting := false, startCycle := now } }

/-- A task with a saved cut is restored in place of its start (14 R384). DEDUCED (log 48). -/
def State.startSaved (s : State) (n : Nat) (t : Task) (area : Nat × Nat) : State :=
  let s0 := s.meetCtx n t.ctx
  let s1 := s0.putCore n ((s0.core n).takeNext t s.sys.pkgCycle.toNat)
  match s1.cutIn t.ctx area.1 area.2 with
  | .error h => s.delayed h
  | .ok none => s1.failRestore n (some area) { cause := .illegalOp, info := BitVec.ofNat 64 (0x11 * 2 ^ 56) }
  | .ok (some x) => s1.startRestore n x area (decide (t.cutCore ≠ n))

/-- A load that fails faults the task with the job's cause. -/
def State.startFresh (s : State) (n : Nat) (t : Task) : State :=
  let s0 := s.meetCtx n t.ctx
  let (f, load) := startFrame (s0.core n) t
  let loaded := do
    let s1 ← s0.startOverlay n t f load
    s1.startBank n t load
  let now := s.sys.pkgCycle.toNat
  match loaded with
  | .ok s1 => s1.putCore n (((s1.core n).takeNext t now).begin t f now)
  | .error h =>
    if h.delays then s.delayed h
    else ((s0.delayed h).putCore n ((s0.core n).takeNext t now)).endTask n h.toTrap

/-- TASK_START: a core without a task takes the next of its prefetch buffer. -/
def execTaskStart (core : Nat) (s : State) : Out :=
  .next (match (s.core core).sys.task, (s.core core).sys.prefetch with
    | none, t :: _ =>
      if s.dying t.scope || !bayLogicOn s core then s
      else s.whole fun s => (match t.area with
        | some area => s.startSaved core t area
        | none => s.startFresh core t)
    | _, _ => s)

/-! ## Retirement (06 R168; 15 R402, R405) -/

/-- The core has no task: nothing of the last one is left but its frames, bank and slots. -/
def Core.vacate (c : Core) : Core :=
  let c1 := c.clear 0
  { c1 with
    k := c.k.begin 0
    l := c.l.begin 0
    c := c.c.begin 0
    s := c.s.begin 0
    mem := { c.mem with weirs := [], parts := [], streamL := [], streamS := [] }
    sys := { c.sys with task := none, sv := false, apart := false, halting := false, stop := none, nextStop := none, handled := none } }

/-- An audited task's root: into its open image, the log, and its place at DIGEST; its block is free again. -/
def State.retireTree (s : State) (n : Nat) (t : Task) : State :=
  match t.block with
  | none => s
  | some b =>
    let roots := b.roots
    let s1 := (s.withMem (sealImage s.mem t.ctx b roots)).logAppend (dieOfCore n) (taskRootRecord s n t b)
    let s2 := s1.freeTask { t with area := none }
    match t.node with
    | none => s2
    | some i =>
      let x := s2.node t.graph i
      let root := rootsTask roots
      (s2.putNode t.graph i { x with roots := Map.set x.roots t.tid.toNat root }).vaWrite t.ctx (.store 8) (x.w 9 + 32 + 32 * t.tid.toNat) root

/-- Every leaf is in, and the log has room for the root record (15 R413). -/
def treeReady (s : State) (n : Nat) (t : Task) : Bool :=
  match t.block with
  | none => true
  | some b => b.drained && logRoom s (dieOfCore n)

/-- TASK_RETIRE: `halt` has issued, and the trees hold every leaf; a block that cannot be read ends the task's context (R413). -/
def execTaskRetire (core : Nat) (s : State) : Out :=
  let c := s.core core
  .next (match c.sys.task with
    | none => s
    | some t =>
      if !c.sys.halting || s.dying t.scope || !treeReady s core t || allCl.any (fun cl => decide ((c.cluster cl).flights ≠ [])) then s
      else match t.block.bind (treeBad s) with
      | some u => s.poisonMet t.ctx u
      | none => s.whole fun s =>
        let s1 := ((s.retireTree core t).cancelReceives t.who).releaseLease core
        let s2 := s1.putCore core (s1.core core).vacate
        s.endDebug core (match t.nest with
          | some k => s2.nestTaskOver k
          | none => s2))

/-! ## Sluices (06 R161) -/

/-- The ring's oldest entry, read back, into a free place on chip. -/
def State.refill (s : State) (n q : Nat) : State :=
  let c := s.core n
  let x := c.queue q
  match x.ring with
  | [] => s
  | e :: rest =>
    let pa := x.ringPa x.head
    if queueDepth q ≤ x.chip.length then s
    else match awake s pa with
    | .error h => s.delayed h
    | .ok _ =>
      match s.mem.read e.tag 0 pa (queueBytes q) with
      | none => s.poisonMet e.tag (s.mem.badLine e.tag pa (queueBytes q))
      | some bs =>
        s.putCore n (c.putQueue q { x with chip := x.chip ++ [{ e with data := BitVec.ofNat 2048 (ofBytes bs) }], ring := rest,
                                           head := (x.head + queueBytes q) % x.size })

/-- SLUICE_REFILL. -/
def execSluiceRefill (core q : Nat) (s : State) : Out := .next (s.refill core q)

/-! ## The kill point (13 R365; 04 R123, R124) -/

/-- One arrive-and-drop of a killed task's membership: a stale one counts in the weir only. -/
def State.dropWeir (s : State) (ctx : W16) (m : W64 × W16) : State :=
  match (do
    let p ← translate s ctx false .weir anyFmt m.1.toNat
    let _ ← awake s p.pa
    .ok p : Chk Place) with
  | .error h => s.met h
  | .ok p =>
    match s.mem.read ctx p.key p.pa 64 with
    | none => s.poisonMet ctx (s.mem.badLine ctx p.pa 64)
    | some bs => if weirOk bs then s.withMem (s.mem.putWeir ctx p.pa ((weirAt bs).arrive m.2.toNat true).2) else s

def State.dropWeirs (s : State) (ctx : W16) (ms : List (W64 × W16)) : State := ms.foldl (fun s m => s.dropWeir ctx m) s

/-- Every event of a killed task has been performed: none of its jobs, remote writes or group updates is left (03 R92). -/
def State.workOver (s : State) (n : Nat) (w : Who) : Bool :=
  let c := s.core n
  !s.bays.any (fun b => b.2.jobs.any fun j => decide (j.who = w)) && !c.mem.remote.any (fun o => decide (o.op ≠ 0) && decide (o.who = w))
    && !(c.mem.transit ++ c.mem.refused).any (fun u => decide (u.who = w)) && !c.mem.opens.any (fun o => decide (o.who = w))
    && !s.units.any fun u => u.2.any fun g => g.held.any fun x => decide (x.who = w)

/-- The memberships that may be dropped now. -/
def State.dropDue (s : State) (n : Nat) : State :=
  let c := s.core n
  let due := c.mem.drops.filter fun d => s.workOver n d.who
  if due = [] then s
  else due.foldl (fun s d => s.dropWeirs d.ctx d.members)
    (s.putCore n { c with mem := { c.mem with drops := c.mem.drops.filter fun d => !s.workOver n d.who } })

/-- A running task's end by a kill, in the counts of the scope that kills it. -/
def killCounts (drops dropped : Nat) (sc : Scope) : Scope :=
  { sc with killed := sc.killed + 1, drops := sc.drops + drops, dropped := sc.dropped + dropped }

/-- Every issued synchronous lane has completed, a `ref.exec` with its writes to other packages among them (03 R92), and so has every matrix
command. -/
def atKillPoint (c : Core) : Bool :=
  allCl.all (fun cl => ((c.cluster cl).oldestSync).isNone) && !c.k.refWaits && decide (c.cmds = [])

/-- The work a killed task leaves behind goes on without it: its jobs in their order still, but none waits for a command that was dropped
(04 R104, R124). -/
def State.orphanWork (s : State) (n : Nat) : State :=
  let b := bayOfCore n
  let js := (s.bay b).jobs
  let left (name : BitVec 16) : Bool := js.any fun k => k.core = some n && cmdName k.cl k.index = name
  let s1 := s.putBay b { s.bay b with jobs := js.map fun j => if j.core = some n then { j with core := none, named := j.named.filter left } else j }
  let c := s1.core n
  s1.putCore n { c with mem := { c.mem with remote := c.mem.remote.map fun o => { o with dead := true } } }

/-- A task whose first lane has not issued counts as purged (13 R370). -/
def hasIssued (c : Core) : Bool := allCl.any fun cl => decide ((c.cluster cl).iseq ≠ 0)

/-- A killed task's memberships wait for its events. -/
def Core.owesDrops (c : Core) (t : Task) : Core :=
  if c.mem.weirs = [] then c
  else { c with mem := { c.mem with drops := c.mem.drops ++ [{ who := t.who, ctx := t.ctx, members := c.mem.weirs }] } }

/-! ### Saved cuts of killed tasks -/

/-- A killed task that waits with a cut: its memberships and participations end, and its saved commands are dropped. -/
def State.discardCut (s : State) (t : Task) : State :=
  match t.area with
  | none => s
  | some (d, i) =>
    let (x, s0) : Option Cut × State := match s.cutIn t.ctx d i with
      | .ok x => (x, s)
      | .error h => (none, s.met h)
    let weirs := (x.map fun y => y.weirs.map fun w => (w64 w.2.1, BitVec.ofNat 16 w.2.2)).getD []
    let parts := (x.map fun y => y.parts.map fun p => (BitVec.ofNat 16 p.2.1, BitVec.ofNat 8 p.2.2.1)).getD []
    let close (p : W16 × Byte) : GroupOp :=
      let units := unitsWith s p.1 t.ctx
      { flight := 0, iseq := 0, ctx := t.ctx, who := t.who, group := p.1, issuer := p.2, n := 0, ranges := [], waiting := units, units := units,
        dead := true }
    let s1 := (s0.dropWeirs t.ctx weirs).countKill t.scope (killCounts weirs.length t.saved.length)
    let c := s1.core t.cutCore
    let s2 := s1.putCore t.cutCore { c with mem := { c.mem with closes := c.mem.closes ++ (parts.map close).filter fun op => decide (op.waiting ≠ []) } }
    (s2.cancelReceives t.who).freeTask t

def isLost (s : State) (t : Task) : Bool := s.dying t.scope && t.area.isSome

def State.discardPrefetched (s : State) (n : Nat) (t : Task) : State :=
  let s1 := s.discardCut t
  let c := s1.core n
  let s2 := s1.putCore n { c with sys := { c.sys with prefetch := c.sys.prefetch.filter fun x => x ≠ t } }
  match t.nest with
  | none => s2
  | some k =>
    match Map.find? s2.nests k with
    | none => s2
    | some x => s2.putNest k { x with out := x.out - 1 }

def State.discardQueued (s : State) (k : Nat) (t : Task) : State :=
  let s1 := s.discardCut t
  match Map.find? s1.nests k with
  | none => s1
  | some x => s1.putNest k { x with requeued := x.requeued.filter fun y => y ≠ t }

/-- Every saved cut of a killed subtree is discarded (R365 step 2). -/
def State.discardCuts (s : State) : State :=
  let s1 := s.cores.foldl (fun s c => (c.2.sys.prefetch.filter (isLost s)).foldl (fun s t => s.discardPrefetched c.1 t) s) s
  s1.nests.foldl (fun s n => (n.2.requeued.filter (isLost s)).foldl (fun s t => s.discardQueued n.1 t) s) s1

/-! ### The kill point -/

/-- The end of a killed task; one whose cut is being restored is discarded with it (R370). -/
def State.killTask (s : State) (n : Nat) (t : Task) : State :=
  let c := s.core n
  let dropped := c.mem.streamL.length + c.mem.streamS.length + t.saved.length
  let counts : Scope → Scope :=
    if hasIssued c then killCounts c.mem.weirs.length dropped else fun sc => { sc with purged := sc.purged + 1 }
  let s0 := (s.discardCuts.purge.abortAll n).killGroups n
  let s2 := if t.area.isSome && !c.sys.sv then (((s0.discardCut t).orphanWork n).releaseLease n)
    else ((((s0.countKill t.scope counts).orphanWork n).releaseLease n).cancelReceives t.who).freeTask t
  let s3 := s2.putCore n ((s2.core n).owesDrops t).vacate
  s.endDebug n ((match t.nest with
    | some k => s3.nestTaskOver k
    | none => s3).dropDue n)

/-- Of the leaves held back for an audited task that a kill has reached, those of lanes that have completed are still appended (15 R413). -/
def Tree.prune (t : Tree) : Tree :=
  { t with held := t.held.filterMap fun l => if l.ready then some l else if l.opened && decide (l.recs ≠ []) then some { l with ready := true } else none }

def Core.pruneTrees (c : Core) : Core :=
  let c1 := ((c.modifyTree .L Tree.prune).modifyTree .C Tree.prune).modifyTree .S fun t =>
    { t.prune with held := t.prune.held ++ issuedNotes c.s.iq }
  { c1 with s := { c1.s with iq := c1.s.iq.filter fun e => e.mark.isNone } }

/-- An audited task's trees at its kill point: its accepted jobs run out, then what is ready is appended; true once nothing is held.
DEDUCED (log 76). -/
def State.killTrees (s : State) (n : Nat) (t : Task) (b : TreeBlock) : State × Bool :=
  if (s.bay (bayOfCore n)).jobs.any fun j => j.core = some n then (s.abortAll n, false)
  else if b.drained || (treeBad s b).isSome then (s, true)
  else
    let s1 := s.cancelReceives t.who
    let s2 := s1.putCore n (s1.core n).pruneTrees
    (((s2.appendRecord n .L).appendRecord n .C).appendRecord n .S, false)

/-- KILL_POINT: the core's task belongs to a killed subtree. A core that has none drops what its killed tasks still owe. -/
def execKillPoint (core : Nat) (s : State) : Out :=
  .next (s.whole fun s => match (s.core core).sys.task with
    | none => s.dropDue core
    | some t =>
      if !(s.dying t.scope && atKillPoint (s.core core)) then s.dropDue core
      else match t.block with
      | none => s.killTask core t
      | some b =>
        let (s1, clear) := s.killTrees core t b
        if clear then s1.killTask core t else s1)

/-! ## Limits (13 R368) -/

def State.preemptLimit (s : State) (n : Nat) : W64 := (s.die (dieOfCore n)).preemptLimit

/-- A stop may be asked of a core that runs a task and has none to come. -/
def State.stoppable (s : State) (n : Nat) : Bool :=
  let y := (s.core n).sys
  (match y.task with
    | some t => !s.dying t.scope
    | none => false) && !y.halting && y.nextStop.isNone && (match y.stop with
    | some st => decide (st.why ≠ .park)
    | none => true)

/-- RUN_LIMIT: RUN × 65,536 cycles after its start, the task is stopped for its handler. -/
def execRunLimit (core : Nat) (s : State) : Out :=
  let c := s.core core
  let run := bits (s.preemptLimit core).toNat 63 32
  let now := s.sys.pkgCycle.toNat
  .next (if s.stoppable core && run ≠ 0 && c.sys.startCycle + run * 65536 ≤ now then
    (s.putCore core { c with sys := { c.sys with startCycle := now } }).requestStop core .run
  else s)

/-- PARK_ESCALATION: a task of a parking graph that has not retired CYCLES after the park began is stopped. -/
def execParkEscalation (core : Nat) (s : State) : Out :=
  let cycles := bits (s.preemptLimit core).toNat 31 0
  .next (match (s.core core).sys.task with
    | none => s
    | some t =>
      match s.graph? t.graph with
      | none => s
      | some g =>
        if s.stoppable core && g.parking && cycles ≠ 0 && g.parkStart + cycles ≤ s.sys.pkgCycle.toNat then s.requestStop core .park else s)

end Sys2Proof.Machine
end

