-- ==== Sys2Proof/Machine/Board.lean ====
section
/-! DEFINITION. The callboards' own turns: firings that wait, dispatch, kills and curtains, ageing, the frame counter and its stalls,
parking, and the command port with the host's requests for it (13 R348, R359 to R361, R364 to R369; 19 R447). -/

namespace Sys2Proof.Machine
open Sys2Proof

/-! ## Scopes, slots, dispatch -/

/-- A firing that waits for a scope index goes on while its node can still fire. -/
def State.retryFire (s : State) (g i : Nat) : State :=
  let n := s.node g i
  if n.status = 0 || n.status = 6 then (s.fire g i).settle g else s.settle g

/-- SCOPE_CREATE: the oldest firing that waits takes a freed index (R364). -/
def execScopeCreate (die : Nat) (s : State) : Out :=
  let d := s.die die
  .next (match d.creations with
    | [] => s
    | (g, i) :: rest => if (s.reap.freeScope die).isSome then s.whole fun s => (s.putDie die { d with creations := rest }).retryFire g i else s)

/-- NODE_SLOT_ASSIGN: the READY node fired first that has no slot takes one (R348). -/
def execNodeSlotAssign (die : Nat) (s : State) : Out :=
  .next (match (s.die die).ready.find? fun e => (s.node e.1 e.2).status = 1 && !(s.node e.1 e.2).slot with
    | some (g, i) => s.takeSlot g i
    | none => s)

/-- TASK_DISPATCH (R359, R360). -/
def execTaskDispatch (die : Nat) (s : State) : Out := .next (s.whole fun s => s.dispatch die)

/-! ## Kills (R364 to R366) -/

/-- KILL_FORWARD: a kill of a scope of this context is applied here, and what waits of its subtree is removed. -/
def execKillForward (scope ctx : W16) (s : State) : Out :=
  .next (match s.scope? scope with
    | some sc => if sc.ctx = ctx then (s.kill scope .killed).whole fun s => s.discardCuts.purge else s
    | none => s)

/-- CURTAIN_WRITE. -/
def execCurtainWrite (scope : W16) (s : State) : Out :=
  .next (s.whole fun s => (s.discardCuts.cores.foldl (fun s c => s.dropDue c.1) s.discardCuts).writeCurtain scope)

/-! ## Ageing and release times (R360, R361) -/

def graphAgeLimit (s : State) (x : Graph) : Nat := (s.die x.die).ageLimit.toNat

/-- AGE_PROMOTION: AGE_LIMIT ticks without a dispatch raise a READY or RUNNING node by one level, never above 2. -/
def execAgePromotion (graph node : Nat) (s : State) : Out :=
  .next (match s.graph? graph with
    | none => s
    | some x =>
      let n := s.node graph node
      let limit := graphAgeLimit s x
      if (n.status = 1 || n.status = 2) && limit ≠ 0 && n.raised < 2 && n.lastTick + limit ≤ s.sys.frame.toNat then
        s.putNode graph node { n with raised := n.raised + 1, lastTick := n.lastTick + limit }
      else s)

/-- NODE_RELEASE_TIME: FRAME has reached RELEASE. -/
def execNodeReleaseTime (graph node : Nat) (s : State) : Out :=
  let n := s.node graph node
  .next (if n.status = 1 && !n.released && n.w 3 ≤ s.sys.frame.toNat then s.putNode graph node { n with released := true } else s)

/-! ## Deadlines and FRAME (R361; 09 R255) -/

def isTerminal (st : Nat) : Bool := st = 3 || st = 4 || st = 5

/-- A node that stalls FRAME: late, not terminal, of a graph that has not settled. -/
def stillLate (s : State) (p : Nat × Nat) : Bool :=
  match s.graph? p.1 with
  | none => false
  | some x => x.settled.isNone && !isTerminal (s.node p.1 p.2).status

/-- Nodes of deterministic graphs that are not terminal when FRAME reaches their DEADLINE, and are not marked late. -/
def newlyLate (s : State) : List (Nat × Nat) :=
  s.graphs.flatMap fun g =>
    if !g.2.det || g.2.settled.isSome then []
    else g.2.nodes.filterMap fun n =>
      if n.2.w 4 ≠ 0 && n.2.w 4 ≤ s.sys.frame.toNat && !isTerminal n.2.status && !n.2.late then some (g.1, n.1) else none

/-- The start of a stall: an entry of KIND 1 is due for each node that is late now. -/
def State.markLate (s : State) : State :=
  let s1 := s.withSys { s.sys with late := s.sys.late.filter (stillLate s) }
  (newlyLate s1).foldl (fun s p =>
    let s2 := s.putNode p.1 p.2 { s.node p.1 p.2 with late := true, owes := true }
    s2.withSys { s2.sys with late := s2.sys.late ++ [p] }) s1

/-- SLIP of a late node grows by one tick. DEDUCED (log 45). -/
def State.slipNode (s : State) (p : Nat × Nat) : State := s.putNode p.1 p.2 { s.node p.1 p.2 with owed := (s.node p.1 p.2).owed + 1 }

/-- What a node is due is written: its entry, and the ticks in its SLIP. FRAME does not wait for the pages they lie on. -/
def State.payNode (s : State) (p : Nat × Nat) : State :=
  s.whole fun s =>
    match s.graph? p.1 with
    | none => s
    | some x =>
      let s1 := if (s.node p.1 p.2).owes then
          (s.putNode p.1 p.2 { s.node p.1 p.2 with owes := false }).faultEntry p.1 p.2 1 .timetableSlip 0 x.anchor 0 0
        else s
      let n := s1.node p.1 p.2
      if n.owed = 0 then s1
      else (s1.putNode p.1 p.2 { n with owed := 0 }).vaModify x.ctx (x.nodeVa p.2 + 88) fun w => setBits w 31 0 (bits w 31 0 + n.owed)

/-- The nodes that are due something. -/
def dueNodes (s : State) : List (Nat × Nat) :=
  s.graphs.flatMap fun g => g.2.nodes.filterMap fun n => if n.2.owes || n.2.owed ≠ 0 then some (g.1, n.1) else none

def State.payAll (s : State) : State := (dueNodes s).foldl State.payNode s

/-- DEADLINE_STALL. -/
def execDeadlineStall (s : State) : Out := .next s.markLate.payAll

/-- FRAME_TICK: one tick every 256 cycles; it slips while a late node stalls FRAME. DEDUCED (log 51). -/
def execFrameTick (s : State) : Out :=
  .next (if s.sys.pkgCycle.toNat < 256 * (s.sys.ticks + 1) then s
  else
    let s1 := s.markLate
    let s2 := s1.withSys { s1.sys with ticks := s1.sys.ticks + 1 }
    (if s2.sys.late = [] then s2.withSys { s2.sys with frame := s2.sys.frame + 1 } else s2.sys.late.foldl State.slipNode s2).payAll)

/-! ## Parking (R367) -/

def taskOfGraph (g : Nat) (t : Task) : Bool := decide (t.graph = g)

/-- A task of the graph runs, or has been handed to a core. DEDUCED (log 75). -/
def graphRuns (s : State) (g : Nat) : Bool :=
  s.cores.any fun c => (match c.2.sys.task with
    | some t => taskOfGraph g t
    | none => false) || c.2.sys.prefetch.any (taskOfGraph g)

/-- Parking begins. -/
def State.park (s : State) (g : Nat) (byCallboard : Bool) : State :=
  match s.graph? g with
  | none => s
  | some x =>
    if x.settled.isSome then s
    else if x.parking || x.parked then s.putGraph g { x with byCallboard := x.byCallboard && byCallboard }
    else s.putGraph g { x with parking := true, byCallboard := byCallboard, parkStart := s.sys.pkgCycle.toNat, quiet := none }

/-- GSTAT becomes RUNNING, and dispatch resumes. -/
def State.unpark (s : State) (g : Nat) : State :=
  match s.graph? g with
  | none => s
  | some x =>
    if x.settled.isSome || !(x.parking || x.parked) then s
    else (s.putGraph g { x with parking := false, parked := false, byCallboard := false, quiet := none }).putGstat g 1

/-- GRAPH_PARKED: no task of a parking graph is left on a core. -/
def execGraphParked (graph : Nat) (s : State) : Out :=
  .next (match s.graph? graph with
    | none => s
    | some x =>
      if x.parking && x.settled.isNone && !graphRuns s graph then
        s.whole fun s => (s.putGraph graph { x with parking := false, parked := true }).putGstat graph 5
      else s)

/-- Ready nests whose tasks wait for a core: priority, domain, anchor, and since when. -/
def waitingWork (s : State) : List (Nat × Nat × Nat × Nat) :=
  s.nests.filterMap fun (e : Nat × Nest) =>
    if !nestOpen s e.2 || !e.2.capFree then none
    else (e.2.owner.bind fun p => (s.node p.1 p.2).waitFrom).map fun w => (nestPrio s e.2, e.2.domain, e.2.anchor, w)

/-- The priority of the node a task runs for. -/
def taskPrio (s : State) (t : Task) : Nat :=
  match t.owner with
  | some (g, i) => max t.prio (s.node g i).raised
  | none => t.prio

/-- The tasks handed to the cores of a domain: the priority and graph of each, where the graph may be parked. -/
def runningOn (s : State) (domain anchor : Nat) : List (Nat × Nat) :=
  s.cores.flatMap fun (c : Nat × Core) =>
    if !inDomain domain anchor c.1 then []
    else (c.2.sys.task.toList ++ c.2.sys.prefetch).filterMap fun t => (s.graph? t.graph).bind fun x =>
      if x.settled.isSome || x.parking || x.parked then none else some (taskPrio s t, t.graph)

/-- The lowest priority, and among equals the youngest launch. -/
def lowestGraph (s : State) : List (Nat × Nat) → Option (Nat × Nat)
  | [] => none
  | p :: ps =>
    match lowestGraph s ps with
    | none => some p
    | some q => if p.1 < q.1 || (p.1 = q.1 && launchOf s p.2 > launchOf s q.2) then some p else some q

/-- The graph to park for work of a callboard that has waited 256 cycles. -/
def parkVictim (s : State) (die : Nat) : Option Nat :=
  (waitingWork s).findSome? fun w =>
    if w.2.2.1 / 288 ≠ die || s.sys.pkgCycle.toNat < w.2.2.2 + 256 then none
    else (lowestGraph s (runningOn s w.2.1 w.2.2.1)).bind fun v => if v.1 < w.1 then some v.2 else none

/-- AUTO_PARK. -/
def execAutoPark (die : Nat) (s : State) : Out :=
  .next (match parkVictim s die with
    | some g => s.park g true
    | none => s)

/-- The highest priority of a graph's non-terminal nodes. -/
def graphPrio (x : Graph) : Nat := x.nodes.foldl (fun a n => if isTerminal n.2.status then a else max a (max n.2.raised (nodePrio (n.2.w 0)))) 0

/-- A free core in the graph's domain, and no task waiting for that domain above the graph's own priority. -/
def unparkOk (s : State) (x : Graph) : Bool :=
  let dom := levelDomain x.word7 x.level
  (List.range Config.cores).any (fun n => inDomain dom x.anchor n && decide ((s.core n).sys.prefetch.length < 2) && bayLogicOn s n)
    && !(waitingWork s).any fun w => decide (w.1 > graphPrio x) && (List.range Config.cores).any fun n =>
      inDomain dom x.anchor n && inDomain w.2.1 w.2.2.1 n

/-- Since when the conditions hold. -/
def quietSince (s : State) (x : Graph) : Option Nat :=
  if unparkOk s x then some (x.quiet.getD s.sys.pkgCycle.toNat) else none

/-- The callboard has parked a graph, or is parking it. -/
def parkedByBoard (x : Graph) : Bool := x.byCallboard && (x.parking || x.parked) && x.settled.isNone

def parkedHere (die : Nat) (x : Graph) : Bool := decide (x.die = die) && parkedByBoard x

/-- The conditions of an unpark hold, or do not, from one turn to the next. -/
def State.sampleQuiet (s : State) : State :=
  if s.graphs.any fun g => parkedByBoard g.2 then
    { s with graphs := s.graphs.map fun g => if parkedByBoard g.2 then (g.1, { g.2 with quiet := quietSince s g.2 }) else g }
  else s

/-- The graph parked first. -/
def firstParked : List (Nat × Graph) → Option (Nat × Graph)
  | [] => none
  | p :: ps =>
    match firstParked ps with
    | none => some p
    | some q => if q.2.parkStart < p.2.parkStart then some q else some p

/-- AUTO_UNPARK: graphs that the callboard parked, in the order they were parked, after 256 qualifying cycles. -/
def execAutoUnpark (die : Nat) (s : State) : Out :=
  .next (match firstParked (s.graphs.filter fun g => parkedHere die g.2) with
    | none => s
    | some (g, x) =>
      match x.quiet with
      | some q => if unparkOk s x && q + 256 ≤ s.sys.pkgCycle.toNat then s.whole fun s => s.unpark g else s
      | none => s)

/-! ## The command port (R369; 19 R447) -/

/-- The graph a command names: its launch record, not settled. -/
def State.graphNamed (s : State) (ctx : W16) (va : Nat) : Option Nat :=
  (List.find? (fun (g : Nat × Graph) => g.2.ctx = ctx && g.2.va.toNat = va && g.2.settled.isNone) s.graphs).map Prod.fst

/-- A host request's reply, where a host's request made the command. -/
def State.replyTo (s : State) (h : Option (W32 × BitVec 12)) (status : Nat) : State :=
  match h with
  | some (_, op) => s.reply op.toNat status 0 []
  | none => s

/-- One attempt at a command: the state after it, and whether it has completed. DESIGN CHOICE (log 33). -/
def State.runCmd (s : State) (die : Nat) (c : CbCmd) : State × Bool :=
  let va : W64 := c.arg.setWidth 64
  if c.op ≤ 1 then
    match s.launchRoot die c.ctx va (decide (c.op = 1)) c.hostSeq with
    | .held h => (s.met h, false)
    | .full => (s, false)
    | .refused st => (s.replyTo c.hostSeq st, true)
    | .started _ s1 => (s1, true)
  else if c.op = 2 then
    match s.graphNamed c.ctx va.toNat with
    | none => (s, true)
    | some g =>
      let s1 := if c.started then s else s.park g false
      (s1, ((s1.graph? g).map Graph.parked).getD true)
  else if c.op = 3 then
    match s.graphNamed c.ctx va.toNat with
    | none => (s, true)
    | some g => (s.unpark g, true)
  else ((s.superKill (BitVec.ofNat 16 c.arg.toNat)).replyTo c.hostSeq 0, true)

/-- The head command is tried. -/
def State.runHeadCmd (s : State) (die : Nat) : State :=
  s.whole fun s =>
    let d := s.die die
    match d.cbFifo with
    | [] => s
    | c :: rest =>
      let (s1, done) := (s.putDie die { d with cbFifo := { c with started := true } :: rest }).runCmd die c
      if done then s1.putDie die (s1.die die).popCmd else s1

/-- A command reaches the port: it is the head already, or it is accepted while the FIFO has room. -/
def State.portCmd (s : State) (die op : Nat) (arg : BitVec 56) : State :=
  let d := s.die die
  match d.cbFifo with
  | [] => (s.putDie die (d.pushCmd { op := op, ctx := d.cbCtx, arg := arg })).runHeadCmd die
  | c :: _ =>
    if c.op = op && c.arg = arg then s.runHeadCmd die
    else if d.cbFifo.length < 8 then s.putDie die (d.pushCmd { op := op, ctx := d.cbCtx, arg := arg })
    else s

def execCbLaunch (die : Nat) (arg : BitVec 56) (s : State) : Out := .next (s.portCmd die 0 arg)
def execCbResume (die : Nat) (arg : BitVec 56) (s : State) : Out := .next (s.portCmd die 1 arg)
def execCbPark (die : Nat) (arg : BitVec 56) (s : State) : Out := .next (s.portCmd die 2 arg)
def execCbUnpark (die : Nat) (arg : BitVec 56) (s : State) : Out := .next (s.portCmd die 3 arg)
def execCbKill (die : Nat) (arg : BitVec 56) (s : State) : Out := .next (s.portCmd die 4 arg)

/-! ## The host's requests for the port (17 R436, R437; 19 R447) -/

/-- The next request of the down ring is consumed; one already consumed, or beyond a gap, is not. A device that has not started presents no
ring (R439). -/
def State.consume (s : State) (seq : W32) : Option State :=
  if s.host.booted && seq = s.host.lastDown + 1 then some (s.withHost { s.host with lastDown := seq }) else none

/-- A request that is served once its turn has come. DEDUCED (log 63). -/
def State.serve (s : State) (seq : W32) (f : State → State) : State :=
  match s.consume seq with
  | some s1 => f s1
  | none => s

/-- The management complex writes CB_CTX, then CB_CMD. -/
def State.hostCmd (s : State) (die op : Nat) (ctx : W16) (arg : BitVec 56) (seq : W32) (code : BitVec 12) : State :=
  let d := s.die die
  let c : CbCmd := { op := op, ctx := ctx, arg := arg, hostSeq := some (seq, code) }
  let d1 : Die := { d with cbCtx := ctx }
  let s1 := s.putDie die (d1.pushCmd c)
  if d.cbFifo = [] then s1.runHeadCmd die else s1

def cmdRoom (s : State) (die : Nat) : Bool := decide ((s.die die).cbFifo.length < 8)

/-- A request for a callboard; it waits in the ring while the FIFO is full. -/
def State.hostRequest (s : State) (die op : Nat) (ctx : W16) (arg : BitVec 56) (seq : W32) (code : BitVec 12) : State :=
  if cmdRoom s die then s.serve seq fun s1 => s1.hostCmd die op ctx arg seq code else s

def State.hostLaunch (s : State) (seq : W32) (ctx : W16) (va : W64) (die : BitVec 2) : State :=
  s.hostRequest die.toNat 0 ctx (va.setWidth 56) seq 0x030

def State.hostResume (s : State) (seq : W32) (ctx : W16) (va : W64) (die : BitVec 2) : State :=
  s.hostRequest die.toNat 1 ctx (va.setWidth 56) seq 0x031

def State.hostKill (s : State) (seq : W32) (ctx scope : W16) : State :=
  s.hostRequest (scopeDie scope) 4 ctx (scope.setWidth 56) seq 0x032

def execHostLaunch (seq : W32) (ctx : W16) (va : W64) (die : BitVec 2) (s : State) : Out := .next (s.hostLaunch seq ctx va die)
def execHostResume (seq : W32) (ctx : W16) (va : W64) (die : BitVec 2) (s : State) : Out := .next (s.hostResume seq ctx va die)
def execHostKill (seq : W32) (ctx : W16) (scope : W16) (s : State) : Out := .next (s.hostKill seq ctx scope)

/-- A host-callback node that waits for this acknowledgement. -/
def callbackNode (s : State) (ctx : W16) (va : W64) (node : Nat) : Option Nat :=
  (s.graphNamed ctx va.toNat).bind fun g =>
    if (s.node g node).status = 2 && nodeKind ((s.node g node).w 0) = 3 then some g else none

/-- Op 0x033: the node becomes COMPLETE; where no node waits for it the request is refused. -/
def State.acknowledge (s : State) (ctx : W16) (va : W64) (node : Nat) : State :=
  match callbackNode s ctx va node with
  | some g => ((s.completeNode g node).settle g).reply 0x033 0 0 []
  | none => s.reply 0x033 1 0 []

/-- DESIGN CHOICE (log 44). -/
def State.callbackAck (s : State) (seq : W32) (ctx : W16) (va : W64) (node : BitVec 12) : State :=
  s.whole fun s => s.serve seq fun s1 => s1.acknowledge ctx va node.toNat

def execCallbackAcknowledge (seq : W32) (ctx : W16) (va : W64) (node : BitVec 12) (s : State) : Out :=
  .next (s.callbackAck seq ctx va node)

end Sys2Proof.Machine
end

