-- ==== Sys2Proof/WellFormed.lean ====
section
/-! DEFINITION. Which field values an instruction accepts: every value outside these raises ILLEGAL_OP on every Valnar (08 R208,
R209, and the entries of chapters 09 to 12). Cue bits that must be 0 stand apart (06 R162), since they have a reason of their own. -/

namespace Sys2Proof

/-- Elements in a vector of a type (11 R292). -/
def elemCount (t : Nat) : Nat := if t = 0 ∨ t = 3 then 64 else if t = 5 then 256 else 128

/-- The limits of `vcvt`'s h (11 R303). -/
def vcvtH (s t h : Nat) : Bool :=
  if elemCount s = elemCount t then h == 0
  else if elemCount t < elemCount s then decide (h < elemCount s / elemCount t)
  else decide (h < elemCount t / elemCount s)

/-- The flags of a copy command: CLASS 3 and a negative NRD are refused (10 R280; 08 R204). -/
def flagsOk (f : BitVec 9) : Bool :=
  decide (f.toNat / 32 % 4 ≠ 3) &&
    decide (f.toNat / 4 % 4 + (if f.toNat % 4 > 0 then 1 else 0) ≤ f.toNat / 128)

/-- Every field holds a value its entry accepts. -/
def Instr.fieldsOk : Instr → Bool
  | .lit _ a m n => decide (m.toNat ≠ 3) && decide (n.toNat ≤ 12) && (decide (m.toNat = 2) || decide (a.toNat = 0))
  | .ldAcq _ _ _ s | .stRel _ _ _ s | .fenceSc s => decide (s.toNat ≤ 8)
  | .fenceAcq s | .fenceRel s | .fenceAr s => decide (s.toNat ≤ 9)
  | .fcvt _ _ k => decide (k.toNat ≤ 7)
  | .bCond k _ _ _ => decide (k.toNat ≤ 5)
  | .ovlCall _ _ i => decide (i.toNat < 16384)
  | .loop _ e => decide (e.toNat ≠ 0)
  | .loopImm _ _ e => decide (e.toNat ≠ 0)
  | .qpush d _ => decide (d.toNat < 16)
  | .qpop _ a => decide (a.toNat < 16)
  | .ldq _ t _ _ | .ldqWb _ t _ _ | .stq _ t _ _ | .stqWb _ t _ _ => decide (t.toNat < 16)
  | .ldqS _ d _ _ | .stqS _ d _ _ => decide (d.toNat < 16)
  | .ldqG _ d _ _ | .stqX _ d _ _ => decide (d.toNat < 16)
  | .rldQ _ d _ k => decide (d.toNat < 16) && decide (k.toNat ≠ 3)
  | .rstQ _ d _ z k =>
    decide (k.toNat ≠ 3) && (decide (z.toNat = 0) || !(decide (d.toNat ≤ 5) || decide (d.toNat = 15)))
  | .ramo _ _ _ b k o => decide (k.toNat ≠ 3) && decide (o.toNat ≤ 9) && (decide (o.toNat ≠ 7) || decide (b.toNat ≠ 15))
  | .amo _ _ _ b o => decide (o.toNat ≤ 9) && (decide (o.toNat ≠ 7) || decide (b.toNat ≠ 15))
  | .amoG _ _ _ _ o => decide (o.toNat ≤ 9) && decide (o.toNat ≠ 6) && decide (o.toNat ≠ 7)
  | .lCp _ _ _ _ f | .lCp2d _ _ _ _ f | .sCp _ _ _ _ f | .sCp2d _ _ _ _ f => flagsOk f
  | .lColl _ _ _ l f | .sColl _ _ _ l f => flagsOk f && decide (l.toNat ≠ 15)
  | .cpOvl _ _ _ _ w k _ p => decide (k.toNat ≠ 3) && decide ((if p.toNat > 0 then 1 else 0) ≤ w.toNat)
  | .lAdd _ _ _ b q | .lSub _ _ _ b q | .lMul _ _ _ b q
  | .sAdd _ _ _ b q | .sSub _ _ _ b q | .sMul _ _ _ b q => decide (q.toNat = 0) || decide (b.toNat = 0)
  | .laCmp _ _ _ k => decide (k.toNat ≤ 5)
  | .lBCond _ k _ _ _ | .sBCond _ k _ _ _ => decide (k.toNat ≤ 5)
  | .lLoop _ e _ | .sLoop _ e _ => decide (e.toNat ≠ 0)
  | .vadd _ _ _ _ _ t | .vsub _ _ _ _ _ t | .vmul _ _ _ _ _ t | .vfma _ _ _ _ _ t | .vmin _ _ _ _ _ t | .vmax _ _ _ _ _ t
  | .vand _ _ _ _ _ t | .vor _ _ _ _ _ t | .vxor _ _ _ _ _ t | .vsel _ _ _ _ _ t | .vperm _ _ _ _ _ t => decide (t.toNat ≤ 5)
  | .vabs _ _ _ _ t | .vneg _ _ _ _ t | .vnot _ _ _ _ t | .vmov _ _ _ _ t => decide (t.toNat ≤ 5)
  | .vredAdd _ _ _ _ t | .vredMax _ _ _ _ t | .vredMin _ _ _ _ t => decide (t.toNat ≤ 5)
  | .vshl _ _ _ _ _ t | .vshr _ _ _ _ _ t | .vsra _ _ _ _ _ t => decide (3 ≤ t.toNat) && decide (t.toNat ≤ 5)
  | .vcmpEq _ d _ _ _ t | .vcmpNe _ d _ _ _ t | .vcmpLt _ d _ _ _ t | .vcmpLe _ d _ _ _ t =>
    decide (d.toNat < 8) && (decide (t.toNat = 0) || decide (t.toNat = 3))
  | .vsplat _ _ a i _ t => decide (a.toNat < 16) && (if i.toNat = 1 then decide (t.toNat = 3) else decide (t.toNat ≤ 5))
  | .vfmaQs _ _ _ q _ t => decide (q.toNat < 16) && decide (t.toNat ≤ 2)
  | .vcvt _ _ _ s h _ t => decide (s.toNat ≤ 5) && decide (t.toNat ≤ 5) && vcvtH s.toNat t.toNat h.toNat
  | .vquant _ d _ k g h => decide (d.toNat % 2 = 0) && decide (g.toNat ≤ 2) && (decide (k.toNat = 1) || decide (h.toNat ≤ 3))
  | .vdequant _ _ a k g h => decide (a.toNat % 2 = 0) && decide (g.toNat ≤ 2) && (decide (k.toNat = 1) || decide (h.toNat ≤ 3))
  | .vrot _ _ _ b _ t | .vbcast _ _ _ b _ t => decide (b.toNat < 16) && decide (t.toNat ≤ 5)
  | .vpart _ d _ b _ => decide (d.toNat % 2 = 0) && decide (b.toNat < 8)
  | .vcount _ _ b _ => decide (b.toNat < 8)
  | .vcompact _ _ _ b _ t | .vexpand _ _ _ b _ t => decide (b.toNat < 8) && decide (t.toNat ≤ 5)
  | .vpop _ _ q _ t => decide (q.toNat < 16) && decide (t.toNat ≤ 5)
  | .vpush _ q _ => decide (q.toNat < 16)
  | .vany _ a _ => decide (a.toNat < 8)
  | .pand _ d a b | .por _ d a b | .pxor _ d a b => decide (d.toNat < 8) && decide (a.toNat < 8) && decide (b.toNat < 8)
  | .pnot _ d a => decide (d.toNat < 8) && decide (a.toNat < 8)
  | .cBCond _ k _ a _ => decide (k.toNat ≤ 5) && decide (a.toNat < 16)
  | .cLoop _ a e => decide (a.toNat < 16) && decide (e.toNat ≠ 0)
  | .mma _ s _ _ _ _ _ k => decide (s.toNat ≤ 5) && decide (k.toNat ≤ 2)
  | .mmaV _ s g _ _ k f e =>
    decide (s.toNat ≤ 5) && decide (k.toNat ≤ 2) && decide (f.toNat ≤ 4) &&
      (if f.toNat ≤ 1 then decide (e.toNat ≤ 4) && decide (g.toNat ≤ 2)
       else decide (e.toNat = 0) && decide (g.toNat ≤ 3) && (if f.toNat = 4 then decide (k.toNat = 0) else decide (k.toNat ≤ 1)))
  | .mzero _ s | .mload _ s _ _ _ => decide (s.toNat ≤ 5)
  | .macc _ s a b => decide (s.toNat ≤ 5) && decide (a.toNat ≤ 5) && decide (b.toNat ≤ 5)
  | .mdrain _ s _ _ f _ => decide (s.toNat ≤ 5) && decide (f.toNat ≠ 3)
  | .mpatch _ s _ _ _ _ | .mpeek _ s _ _ _ _ => decide (s.toNat ≤ 5)
  | _ => true

/-- The cue field of a lane; a lane without one has cue 0. `cue.test` fixes its own (10 R288). -/
def Instr.cue : Instr → BitVec 4
  | .ldq c _ _ _ => c
  | .ldqWb c _ _ _ => c
  | .ldqS c _ _ _ => c
  | .ldqG c _ _ _ => c
  | .lLdB c _ _ _ => c
  | .lLdBu c _ _ _ => c
  | .lLdH c _ _ _ => c
  | .lLdHu c _ _ _ => c
  | .lLdW c _ _ _ => c
  | .lLdWu c _ _ _ => c
  | .lLdD c _ _ _ => c
  | .rldQ c _ _ _ => c
  | .lCp c _ _ _ _ => c
  | .lCp2d c _ _ _ _ => c
  | .lCpPb c _ => c
  | .cpOvl c _ _ _ _ _ _ _ => c
  | .lColl c _ _ _ _ => c
  | .lPbInv c _ _ => c
  | .lAdd c _ _ _ _ => c
  | .lSub c _ _ _ _ => c
  | .lMul c _ _ _ _ => c
  | .lAddi c _ _ _ => c
  | .lSlli c _ _ _ => c
  | .lSrli c _ _ _ => c
  | .laCmp c _ _ _ => c
  | .lCueNop c => c
  | .lBCond c _ _ _ _ => c
  | .lLoop c _ _ => c
  | .lJoin c => c
  | .stq c _ _ _ => c
  | .stqWb c _ _ _ => c
  | .stqS c _ _ _ => c
  | .stqX c _ _ _ => c
  | .sStB c _ _ _ => c
  | .sStH c _ _ _ => c
  | .sStW c _ _ _ => c
  | .sStD c _ _ _ => c
  | .rstQ c _ _ _ _ => c
  | .ramo c _ _ _ _ _ => c
  | .sCp c _ _ _ _ => c
  | .sCp2d c _ _ _ _ => c
  | .sCpPb c _ => c
  | .sColl c _ _ _ _ => c
  | .sPbInv c _ _ => c
  | .sAdd c _ _ _ _ => c
  | .sSub c _ _ _ _ => c
  | .sMul c _ _ _ _ => c
  | .sAddi c _ _ _ => c
  | .sSlli c _ _ _ => c
  | .sSrli c _ _ _ => c
  | .amo c _ _ _ _ => c
  | .amoG c _ _ _ _ => c
  | .dgrpOpen c _ _ _ => c
  | .dgrpClose c _ => c
  | .sCueNop c => c
  | .sBCond c _ _ _ _ => c
  | .sLoop c _ _ => c
  | .sJoin c => c
  | .vadd c _ _ _ _ _ => c
  | .vsub c _ _ _ _ _ => c
  | .vmul c _ _ _ _ _ => c
  | .vfma c _ _ _ _ _ => c
  | .vmin c _ _ _ _ _ => c
  | .vmax c _ _ _ _ _ => c
  | .vabs c _ _ _ _ => c
  | .vneg c _ _ _ _ => c
  | .vand c _ _ _ _ _ => c
  | .vor c _ _ _ _ _ => c
  | .vxor c _ _ _ _ _ => c
  | .vnot c _ _ _ _ => c
  | .vshl c _ _ _ _ _ => c
  | .vshr c _ _ _ _ _ => c
  | .vsra c _ _ _ _ _ => c
  | .vcmpEq c _ _ _ _ _ => c
  | .vcmpNe c _ _ _ _ _ => c
  | .vcmpLt c _ _ _ _ _ => c
  | .vcmpLe c _ _ _ _ _ => c
  | .vsel c _ _ _ _ _ => c
  | .vmov c _ _ _ _ => c
  | .vsplat c _ _ _ _ _ => c
  | .vfmaQs c _ _ _ _ _ => c
  | .vcvt c _ _ _ _ _ _ => c
  | .vquant c _ _ _ _ _ => c
  | .vdequant c _ _ _ _ _ => c
  | .vredAdd c _ _ _ _ => c
  | .vredMax c _ _ _ _ => c
  | .vredMin c _ _ _ _ => c
  | .vperm c _ _ _ _ _ => c
  | .vrot c _ _ _ _ _ => c
  | .vbcast c _ _ _ _ _ => c
  | .vpart c _ _ _ _ => c
  | .vcount c _ _ _ => c
  | .vcompact c _ _ _ _ _ => c
  | .vexpand c _ _ _ _ _ => c
  | .vexp2 c _ _ _ => c
  | .vlog2 c _ _ _ => c
  | .vrcp c _ _ _ => c
  | .vrsqrt c _ _ _ => c
  | .vpop c _ _ _ _ => c
  | .vpush c _ _ => c
  | .vany c _ _ => c
  | .pand c _ _ _ => c
  | .por c _ _ _ => c
  | .pxor c _ _ _ => c
  | .pnot c _ _ => c
  | .cadd c _ _ _ => c
  | .csub c _ _ _ => c
  | .cmul c _ _ _ => c
  | .caddi c _ _ _ => c
  | .cslli c _ _ _ => c
  | .csrli c _ _ _ => c
  | .cli c _ _ => c
  | .cBCond c _ _ _ _ => c
  | .cLoop c _ _ => c
  | .cJoin c => c
  | .mlease c => c
  | .mrel c => c
  | .mma c _ _ _ _ _ _ _ => c
  | .mmaV c _ _ _ _ _ _ _ => c
  | .mzero c _ => c
  | .macc c _ _ _ => c
  | .mdrain c _ _ _ _ _ => c
  | .mload c _ _ _ _ => c
  | .mpatch c _ _ _ _ _ => c
  | .mpeek c _ _ _ _ _ => c
  | .mstat c _ => c
  | .lCueTest _ => 2
  | .sCueTest _ => 8
  | _ => 0

/-- The cluster whose map an instruction belongs to (08 R209); none for an event. -/
def Instr.cluster : Instr → Option Cl
  | .add _ _ _ => some .K
  | .sub _ _ _ => some .K
  | .and _ _ _ => some .K
  | .or _ _ _ => some .K
  | .xor _ _ _ => some .K
  | .sll _ _ _ => some .K
  | .srl _ _ _ => some .K
  | .sra _ _ _ => some .K
  | .slt _ _ _ => some .K
  | .sltu _ _ _ => some .K
  | .min _ _ _ => some .K
  | .max _ _ _ => some .K
  | .minu _ _ _ => some .K
  | .maxu _ _ _ => some .K
  | .mul _ _ _ => some .K
  | .mulh _ _ _ => some .K
  | .mulhu _ _ _ => some .K
  | .div _ _ _ => some .K
  | .divu _ _ _ => some .K
  | .rem _ _ _ => some .K
  | .remu _ _ _ => some .K
  | .clz _ _ => some .K
  | .addi _ _ _ => some .K
  | .andi _ _ _ => some .K
  | .ori _ _ _ => some .K
  | .xori _ _ _ => some .K
  | .slli _ _ _ => some .K
  | .srli _ _ _ => some .K
  | .srai _ _ _ => some .K
  | .slti _ _ _ => some .K
  | .sltiu _ _ _ => some .K
  | .lui _ _ => some .K
  | .lla _ _ => some .K
  | .lif _ _ => some .K
  | .lit _ _ _ _ => some .K
  | .kld _ _ _ => some .K
  | .fadd _ _ _ => some .K
  | .fsub _ _ _ => some .K
  | .fmul _ _ _ => some .K
  | .ffma _ _ _ => some .K
  | .fmin _ _ _ => some .K
  | .fmax _ _ _ => some .K
  | .fcmp _ _ _ _ => some .K
  | .fcvt _ _ _ => some .K
  | .ldB _ _ _ => some .K
  | .ldBu _ _ _ => some .K
  | .ldH _ _ _ => some .K
  | .ldHu _ _ _ => some .K
  | .ldW _ _ _ => some .K
  | .ldWu _ _ _ => some .K
  | .ldD _ _ _ => some .K
  | .stB _ _ _ => some .K
  | .stH _ _ _ => some .K
  | .stW _ _ _ => some .K
  | .stD _ _ _ => some .K
  | .ldAcq _ _ _ _ => some .K
  | .stRel _ _ _ _ => some .K
  | .bCond _ _ _ _ => some .K
  | .brBq _ _ _ => some .K
  | .jal _ _ => some .K
  | .jalr _ _ _ => some .K
  | .ovlCall _ _ _ => some .K
  | .ovlRet _ => some .K
  | .loop _ _ => some .K
  | .loopImm _ _ _ => some .K
  | .fork _ _ _ => some .K
  | .join => some .K
  | .qpush _ _ => some .K
  | .qpop _ _ => some .K
  | .spawn _ _ => some .K
  | .spawnG _ _ => some .K
  | .kill _ => some .K
  | .scopeWait _ _ => some .K
  | .weirJoin _ _ => some .K
  | .weirArrive _ _ _ => some .K
  | .weirDrop _ _ _ => some .K
  | .weirWait _ _ _ => some .K
  | .yield => some .K
  | .halt => some .K
  | .trap _ => some .K
  | .sret => some .K
  | .csrr _ _ => some .K
  | .csrw _ _ _ => some .K
  | .csrs _ _ _ => some .K
  | .csrc _ _ _ => some .K
  | .fenceAcq _ => some .K
  | .fenceRel _ => some .K
  | .fenceAr _ => some .K
  | .fenceSc _ => some .K
  | .genFence => some .K
  | .tick _ => some .K
  | .tickWait _ => some .K
  | .treeOpen _ _ => some .K
  | .treeSeal _ => some .K
  | .treeNote _ _ => some .K
  | .refExec _ _ _ => some .K
  | .treeBisect _ _ _ => some .K
  | .ldq _ _ _ _ => some .L
  | .ldqWb _ _ _ _ => some .L
  | .ldqS _ _ _ _ => some .L
  | .ldqG _ _ _ _ => some .L
  | .lLdB _ _ _ _ => some .L
  | .lLdBu _ _ _ _ => some .L
  | .lLdH _ _ _ _ => some .L
  | .lLdHu _ _ _ _ => some .L
  | .lLdW _ _ _ _ => some .L
  | .lLdWu _ _ _ _ => some .L
  | .lLdD _ _ _ _ => some .L
  | .rldQ _ _ _ _ => some .L
  | .lCp _ _ _ _ _ => some .L
  | .lCp2d _ _ _ _ _ => some .L
  | .lCpPb _ _ => some .L
  | .cpOvl _ _ _ _ _ _ _ _ => some .L
  | .lColl _ _ _ _ _ => some .L
  | .lPbInv _ _ _ => some .L
  | .lAdd _ _ _ _ _ => some .L
  | .lSub _ _ _ _ _ => some .L
  | .lMul _ _ _ _ _ => some .L
  | .lAddi _ _ _ _ => some .L
  | .lSlli _ _ _ _ => some .L
  | .lSrli _ _ _ _ => some .L
  | .laCmp _ _ _ _ => some .L
  | .lCueTest _ => some .L
  | .lCueNop _ => some .L
  | .lBCond _ _ _ _ _ => some .L
  | .lLoop _ _ _ => some .L
  | .lJoin _ => some .L
  | .stq _ _ _ _ => some .S
  | .stqWb _ _ _ _ => some .S
  | .stqS _ _ _ _ => some .S
  | .stqX _ _ _ _ => some .S
  | .sStB _ _ _ _ => some .S
  | .sStH _ _ _ _ => some .S
  | .sStW _ _ _ _ => some .S
  | .sStD _ _ _ _ => some .S
  | .rstQ _ _ _ _ _ => some .S
  | .ramo _ _ _ _ _ _ => some .S
  | .sCp _ _ _ _ _ => some .S
  | .sCp2d _ _ _ _ _ => some .S
  | .sCpPb _ _ => some .S
  | .sColl _ _ _ _ _ => some .S
  | .sPbInv _ _ _ => some .S
  | .sAdd _ _ _ _ _ => some .S
  | .sSub _ _ _ _ _ => some .S
  | .sMul _ _ _ _ _ => some .S
  | .sAddi _ _ _ _ => some .S
  | .sSlli _ _ _ _ => some .S
  | .sSrli _ _ _ _ => some .S
  | .amo _ _ _ _ _ => some .S
  | .amoG _ _ _ _ _ => some .S
  | .dgrpOpen _ _ _ _ => some .S
  | .dgrpClose _ _ => some .S
  | .sCueTest _ => some .S
  | .sCueNop _ => some .S
  | .sBCond _ _ _ _ _ => some .S
  | .sLoop _ _ _ => some .S
  | .sJoin _ => some .S
  | .vadd _ _ _ _ _ _ => some .C
  | .vsub _ _ _ _ _ _ => some .C
  | .vmul _ _ _ _ _ _ => some .C
  | .vfma _ _ _ _ _ _ => some .C
  | .vmin _ _ _ _ _ _ => some .C
  | .vmax _ _ _ _ _ _ => some .C
  | .vabs _ _ _ _ _ => some .C
  | .vneg _ _ _ _ _ => some .C
  | .vand _ _ _ _ _ _ => some .C
  | .vor _ _ _ _ _ _ => some .C
  | .vxor _ _ _ _ _ _ => some .C
  | .vnot _ _ _ _ _ => some .C
  | .vshl _ _ _ _ _ _ => some .C
  | .vshr _ _ _ _ _ _ => some .C
  | .vsra _ _ _ _ _ _ => some .C
  | .vcmpEq _ _ _ _ _ _ => some .C
  | .vcmpNe _ _ _ _ _ _ => some .C
  | .vcmpLt _ _ _ _ _ _ => some .C
  | .vcmpLe _ _ _ _ _ _ => some .C
  | .vsel _ _ _ _ _ _ => some .C
  | .vmov _ _ _ _ _ => some .C
  | .vsplat _ _ _ _ _ _ => some .C
  | .vfmaQs _ _ _ _ _ _ => some .C
  | .vcvt _ _ _ _ _ _ _ => some .C
  | .vquant _ _ _ _ _ _ => some .C
  | .vdequant _ _ _ _ _ _ => some .C
  | .vredAdd _ _ _ _ _ => some .C
  | .vredMax _ _ _ _ _ => some .C
  | .vredMin _ _ _ _ _ => some .C
  | .vperm _ _ _ _ _ _ => some .C
  | .vrot _ _ _ _ _ _ => some .C
  | .vbcast _ _ _ _ _ _ => some .C
  | .vpart _ _ _ _ _ => some .C
  | .vcount _ _ _ _ => some .C
  | .vcompact _ _ _ _ _ _ => some .C
  | .vexpand _ _ _ _ _ _ => some .C
  | .vexp2 _ _ _ _ => some .C
  | .vlog2 _ _ _ _ => some .C
  | .vrcp _ _ _ _ => some .C
  | .vrsqrt _ _ _ _ => some .C
  | .vpop _ _ _ _ _ => some .C
  | .vpush _ _ _ => some .C
  | .vany _ _ _ => some .C
  | .pand _ _ _ _ => some .C
  | .por _ _ _ _ => some .C
  | .pxor _ _ _ _ => some .C
  | .pnot _ _ _ => some .C
  | .cadd _ _ _ _ => some .C
  | .csub _ _ _ _ => some .C
  | .cmul _ _ _ _ => some .C
  | .caddi _ _ _ _ => some .C
  | .cslli _ _ _ _ => some .C
  | .csrli _ _ _ _ => some .C
  | .cli _ _ _ => some .C
  | .cBCond _ _ _ _ _ => some .C
  | .cLoop _ _ _ => some .C
  | .cJoin _ => some .C
  | .mlease _ => some .C
  | .mrel _ => some .C
  | .mma _ _ _ _ _ _ _ _ => some .C
  | .mmaV _ _ _ _ _ _ _ _ => some .C
  | .mzero _ _ => some .C
  | .macc _ _ _ _ => some .C
  | .mdrain _ _ _ _ _ _ => some .C
  | .mload _ _ _ _ _ => some .C
  | .mpatch _ _ _ _ _ _ => some .C
  | .mpeek _ _ _ _ _ _ => some .C
  | .mstat _ _ => some .C
  | _ => none

/-- No cue bit is set that must be 0: bits 2 and 3 in L, bits 0 and 1 in S (06 R162). -/
def Instr.cueOk (i : Instr) : Bool :=
  match i.cluster with
  | some .L => decide (i.cue.toNat < 4)
  | some .S => decide (i.cue.toNat % 4 = 0)
  | _ => true

/-- An instruction that some lane encodes. -/
def Instr.wellFormed (i : Instr) : Bool := i.fieldsOk && i.cueOk

end Sys2Proof
end

