-- ==== Sys2Proof/Machine/CVector.lean ====
section
/-! DEFINITION. C: vector, predicate, scalar and control lanes (11 R292 to R317). -/

namespace Sys2Proof.Machine
open Sys2Proof

/-! ## Elements and governing predicates (R292) -/

/-- The width of an element of a type. -/
def elemWidth (t : Nat) : Nat := 2048 / elemCount t

def isFloat (t : Nat) : Bool := decide (t ≤ 2)

def typeFmt (t : Nat) : FFmt := if t = 0 then F32 else if t = 1 then FBf16 else F16

/-- A vector from its n elements of width w. -/
def vecOf (w n : Nat) (f : Nat → Nat) : Vec := BitVec.ofNat 2048 (joinNat w ((List.range n).map f))

/-- Element k of a type. -/
def velem (t : Nat) (v : Vec) (k : Nat) : Nat := elemAt (elemWidth t) v.toNat k

/-- A vector from its elements of a type. -/
def vecT (t : Nat) (f : Nat → Nat) : Vec := vecOf (elemWidth t) (elemCount t) f

/-- 32-bit lane j. -/
def vlane (v : Vec) (j : Nat) : Nat := elemAt 32 v.toNat j

def vecLanes (f : Nat → Nat) : Vec := vecOf 32 64 f

/-- A destination under its governing predicate: a lane whose bit is 0 keeps its old value. -/
def governed (p : W64) (new old : Vec) : Vec := vecLanes fun j => if bit p.toNat j then vlane new j else vlane old j

/-- A predicate from its bits. -/
def predOf (f : Nat → Bool) : W64 := BitVec.ofNat 64 (joinNat 1 ((List.range 64).map fun j => boolNat (f j)))

/-- A value of w bits in every element. -/
def splat (t : Nat) (x : Nat) : Vec := vecT t fun _ => x

/-- The vector register that an incomplete `mpeek` is still to write. -/
def MCmd.peeks (m : MCmd) (v : Nat) : Bool := decide (bits m.word.toNat 27 21 = 0x59) && decide (bits m.word.toNat 11 7 = v)

/-- A lane that names a register which an earlier `mpeek` is to write waits for it (R293; 12 R320). -/
def vFree (c : Core) (vs : List Nat) : Chk Unit := need (vs.all fun v => !c.cmds.any fun m => m.peeks v) .wait

/-- A C lane that names the vector registers `vs` and no queue. -/
def cLane (c : BitVec 4) (vs : List Nat) (f : Regs → Regs) (s : State) : Out :=
  issue .C c.toNat (.ok ()) [] [] (fun _ => do
    vFree s.cc vs
    pureEff (s.putRegs (f s.regs))) s

/-- vd under p := a vector computed from the registers. -/
def cVec (c : BitVec 4) (d : BitVec 5) (vs : List Nat) (p : BitVec 3) (f : Regs → Vec) (s : State) : Out :=
  cLane c (d.toNat :: vs) (fun r => r.setV d.toNat (governed (r.getP p.toNat) (f r) (r.getV d.toNat))) s

/-! ## Arithmetic (R296, R297) -/

/-- An integer operation on two elements of a type, modulo 2^w. -/
def intElem (t : Nat) (f : Int → Int → Int) (a b : Nat) : Nat :=
  let w := elemWidth t
  intBits w (f (signed w a) (signed w b))

/-- A float operation on two elements of a type, rounded once. -/
def floatElem (t : Nat) (f : FV → FV → FV) (a b : Nat) : Nat :=
  let g := typeFmt t
  g.round (f (g.decode a) (g.decode b))

/-- vd[k] := f(va[k], vb[k]) by the element's type. -/
def cBinary (c : BitVec 4) (d a b : BitVec 5) (p t : BitVec 3) (ff : FV → FV → FV) (fi : Int → Int → Int) (s : State) : Out :=
  let t := t.toNat
  cVec c d [a.toNat, b.toNat] p (fun r => vecT t fun k =>
    let x := velem t (r.getV a.toNat) k
    let y := velem t (r.getV b.toNat) k
    if isFloat t then floatElem t ff x y else intElem t fi x y) s

def execVadd (c : BitVec 4) (d a b : BitVec 5) (p t : BitVec 3) (s : State) : Out :=
  cBinary c d a b p t FV.add (fun x y => x + y) s
def execVsub (c : BitVec 4) (d a b : BitVec 5) (p t : BitVec 3) (s : State) : Out :=
  cBinary c d a b p t (fun x y => x.add y.neg) (fun x y => x - y) s
def execVmul (c : BitVec 4) (d a b : BitVec 5) (p t : BitVec 3) (s : State) : Out :=
  cBinary c d a b p t FV.mul (fun x y => x * y) s
def execVmin (c : BitVec 4) (d a b : BitVec 5) (p t : BitVec 3) (s : State) : Out := cBinary c d a b p t FV.min min s
def execVmax (c : BitVec 4) (d a b : BitVec 5) (p t : BitVec 3) (s : State) : Out := cBinary c d a b p t FV.max max s

/-- a × b + d with one rounding. -/
def fmaElem (t : Nat) (a b d : Nat) : Nat :=
  if isFloat t then
    let g := typeFmt t
    g.round ((g.decode a).fma (g.decode b) (g.decode d))
  else
    let w := elemWidth t
    intBits w (signed w a * signed w b + signed w d)

def fmaVec (t : Nat) (a b d : Vec) : Vec := vecT t fun k => fmaElem t (velem t a k) (velem t b k) (velem t d k)

def execVfma (c : BitVec 4) (d a b : BitVec 5) (p t : BitVec 3) (s : State) : Out :=
  cVec c d [a.toNat, b.toNat] p (fun r => fmaVec t.toNat (r.getV a.toNat) (r.getV b.toNat) (r.getV d.toNat)) s

/-- vd[k] := f(va[k]) by the element's type. -/
def cUnary (c : BitVec 4) (d a : BitVec 5) (p t : BitVec 3) (ff : FV → FV) (fi : Int → Int) (s : State) : Out :=
  let t := t.toNat
  cVec c d [a.toNat] p (fun r => vecT t fun k =>
    let x := velem t (r.getV a.toNat) k
    if isFloat t then floatElem t (fun u _ => ff u) x 0 else intElem t (fun u _ => fi u) x 0) s

def execVabs (c : BitVec 4) (d a : BitVec 5) (p t : BitVec 3) (s : State) : Out :=
  cUnary c d a p t FV.abs (fun x => (x.natAbs : Int)) s
def execVneg (c : BitVec 4) (d a : BitVec 5) (p t : BitVec 3) (s : State) : Out := cUnary c d a p t FV.neg (fun x => -x) s

def execVand (c : BitVec 4) (d a b : BitVec 5) (p _t : BitVec 3) (s : State) : Out :=
  cVec c d [a.toNat, b.toNat] p (fun r => r.getV a.toNat &&& r.getV b.toNat) s
def execVor (c : BitVec 4) (d a b : BitVec 5) (p _t : BitVec 3) (s : State) : Out :=
  cVec c d [a.toNat, b.toNat] p (fun r => r.getV a.toNat ||| r.getV b.toNat) s
def execVxor (c : BitVec 4) (d a b : BitVec 5) (p _t : BitVec 3) (s : State) : Out :=
  cVec c d [a.toNat, b.toNat] p (fun r => r.getV a.toNat ^^^ r.getV b.toNat) s
def execVnot (c : BitVec 4) (d a : BitVec 5) (p _t : BitVec 3) (s : State) : Out :=
  cVec c d [a.toNat] p (fun r => ~~~(r.getV a.toNat)) s

/-- A shift of element k by the low log2(w) bits of vb[k]: f takes the width, the element and the count. -/
def cShift (c : BitVec 4) (d a b : BitVec 5) (p t : BitVec 3) (f : Nat → Nat → Nat → Nat) (s : State) : Out :=
  let t := t.toNat
  let w := elemWidth t
  cVec c d [a.toNat, b.toNat] p (fun r => vecT t fun k => f w (velem t (r.getV a.toNat) k) (velem t (r.getV b.toNat) k % w)) s

def execVshl (c : BitVec 4) (d a b : BitVec 5) (p t : BitVec 3) (s : State) : Out :=
  cShift c d a b p t (fun w x n => x * 2 ^ n % 2 ^ w) s
def execVshr (c : BitVec 4) (d a b : BitVec 5) (p t : BitVec 3) (s : State) : Out :=
  cShift c d a b p t (fun _ x n => x / 2 ^ n) s
def execVsra (c : BitVec 4) (d a b : BitVec 5) (p t : BitVec 3) (s : State) : Out :=
  cShift c d a b p t (fun w x n => intBits w (signed w x / (2 ^ n : Nat))) s

/-! ## Compare, select and move (R298, R299) -/

/-- pd[j] := the condition on lane j, and 0 where lane j is not governed. -/
def cCompare (c : BitVec 4) (d a b : BitVec 5) (p t : BitVec 3) (ff : FV → FV → Bool) (fi : Int → Int → Bool) (s : State) : Out :=
  cLane c [a.toNat, b.toNat] (fun r => r.setP d.toNat (predOf fun j =>
    let x := vlane (r.getV a.toNat) j
    let y := vlane (r.getV b.toNat) j
    bit (r.getP p.toNat).toNat j && (if isFloat t.toNat then ff (f32 x) (f32 y) else fi (signed 32 x) (signed 32 y)))) s

def execVcmpEq (c : BitVec 4) (d a b : BitVec 5) (p t : BitVec 3) (s : State) : Out :=
  cCompare c d a b p t FV.eq (fun x y => decide (x = y)) s
def execVcmpNe (c : BitVec 4) (d a b : BitVec 5) (p t : BitVec 3) (s : State) : Out :=
  cCompare c d a b p t (fun x y => !x.eq y) (fun x y => decide (x ≠ y)) s
def execVcmpLt (c : BitVec 4) (d a b : BitVec 5) (p t : BitVec 3) (s : State) : Out :=
  cCompare c d a b p t FV.lt (fun x y => decide (x < y)) s
def execVcmpLe (c : BitVec 4) (d a b : BitVec 5) (p t : BitVec 3) (s : State) : Out :=
  cCompare c d a b p t FV.le (fun x y => decide (x ≤ y)) s

def execVsel (c : BitVec 4) (d a b : BitVec 5) (e _t : BitVec 3) (s : State) : Out :=
  cLane c [d.toNat, a.toNat, b.toNat] (fun r => r.setV d.toNat (governed (r.getP e.toNat) (r.getV a.toNat) (r.getV b.toNat))) s
def execVmov (c : BitVec 4) (d a : BitVec 5) (p _t : BitVec 3) (s : State) : Out := cVec c d [a.toNat] p (fun r => r.getV a.toNat) s
def execVsplat (c : BitVec 4) (d a : BitVec 5) (i : BitVec 1) (p t : BitVec 3) (s : State) : Out :=
  cVec c d [] p (fun r =>
    let x := (r.getCx a.toNat).toNat
    if i = 1 then vecLanes fun j => (x + j) % 2 ^ 32 else splat t.toNat x) s

/-! ## Queue transfers (R300 to R302) -/

/-- A popped entry as a vector: itself from a wide queue, else its low w bits in every element. -/
def queueVec (q t : Nat) (v : Vec) : Vec := if queueWide q then v else splat t v.toNat

def cPop (c : BitVec 4) (d q : BitVec 5) (vs : List Nat) (p : BitVec 3) (f : Regs → Vec → Vec) (s : State) : Out :=
  issue .C c.toNat (popOk .C q.toNat) [q.toNat] [] (fun es => do
    vFree s.cc (d.toNat :: vs)
    let r := s.regs
    pureEff (s.putRegs (r.setV d.toNat (governed (r.getP p.toNat) (f r (es.headD 0)) (r.getV d.toNat))))) s

def execVpop (c : BitVec 4) (d q : BitVec 5) (p t : BitVec 3) (s : State) : Out :=
  cPop c d q [] p (fun _ v => queueVec q.toNat t.toNat v) s
def execVfmaQs (c : BitVec 4) (d m q : BitVec 5) (p t : BitVec 3) (s : State) : Out :=
  cPop c d q [m.toNat] p (fun r v => fmaVec t.toNat (r.getV m.toNat) (queueVec q.toNat t.toNat v) (r.getV d.toNat)) s

def execVpush (c : BitVec 4) (q a : BitVec 5) (s : State) : Out :=
  let n := q.toNat
  issue .C c.toNat (pushOk .C n (queueWide n)) [] [n] (fun _ => do
    vFree s.cc [a.toNat]
    let v := s.regs.getV a.toNat
    .ok { st := s, push := [(n, if queueWide n then v else (v.setWidth 64).setWidth 2048)] }) s

def execVany (c : BitVec 4) (a : BitVec 5) (p : BitVec 3) (s : State) : Out :=
  issue .C c.toNat (.ok ()) [] [14] (fun _ =>
    .ok { st := s, push := [(14, (boolW (decide (s.regs.getP a.toNat &&& s.regs.getP p.toNat ≠ 0))).setWidth 2048)] }) s

/-! ## Conversion and quantisation (R303 to R305) -/

/-- One element from type s to type t (07 R178). -/
def convertElem (s t x : Nat) : Nat :=
  if isFloat s then
    let v := (typeFmt s).decode x
    if isFloat t then (typeFmt t).round v else intBits (elemWidth t) (v.toInt (elemWidth t))
  else
    let v := signed (elemWidth s) x
    if isFloat t then (typeFmt t).round (FV.ofInt v) else intBits (elemWidth t) (clampInt (elemWidth t) v)

/-- The whole conversion of part h; a destination element that no source feeds keeps its value. -/
def convertVec (s t h : Nat) (v old : Vec) : Vec :=
  let ns := elemCount s
  let nt := elemCount t
  vecT t fun k =>
    if nt ≤ ns then convertElem s t (velem s v (if ns = nt then k else h * nt + k))
    else if h * ns ≤ k ∧ k < h * ns + ns then convertElem s t (velem s v (k - h * ns))
    else velem t old k

def execVcvt (c : BitVec 4) (d a : BitVec 5) (x : BitVec 3) (h : BitVec 2) (p t : BitVec 3) (s : State) : Out :=
  cVec c d [a.toNat] p (fun r => convertVec x.toNat t.toNat h.toNat (r.getV a.toNat) (r.getV d.toNat)) s

/-- The block length of a geometry. -/
def blockLen (g : Nat) : Nat := 16 * 2 ^ g

/-- Bytes of a vector. -/
def vbyte (v : Vec) (i : Nat) : Nat := elemAt 8 v.toNat i
def vecBytes (f : Nat → Nat) : Vec := vecOf 8 256 f

/-- The scale byte of each block of 64 FP32 values. -/
def quantScale (sb4 : Bool) (g : Nat) (v : Vec) (b : Nat) : Nat :=
  sbScale (if sb4 then 7 else 127) ((List.range (blockLen g)).map fun i => vlane v (b * blockLen g + i))

def quantElem (sb4 : Bool) (g : Nat) (v : Vec) (k : Nat) : Nat :=
  let n := if sb4 then 4 else 8
  intBits n (sbQuant n (vlane v k) (quantScale sb4 g v (k / blockLen g)))

/-- The element bytes of part h (07 R180). -/
def quantBytes (sb4 : Bool) (g h : Nat) (v old : Vec) : Vec :=
  vecBytes fun i =>
    if sb4 then
      if 32 * h ≤ i ∧ i < 32 * h + 32 then quantElem sb4 g v (2 * (i - 32 * h)) + 16 * quantElem sb4 g v (2 * (i - 32 * h) + 1)
      else vbyte old i
    else if 64 * h ≤ i ∧ i < 64 * h + 64 then quantElem sb4 g v (i - 64 * h)
    else vbyte old i

/-- The scale bytes of part h. -/
def quantScales (sb4 : Bool) (g h : Nat) (v old : Vec) : Vec :=
  let n := 64 / blockLen g
  vecBytes fun i => if h * n ≤ i ∧ i < h * n + n then quantScale sb4 g v (i - h * n) else vbyte old i

def execVquant (c : BitVec 4) (d a : BitVec 5) (k : BitVec 1) (g : BitVec 2) (h : BitVec 3) (s : State) : Out :=
  let sb4 := decide (k = 1)
  cLane c [d.toNat, d.toNat + 1, a.toNat] (fun r =>
    let v := r.getV a.toNat
    let r1 := r.setV d.toNat (quantBytes sb4 g.toNat h.toNat v (r.getV d.toNat))
    r1.setV (d.toNat + 1) (quantScales sb4 g.toNat h.toNat v (r.getV (d.toNat + 1)))) s

/-- Element k of part h of an SB vector. -/
def dequantElem (sb4 : Bool) (g h : Nat) (v scales : Vec) (k : Nat) : Nat :=
  let q := if sb4 then signed 4 (elemAt 4 v.toNat (64 * h + k)) else signed 8 (vbyte v (64 * h + k))
  r32 (sbValue q (vbyte scales (h * (64 / blockLen g) + k / blockLen g)))

def execVdequant (c : BitVec 4) (d a : BitVec 5) (k : BitVec 1) (g : BitVec 2) (h : BitVec 3) (s : State) : Out :=
  cLane c [d.toNat, a.toNat, a.toNat + 1] (fun r => r.setV d.toNat (vecLanes fun j =>
    dequantElem (decide (k = 1)) g.toNat h.toNat (r.getV a.toNat) (r.getV (a.toNat + 1)) j)) s

/-! ## Reductions (R306) -/

/-- The governed elements of a type, ascending. -/
def governedElems (t : Nat) (p : W64) (v : Vec) : List Nat :=
  (List.range (elemCount t)).filterMap fun k => if bit p.toNat (k * elemWidth t / 32) then some (velem t v k) else none

def reduceStep (t : Nat) (ff : FV → FV → FV) (fi : Int → Int → Int) (acc x : Nat) : Nat :=
  if isFloat t then r32 (ff (f32 acc) ((typeFmt t).decode x)) else intBits 32 (fi (signed 32 acc) (signed (elemWidth t) x))

def cReduce (c : BitVec 4) (d a : BitVec 5) (p t : BitVec 3) (ff : FV → FV → FV) (fi : Int → Int → Int) (s : State) : Out :=
  cLane c [d.toNat, a.toNat] (fun r =>
    let old := r.getV d.toNat
    let v := (governedElems t.toNat (r.getP p.toNat) (r.getV a.toNat)).foldl (reduceStep t.toNat ff fi) (vlane old 0)
    r.setV d.toNat (vecLanes fun j => if j = 0 then v else vlane old j)) s

def execVredAdd (c : BitVec 4) (d a : BitVec 5) (p t : BitVec 3) (s : State) : Out := cReduce c d a p t FV.add (fun x y => x + y) s
def execVredMax (c : BitVec 4) (d a : BitVec 5) (p t : BitVec 3) (s : State) : Out := cReduce c d a p t FV.max max s
def execVredMin (c : BitVec 4) (d a : BitVec 5) (p t : BitVec 3) (s : State) : Out := cReduce c d a p t FV.min min s

/-! ## Permutes (R307) -/

/-- vd[k] := va[f k]. -/
def cPermute (c : BitVec 4) (d a : BitVec 5) (vs : List Nat) (p t : BitVec 3) (f : Regs → Nat → Nat) (s : State) : Out :=
  cVec c d (a.toNat :: vs) p (fun r => vecT t.toNat fun k => velem t.toNat (r.getV a.toNat) (f r k)) s

def execVperm (c : BitVec 4) (d a b : BitVec 5) (p t : BitVec 3) (s : State) : Out :=
  cPermute c d a [b.toNat] p t (fun r k => velem t.toNat (r.getV b.toNat) k % elemCount t.toNat) s
def execVrot (c : BitVec 4) (d a b : BitVec 5) (p t : BitVec 3) (s : State) : Out :=
  let n := elemCount t.toNat
  cPermute c d a [] p t (fun r k => (k + n - (r.getCx b.toNat).toNat % n) % n) s
def execVbcast (c : BitVec 4) (d a b : BitVec 5) (p t : BitVec 3) (s : State) : Out :=
  cPermute c d a [] p t (fun r _ => (r.getCx b.toNat).toNat % elemCount t.toNat) s

/-! ## The partition family (R308) -/

/-- The lanes that a predicate takes, ascending. -/
def lanesOf (p : W64) : List Nat := setBitsOf 64 0 p.toNat

/-- The listed lanes of a vector from lane 0 on, then a filling value. -/
def packLanes (v : Vec) (js : List Nat) (fill : Nat) : Vec := vecLanes fun i => ((js.map (vlane v))[i]?).getD fill

def hole32 : Nat := 0x80000000

def execVpart (c : BitVec 4) (d a b : BitVec 5) (p : BitVec 3) (s : State) : Out :=
  cLane c [d.toNat, d.toNat + 1, a.toNat] (fun r =>
    let v := r.getV a.toNat
    let g := r.getP p.toNat
    let b := r.getP b.toNat
    (r.setV d.toNat (packLanes v (lanesOf (b &&& g)) hole32)).setV (d.toNat + 1) (packLanes v (lanesOf (~~~b &&& g)) hole32)) s
def execVcount (c : BitVec 4) (d b : BitVec 5) (p : BitVec 3) (s : State) : Out :=
  cLane c [d.toNat] (fun r => r.setV d.toNat (splat 3 (lanesOf (r.getP b.toNat &&& r.getP p.toNat)).length)) s
def execVcompact (c : BitVec 4) (d a b : BitVec 5) (p _t : BitVec 3) (s : State) : Out :=
  cLane c [d.toNat, a.toNat] (fun r => r.setV d.toNat (packLanes (r.getV a.toNat) (lanesOf (r.getP b.toNat &&& r.getP p.toNat)) 0)) s

/-- The i-th taken lane receives lane i. -/
def expandLanes (v old : Vec) (js : List Nat) : Vec :=
  vecLanes fun j => match js.findIdx? (fun x => x = j) with
    | some i => vlane v i
    | none => vlane old j

def execVexpand (c : BitVec 4) (d a b : BitVec 5) (p _t : BitVec 3) (s : State) : Out :=
  cLane c [d.toNat, a.toNat] (fun r => r.setV d.toNat (expandLanes (r.getV a.toNat) (r.getV d.toNat) (lanesOf (r.getP b.toNat &&& r.getP p.toNat)))) s

/-! ## Transcendentals (R310 to R314) -/

def cTrans (c : BitVec 4) (d a : BitVec 5) (p : BitVec 3) (f : Nat → Nat) (s : State) : Out :=
  cVec c d [a.toNat] p (fun r => vecLanes fun j => f (vlane (r.getV a.toNat) j)) s

def execVexp2 (c : BitVec 4) (d a : BitVec 5) (p : BitVec 3) (s : State) : Out := cTrans c d a p exp2 s
def execVlog2 (c : BitVec 4) (d a : BitVec 5) (p : BitVec 3) (s : State) : Out := cTrans c d a p log2 s
def execVrcp (c : BitVec 4) (d a : BitVec 5) (p : BitVec 3) (s : State) : Out := cTrans c d a p rcp s
def execVrsqrt (c : BitVec 4) (d a : BitVec 5) (p : BitVec 3) (s : State) : Out := cTrans c d a p rsqrt s

/-! ## Predicates (R315) -/

def cPred (c : BitVec 4) (d a b : BitVec 5) (f : W64 → W64 → W64) (s : State) : Out :=
  cLane c [] (fun r => r.setP d.toNat (f (r.getP a.toNat) (r.getP b.toNat))) s

def execPand (c : BitVec 4) (d a b : BitVec 5) (s : State) : Out := cPred c d a b (fun x y => x &&& y) s
def execPor (c : BitVec 4) (d a b : BitVec 5) (s : State) : Out := cPred c d a b (fun x y => x ||| y) s
def execPxor (c : BitVec 4) (d a b : BitVec 5) (s : State) : Out := cPred c d a b (fun x y => x ^^^ y) s
def execPnot (c : BitVec 4) (d a : BitVec 5) (s : State) : Out := cPred c d a a (fun x _ => ~~~x) s

/-! ## Scalar lanes (R316) -/

/-- The checks of a cx source and of a cx destination: registers 0 to 15, else a queue. -/
def cxSrcOk (f : Nat) : Chk Unit := if f < 16 then .ok () else popWidth .C (f - 16) false
def cxDstOk (f : Nat) : Chk Unit := if f < 16 then .ok () else pushOk .C (f - 16) false

/-- The queues the sources pop, each once, lowest first. -/
def cxPops (fs : List Nat) : List Nat := (fs.filterMap fun f => if f < 16 then none else some (f - 16)).foldl setIns []

/-- A source's value: its register, or the entry its queue gave. -/
def cxSrc (s : State) (fs : List Nat) (vs : List Vec) (f : Nat) : W64 :=
  if f < 16 then s.regs.getCx f else (vs.getD ((cxPops fs).findIdx fun q => q = f - 16) 0).setWidth 64

def cxPush (d : Nat) (v : W64) : List (Nat × Vec) := if d < 16 then [] else [(d - 16, v.setWidth 2048)]
def State.cxDst (s : State) (d : Nat) (v : W64) : State := if d < 16 then s.putRegs (s.regs.setCx d v) else s

/-- d := f(a, b) over cx registers and 64-bit queues. DESIGN CHOICE (log 107). -/
def cxArith (c : BitVec 4) (d a b : Nat) (f : W64 → W64 → W64) (s : State) : Out :=
  let fs := [a, b]
  issue .C c.toNat (do cxDstOk d; cxSrcOk a; cxSrcOk b) (cxPops fs) (if d < 16 then [] else [d - 16]) (fun vs =>
    let v := f (cxSrc s fs vs a) (cxSrc s fs vs b)
    .ok { st := s.cxDst d v, push := cxPush d v }) s

def execCadd (c : BitVec 4) (d a b : BitVec 5) (s : State) : Out := cxArith c d.toNat a.toNat b.toNat (fun x y => x + y) s
def execCsub (c : BitVec 4) (d a b : BitVec 5) (s : State) : Out := cxArith c d.toNat a.toNat b.toNat (fun x y => x - y) s
def execCmul (c : BitVec 4) (d a b : BitVec 5) (s : State) : Out := cxArith c d.toNat a.toNat b.toNat (fun x y => x * y) s
def execCaddi (c : BitVec 4) (d a : BitVec 5) (i : BitVec 11) (s : State) : Out :=
  cxArith c d.toNat a.toNat a.toNat (fun x _ => x + trunc64 i.toInt) s
def execCslli (c : BitVec 4) (d a : BitVec 5) (i : BitVec 6) (s : State) : Out :=
  cxArith c d.toNat a.toNat a.toNat (fun x _ => sllOp x i.toNat) s
def execCsrli (c : BitVec 4) (d a : BitVec 5) (i : BitVec 6) (s : State) : Out :=
  cxArith c d.toNat a.toNat a.toNat (fun x _ => srlOp x i.toNat) s
def execCli (c : BitVec 4) (d : BitVec 5) (i : BitVec 11) (s : State) : Out :=
  cxArith c d.toNat 0 0 (fun _ _ => trunc64 i.toInt) s

/-! ## Control of an apart stream (R317) -/

def execCBCond (c : BitVec 4) (k : BitVec 3) (o : BitVec 9) (a : BitVec 5) (b : BitVec 4) (s : State) : Out :=
  lsBranch .C c k o.toInt (s.regs.getCx a.toNat) (s.regs.getCx b.toNat) s
def execCLoop (c : BitVec 4) (a : BitVec 5) (e : BitVec 11) (s : State) : Out := lsLoop .C c e.toNat (s.regs.getCx a.toNat) s
def execCJoin (c : BitVec 4) (s : State) : Out := lsJoin .C c s

end Sys2Proof.Machine
end

