-- ==== Sys2Proof/Machine/Mmu.lean ====
section
/-! DEFINITION. The invalidation port, page migration between host and device, and tag sweeps (01 R31, R32, R40, R41; 02 R63, R64;
14 R385; 17 R437). -/

namespace Sys2Proof.Machine
open Sys2Proof

/-! ## Invalidation requests (01 R31, R32) -/

def execXinvPage (ctx : W16) (vpn : BitVec 44) (s : State) : Out := .next (s.xinv { kind := 0, ctx := ctx, vpn := vpn })
def execXinvContext (ctx : W16) (s : State) : Out := .next (s.xinv { kind := 1, ctx := ctx, vpn := 0 })
def execXinvAll (s : State) : Out := .next (s.xinv { kind := 2, ctx := 0, vpn := 0 })
def execXinvKey (key : BitVec 10) (s : State) : Out := .next (s.xinv { kind := 3, ctx := 0, vpn := key.setWidth 44 })

/-- XINV_ACCEPT: a held write enters the FIFO once there is room. -/
def execXinvAccept (s : State) : Out :=
  .next (match s.sys.xinvHeld with
    | [] => s
    | r :: rest =>
      if s.sys.xinvFifo.length < 8 then
        s.withSys { s.sys with xinvFifo := s.sys.xinvFifo ++ [r], xinvHeld := rest, xinvIssued := s.sys.xinvIssued + 1 }
      else s)

/-- The address that a request of kind page names. -/
def Xinv.va (r : Xinv) : Nat := r.vpn.toNat * 4096

/-- The cached pages that a request removes. -/
def Xinv.removes (r : Xinv) (t : Tlb) : Bool :=
  match r.kind with
  | 0 => decide (t.ctx = r.ctx) && decide (t.base ≤ r.va) && decide (r.va < t.base + t.size)
  | 1 => decide (t.ctx = r.ctx)
  | 2 => true
  | 3 => decide (leafKey t.leaf.toNat = r.vpn.toNat % 1024)
  | _ => false

/-- The cached table entries, roots and descriptors that could lead to them: for a key, any. -/
def Xinv.removesWord (r : Xinv) (w : Walked) : Bool :=
  match r.kind with
  | 0 => decide (w.ctx = r.ctx) && decide (w.base ≤ r.va) && decide (r.va < w.base + w.size)
  | 1 => decide (w.ctx = r.ctx)
  | 2 => true
  | 3 => true
  | _ => false

/-- The pages of a request of kind page: those that the entries it removes have, in any cache, and the one mapped now; of each its base, its
size, and where it lies. -/
def Xinv.pages (s : State) (r : Xinv) : List (Nat × Nat × Nat) :=
  let cached := (s.sys.tlb1 ++ s.sys.tlb2).flatMap fun (c : Nat × List Tlb) => c.2.filter r.removes
  (match walk s r.ctx r.va with
    | .ok p => [(p.base, pageSize p.leaf, pageOffset p.leaf + regionBase (leafMt p.leaf))]
    | .error _ => [(r.va, 4096, 0)])
    ++ cached.map fun t => (t.base, t.size, pageOffset t.leaf.toNat + regionBase (leafMt t.leaf.toNat))

def overlap (a n b m : Nat) : Bool := decide (a < b + m) && decide (b < a + n)

/-- An access of a context to n bytes at an address, under a key, that went through an entry the request removes. -/
def Xinv.covers (s : State) (r : Xinv) (ctx : W16) (va n key : Nat) : Bool :=
  match r.kind with
  | 0 => decide (ctx = r.ctx) && (r.pages s).any fun p => overlap va n p.1 p.2.1
  | 1 => decide (ctx = r.ctx)
  | 2 => true
  | 3 => decide (key = r.vpn.toNat % 1024)
  | _ => false

def Job.usesEntry (s : State) (r : Xinv) (j : Job) : Bool :=
  (j.reads ++ j.writes).any fun g => g.runs.any fun x => r.covers s j.ctx x.va x.len x.key

def Update.usesEntry (s : State) (r : Xinv) (u : Update) : Bool := r.covers s u.ctx u.va.toNat 8 u.key

def RemoteOp.usesEntry (s : State) (r : Xinv) (o : RemoteOp) : Bool := r.covers s o.ctx o.va.toNat o.len o.key

/-- A referee's request that has not been answered (15 R410). -/
def RefReq.usesEntry (s : State) (r : Xinv) (ctx : W16) (q : RefReq) : Bool := q.data.isNone && r.covers s ctx q.va q.len q.key

/-- An operand translated at a command's issue. -/
def Rows.usesEntry (s : State) (r : Xinv) (ctx : W16) (x : Rows) : Bool :=
  match r.kind with
  | 0 => decide (ctx = r.ctx) && (x.pas ++ x.scales).any fun l => l.any fun pa => (r.pages s).any fun p => overlap pa 64 p.2.2 p.2.1
  | 1 => decide (ctx = r.ctx)
  | 2 => true
  | 3 => decide (r.vpn.toNat % 1024 = 0)
  | _ => false

def MCmd.usesEntry (s : State) (r : Xinv) (ctx : W16) (m : MCmd) : Bool := m.a.any (Rows.usesEntry s r ctx) || m.b.any (Rows.usesEntry s r ctx)

/-- An access through a removed entry has not been performed. -/
def Xinv.waits (s : State) (r : Xinv) : Bool :=
  s.bays.any (fun (b : Nat × Bay) => b.2.jobs.any (Job.usesEntry s r))
    || s.cores.any (fun (c : Nat × Core) =>
      c.2.cmds.any (MCmd.usesEntry s r c.2.ctx) || c.2.mem.remote.any (RemoteOp.usesEntry s r)
        || (c.2.mem.transit ++ c.2.mem.refused).any (Update.usesEntry s r) || c.2.mem.refReqs.any (RefReq.usesEntry s r c.2.ctx))
    || s.units.any (fun (u : Nat × List Group) => u.2.any fun g => g.held.any (Update.usesEntry s r))

/-- No translation cache holds an entry that a request removes. -/
def Sys.invalidate (y : Sys) (r : Xinv) : Sys :=
  { y with tlb1 := y.tlb1.map fun c => (c.1, c.2.filter fun t => !r.removes t),
           tlb2 := y.tlb2.map fun c => (c.1, c.2.filter fun t => !r.removes t),
           walked := y.walked.map fun c => (c.1, c.2.filter fun w => !r.removesWord w) }

/-- XINV_COMPLETE: the oldest request, once what went through the entries it removes has been performed. -/
def execXinvComplete (s : State) : Out :=
  .next (match s.sys.xinvFifo with
    | [] => s
    | r :: rest =>
      if r.waits s then s
      else s.withSys { s.sys.invalidate r with xinvFifo := rest, xinvDone := s.sys.xinvDone + 1 })

/-- The management complex loads a key slot anew or unloads it, once an invalidation by its key has left no cached page and no access under
it (01 R24). DESIGN CHOICE (log 9). -/
def State.setKeySlot (s : State) (key : BitVec 10) (load : Bool) : State :=
  let r : Xinv := { kind := 3, ctx := 0, vpn := key.setWidth 44 }
  let cached := (s.sys.tlb1 ++ s.sys.tlb2).any fun (c : Nat × List Tlb) => c.2.any r.removes
  if key = 0 || cached || r.waits s then s
  else if load then (s.withMem (s.mem.loadKeys [key.toNat])).withSys { s.sys with keys := setIns s.sys.keys key.toNat }
  else s.withSys { s.sys with keys := s.sys.keys.filter (· ≠ key.toNat) }

/-! ## The owner bit (01 R20, R40) -/

/-- Where the leaf of an address lies, and the leaf. -/
def leafFrom (s : State) (va : Nat) : List (Nat × Nat) → Nat → Option (Nat × Nat)
  | [], _ => none
  | (level, sh) :: rest, table =>
    let a := table + 8 * (va / 2 ^ sh % 512)
    let e := s.mem.read64 a
    if !bit e 0 then none
    else if bit e 1 then some (a, e)
    else if level = 1 || entryBad s e then none
    else leafFrom s va rest (bits e 51 12 * 4096)

def leafSite (s : State) (ctx : W16) (va : Nat) : Option (Nat × Nat) :=
  let r := s.mem.read64 (ctxDescriptor s ctx + 2048 + 8 * bits va 55 48)
  if bit r 0 && !entryBad s r then leafFrom s va [(4, 39), (3, 30), (2, 21), (1, 12)] (bits r 51 12 * 4096) else none

/-- How many replicas a page has at its level (R19). -/
def replicaCount (sz : Nat) : Nat := 2 ^ (pageLog sz - (3 + 9 * pageLevel sz))

/-- The addresses of every replica of a leaf. -/
def replicas (a e : Nat) : List Nat :=
  let n := replicaCount (leafSz e)
  (List.range n).map fun i => a - 8 * (a / 8 % n) + 8 * i

/-- O is written in every replica of a page's entry. -/
def State.setOwner (s : State) (ctx : W16) (va o : Nat) : State :=
  match leafSite s ctx va with
  | none => s
  | some (a, e) =>
    s.withMem ((replicas a e).foldl (fun m p => m.rawWrite 0 p (bytesOf 8 (setBits (m.read64 p) 6 6 o))) s.mem)

/-! ## Migration (01 R40, R41) -/

def Flip.vpn (f : Flip) : BitVec 44 := BitVec.ofNat 44 (f.base.toNat / 4096)

def State.dropFlip (s : State) (f : Flip) : State := s.withSys { s.sys with flips := s.sys.flips.erase f }

/-- A cluster that waits for this page. -/
def Cluster.waitsFor (x : Cluster) (f : Flip) : Option Nat :=
  x.stall.bind fun w => if w.1 = f.ctx && decide (w.2.1 = f.base.toNat) then some w.2.2 else none

def State.eachCluster (s : State) (g : State → Nat → Cl → State) : State :=
  s.cores.foldl (fun s c => allCl.foldl (fun s cl => g s c.1 cl) s) s

/-- The writes held back are tried again, and so are the replies that wait for them. -/
def State.retryHeld (s : State) : State :=
  let s1 := s.retryWrites
  s1.fab.endpoints.foldl (fun s e => answerDestroyed s e.1) s1

/-- The flip is over: the clusters that wait for the page try again, and so do the writes held back. -/
def State.endFlip (s : State) (f : Flip) : State :=
  ((s.dropFlip f).eachCluster fun s n cl =>
    if ((s.cluster n cl).waitsFor f).isSome then s.putCluster n cl { s.cluster n cl with stall := none } else s).retryHeld

def refusedTrap (va : Nat) : Trap := { cause := .migration, info := vaInfo 0x31 va }

/-- The address at which an access meets the page of a flip. -/
def Halt.meets (h : Halt) (f : Flip) : Option Nat :=
  match h with
  | .stall ctx va base _ => if ctx = f.ctx && decide (base = f.base.toNat) then some va else none
  | _ => none

/-- A command whose acceptance waits for a refused page ends with MIGRATION. -/
def State.refuseHead (s : State) (f : Flip) (b k : Nat) : State :=
  match takenFrom s b (sourceOf b k) with
  | none => s
  | some t =>
    match t.cmd.taken with
    | none => s
    | some (seq, _) =>
      let met : Chk Unit := do
        let (card, s1) ← takeCard s b t
        let _ ← acceptStep s1 b t seq card
        .ok ()
      match met with
      | .error h =>
        (match h.meets f with
          | some va => (s.pop b k t.source).refuse b t seq (refusedTrap va)
          | none => s)
      | .ok _ => s

def State.refuseHeads (s : State) (f : Flip) : State :=
  s.bays.foldl (fun s b => (readySources s b.1).foldl (fun s k => s.refuseHead f b.1 k) s) s

/-- A task whose overlay or bank image lies on the page ends as it starts; a handler whose image does cannot be entered. -/
def State.refuseLoads (s : State) (f : Flip) (n : Nat) : State :=
  let c := s.core n
  match c.sys.task, c.sys.prefetch with
  | none, t :: _ =>
    if t.area.isSome then s
    else
      let (fr, load) := startFrame c t
      let loaded := do
        let s1 ← s.startOverlay n t fr load
        s1.startBank n t load
      match loaded with
      | .error h =>
        (match h.meets f with
          | some va => s.whole fun s => (s.putCore n (c.takeNext t s.sys.pkgCycle.toNat)).endTask n (refusedTrap va)
          | none => s)
      | .ok _ => s
  | some t, _ =>
    match c.sys.stop with
    | some st =>
      if st.phase = .restoring then
        (match st.area, st.reload with
          | some area, item :: _ =>
            (match s.cutIn t.ctx area.1 area.2 with
              | .ok (some x) =>
                (match s.reload n x item with
                  | .error h =>
                    (match h.meets f with
                      | some va => s.whole fun s => s.failRestore n (some area) (refusedTrap va)
                      | none => s)
                  | .ok _ => s)
              | _ => s)
          | _, _ => s)
      else if st.phase ≠ .loading then s
      else match s.vaReadSv t.ctx (tvecBase c).toNat (tvecLen c * 512) with
      | .error h =>
        (match h.meets f with
          | some va =>
            let fr := frameOf c.k.fpc.toNat
            s.whole fun s => (s.putCore n (c.putFrame fr (c.frame fr).fail)).unrecorded n (c.sys.handled.getD (refusedTrap va))
          | none => s)
      | .ok _ => s
    | none => s
  | _, _ => s

/-- A write of the network engine's to a refused page is dropped: no core takes its fault. DEDUCED (log 65). -/
def State.dropHeld (s : State) (f : Flip) : State :=
  let s1 := s.withSys { s.sys with heldWrites := s.sys.heldWrites.filter fun w =>
    !(decide (w.1 = f.ctx) && overlap w.2.1 w.2.2.length f.base.toNat (2 ^ pageLog f.sz)) }
  s1.fab.endpoints.foldl (fun s e => answerDestroyed s e.1) s1

/-- A page is refused: every access that waits for it raises MIGRATION, subcode REFUSED; a waiting step of the sequencer is told when it is
taken again. -/
def State.refusePage (s : State) (f : Flip) : State :=
  let s0 := if f.queued then s.withSys { s.sys with refused := s.sys.refused ++ [(f.ctx, f.base.toNat)] } else s
  let s1 := s0.eachCluster fun s n cl =>
    match (s.cluster n cl).waitsFor f with
    | some va => s.raiseLane n cl .migration (vaInfo 0x31 va)
    | none => s
  s1.cores.foldl (fun s c => s.refuseLoads f c.1) ((s1.dropHeld f).refuseHeads f)

/-- The host driver's answer to the oldest request it has not answered (17 R437). One that comes after its time limit does nothing.
DEDUCED (log 64). -/
def State.migrationAnswer (s : State) (status : Nat) : State :=
  match s.sys.flips.find? fun f => !f.replied && !f.toHost with
  | none => s
  | some f =>
    if f.late then s.dropFlip f
    else if status = 0 then
      let s1 := (s.setOwner f.ctx f.base.toNat 1).xinv { kind := 0, ctx := f.ctx, vpn := f.vpn, flip := true }
      s1.withSys { s1.sys with flips := s1.sys.flips.map fun x => if x = f then { x with replied := true } else x }
    else (s.dropFlip f).refusePage f

/-- MIGRATION_REPLY: the next entry of the down ring. -/
def execMigrationReply (status : Byte) (s : State) : Out :=
  .next ((s.withHost { s.host with lastDown := s.host.lastDown + 1 }).migrationAnswer status.toNat)

/-- MIGRATION_TIMEOUT: the host has not answered the oldest request in time. -/
def execMigrationTimeout (s : State) : Out :=
  .next (match s.sys.flips.find? fun f => !f.replied && !f.toHost && !f.late with
    | none => s
    | some f => (s.withSys { s.sys with flips := s.sys.flips.map fun x => if x = f then { x with late := true } else x }).refusePage f)

/-- A flip's own invalidation has completed. -/
def flipDone (s : State) (f : Flip) : Bool :=
  f.replied && !(s.sys.xinvFifo ++ s.sys.xinvHeld).any fun x => (x.flip || x.reclaim) && decide (x.ctx = f.ctx) && decide (x.vpn = f.vpn)

/-- MIGRATION_FLIP_COMPLETE. -/
def execMigrationFlipComplete (s : State) : Out :=
  .next (match s.sys.flips.find? fun f => !f.toHost && flipDone s f with
    | some f => s.endFlip f
    | none => s)

/-- A mapped page of this base and size, of a memory type that the host may own (R22). -/
def mayReclaim (s : State) (ctx : W16) (va sz : Nat) : Bool :=
  match walk s ctx va with
  | .ok p => decide (p.base = va) && decide (leafSz p.leaf = sz) && decide (1 ≤ leafMt p.leaf) && decide (leafMt p.leaf ≤ 3)
  | .error _ => false

/-- Op 0x041: a page is reclaimed once no flip of it is in progress; a page that is not mapped so is refused. DEDUCED (log 66). -/
def State.reclaim (s : State) (seq : W32) (ctx : W16) (va : W64) (sz : Nat) : State :=
  if sz > 11 then s.serve seq fun s => s.reply 0x041 2 0 []
  else if s.sys.flips.any fun f => f.ctx = ctx && decide (f.base = va) && !f.late then s
  else s.serve seq fun s =>
    if mayReclaim s ctx va.toNat sz then
      let f : Flip := { ctx := ctx, base := va, sz := sz, pa := 0, replied := true, toHost := true, seq := seq }
      let s1 := (s.setOwner ctx va.toNat 0).xinv { kind := 0, ctx := ctx, vpn := f.vpn, reclaim := true }
      s1.withSys { s1.sys with flips := s1.sys.flips ++ [f] }
    else s.reply 0x041 1 0 []

def execPageReclaim (seq : W32) (ctx : W16) (va : W64) (sz : BitVec 4) (s : State) : Out := .next (s.reclaim seq ctx va sz.toNat)

/-- PAGE_RECLAIM_COMPLETE: the page is the host's, and the host is answered. -/
def execPageReclaimComplete (s : State) : Out :=
  .next (match s.sys.flips.find? fun f => f.toHost && flipDone s f with
    | some f => (s.endFlip f).reply 0x041 0 0 []
    | none => s)

/-! ## Tag sweeps (02 R63, R64) -/

def execTagSweep (die : Nat) (ctx : W16) (s : State) : Out := .next (s.sweep die ctx)

/-- TAG_SWEEP_ACCEPT: a held write enters the FIFO once there is room. -/
def execTagSweepAccept (die : Nat) (s : State) : Out :=
  let d := s.die die
  .next (match d.sweepHeld with
    | [] => s
    | c :: rest =>
      if d.sweepFifo.length < 4 then
        let s1 := s.putDie die { d with sweepFifo := d.sweepFifo ++ [c], sweepHeld := rest, sweepIssued := d.sweepIssued + 1 }
        if d.sweepFifo.isEmpty then s1.beginSweep die c else s1
      else s)

/-- The slice lines of a die tagged with a context, orphaned ones having no tag; a line that the context wrote meanwhile may keep its tag. DESIGN CHOICE (log 11). -/
def sweptLines (s : State) (die : Nat) (ctx : W16) : List Nat :=
  s.mem.tags.filterMap fun (t : Nat × W16) =>
    if t.2 = ctx && decide (bayOfPa t.1 / 72 = die) && !s.mem.orphan.contains t.1 && !s.mem.tagLost.contains t.1
        && !(s.mem.during.contains t.1 && Config.sweepKeeps s.free t.1) then some t.1 else none

/-- The slot rows of a die's cores tagged with a context. -/
def Core.sweepRows (c : Core) (ctx : W16) : Core := { c with acc := c.acc.filter fun (r : Nat × AccRow) => r.2.tag ≠ ctx }

def State.sweepDie (s : State) (die : Nat) (ctx : W16) : State :=
  if ctx = 0 then s
  else
    let s1 := s.withMem ((sweptLines s die ctx).foldl (fun m u => m.clearLine u 0) s.mem)
    { s1 with cores := s1.cores.map fun c => if dieOfCore c.1 = die then (c.1, c.2.sweepRows ctx) else c }

/-- TAG_SWEEP_COMPLETE. -/
def execTagSweepComplete (die : Nat) (s : State) : Out :=
  .next (match (s.die die).sweepFifo with
    | [] => s
    | c :: rest =>
      let s1 := s.sweepDie die c
      let d := s1.die die
      let s2 := s1.putDie die { d with sweepFifo := rest, sweepDone := d.sweepDone + 1 }
      match rest with
      | x :: _ => s2.beginSweep die x
      | [] => s2.withMem { s2.mem with sweeping := s2.mem.sweeping.filter fun p => p.1 ≠ die,
                                       during := s2.mem.during.filter fun u => bayOfPa u / 72 ≠ die })

end Sys2Proof.Machine
end

