-- ==== Sys2Proof/Machine/Storage.lean ====
section
/-! DEFINITION. Storage seen from outside the programs: slot tables, scrubbing and the error log, power and self-refresh (02 R51 to R60,
R65 to R72; 04 R110; 17 R440). -/

namespace Sys2Proof.Machine
open Sys2Proof

/-! ## Slot tables (02 R53 to R56) -/

def slotEntryOk (b w : Nat) : Bool :=
  let fs := slotFields w
  fs.all (fun f => routerPort b f.2 && decide (f.2 ≠ f.1) && (decide (f.1 ≠ 5) || decide (b = 40))) && decide ((fs.map Prod.snd).Nodup)

/-- The staged bank's entries are valid. -/
def stagedOk (b : Nat) (r : Router) : Bool :=
  let bank := 1 - boolNat (bit r.ctl.toNat 1)
  (List.range 256).all fun k => slotEntryOk b (tableWord r bank k)

/-- An armed router swaps its banks, or refuses. Entries that a parity error made unscheduled serve again once swapped in (R58). -/
def Router.swap (b : Nat) (r : Router) : Router :=
  let v := r.ctl.toNat
  if !bit v 2 then r
  else if stagedOk b r then
    let act := boolNat (bit v 1)
    let ctl := setBits (setBits (setBits (setBits v 63 48 (bits v 47 32)) 31 16 0) 2 2 0) 1 1 (1 - act)
    { r with ctl := BitVec.ofNat 64 ctl, bad := r.bad.filter fun k => k / 256 ≠ act }
  else { r with ctl := BitVec.ofNat 64 (setBits (setBits v 3 3 1) 2 2 0) }

/-- A cycle of slot 0 that is not before AT. -/
def swapCycle (s : State) (die : Nat) : Bool := decide ((s.die die).slotSwap.toNat ≤ s.sys.pkgCycle.toNat) && decide (s.sys.pkgCycle.toNat % 256 = 0)

def State.swapSlots (s : State) (die : Nat) : State :=
  if swapCycle s die then
    { s with routers := s.routers.map fun r => if r.1 / 72 = die then (r.1, r.2.swap (r.1 % 72)) else r }
  else s

/-- SLOT_TABLE_SWAP. -/
def execSlotTableSwap (die : Nat) (s : State) : Out := .next (s.swapSlots die)

/-! ## The error log (02 R69) -/

/-- An uncorrectable error ends the context it names, if it names one (R65, R67). DESIGN CHOICE (log 81). -/
def State.lost (s : State) (die : Nat) (ctx : W16) (array loc : Nat) : State :=
  (s.logEvent die ctx array (if ctx = 0 then 2 else 1) loc).endContext ctx

def bayCores (b : Nat) : List Nat := [4 * b, 4 * b + 1, 4 * b + 2, 4 * b + 3]

/-! ## What a scrubber finds (02 R58, R60, R65) -/

/-- Where a unit is logged: its die, ARRAY, LOC. -/
def unitSite : StorageUnit → Nat × Nat × Nat
  | .sliceData pa => (bayOfPa pa / 72, 0, pa)
  | .sliceTag pa => (bayOfPa pa / 72, 1, pa)
  | .slotRow c row => (dieOfCore c, 2, unitLoc (bayOfCore c) (c % 4) row)
  | .queueEntry c q => (dieOfCore c, 3, unitLoc (bayOfCore c) (c % 4) q)
  | .cueFifo c f => (dieOfCore c, 3, unitLoc (bayOfCore c) (c % 4) (16 + f))
  | .regFile c => (dieOfCore c, 4, unitLoc (bayOfCore c) (c % 4) 0)
  | .instrMem c f => (dieOfCore c, 5, unitLoc (bayOfCore c) (c % 4) f)
  | .constBank c w => (dieOfCore c, 6, unitLoc (bayOfCore c) (c % 4) w)
  | .callboardTask d i => (d, 7, i % 65536)
  | .callboardNode d i => (d, 7, i % 65536)
  | .callboardScope d i => (d, 7, i % 65536)
  | .combining d i => (d, 8, i % 65536)
  | .slotEntry b bank slot => (b / 72, 9, unitLoc b 0 (bank * 256 + slot))
  | .transCache b => (b / 72, 10, unitLoc b 0 0)
  | .paramCache b i => (b / 72, 10, unitLoc b 0 i)

/-- The slice of a unit is not being scrubbed: it is not ON. -/
def unitSkipped (s : State) : StorageUnit → Bool
  | .sliceData pa => (s.bay (bayOfPa pa)).power ≠ .on
  | .sliceTag pa => (s.bay (bayOfPa pa)).power ≠ .on
  | _ => false

/-- The nodes that hold the node slots of a die's callboard (13 R348). -/
def slotNodes (s : State) (d : Nat) : List (Nat × Nat) :=
  s.graphs.flatMap fun g => if g.2.die = d then (g.2.nodes.filter fun n => n.2.slot).map fun n => (g.1, n.1) else []

/-- The context an uncorrectable error in a unit ends, 0 for none. -/
def unitVictim (s : State) : StorageUnit → W16
  | .sliceData pa => if s.mem.orphan.contains (lineOf pa) || s.mem.tagLost.contains (lineOf pa) then 0 else Map.get 0 s.mem.tags (lineOf pa)
  | .sliceTag _ => 0
  | .slotRow c row => (Map.get {} (s.core c).acc row).tag
  | .queueEntry c q =>
    (match ((s.core c).queue q).chip with
      | e :: _ => e.tag
      | [] => 0)
  | .cueFifo c f => if (s.core c).cue f = [] then 0 else (s.core c).ctx
  | .regFile c => if (s.core c).sys.task.isSome then (s.core c).ctx else 0
  | .instrMem c f => ((s.core c).frame f).tag
  | .constBank c _ => if (s.core c).sys.task.isSome then (s.core c).ctx else 0
  | .callboardTask d i =>
    (match (taskEntries s d)[i]? with
      | some t => t.ctx
      | none => 0)
  | .callboardNode d i =>
    (match ((slotNodes s d)[i]?).bind fun e => s.graph? e.1 with
      | some g => g.ctx
      | none => 0)
  | .callboardScope d i =>
    (match s.scope? (BitVec.ofNat 16 (d * 16384 + i)) with
      | some x => x.ctx
      | none => 0)
  | .combining d i =>
    (match (s.fab.combs.filter fun e => e.die = d)[i]? with
      | some e => e.ctx
      | none => 0)
  | _ => 0

/-- A task entry of a die's callboard is free. -/
def State.freeEntry (s : State) (d : Nat) (t : Task) : State :=
  { s with nests := s.nests.map fun e => if nestDie s e.2 = d then (e.1, { e.2 with queued := e.2.queued.erase t }) else e }

/-- What an uncorrectable error leaves in its unit. A scope's index is free once the kill of its context has written its curtain.
DESIGN CHOICE (log 109). -/
def unitLeave (s : State) : StorageUnit → State
  | .sliceData pa => s.withMem (s.mem.poisonLine (lineOf pa))
  | .sliceTag pa => s.withMem (s.mem.orphanLine (lineOf pa))
  | .slotRow c row =>
    let x := s.core c
    (match Map.find? x.acc row with
      | some r => s.putCore c { x with acc := Map.set x.acc row { r with poison := true } }
      | none => s.putCore c { x with acc := Map.set x.acc row { poison := true } })
  | .instrMem c f => s.putCore c ((s.core c).putFrame f { (s.core c).frame f with lanes := [], pool := [], empty := true })
  | .constBank c w =>
    let x := s.core c
    s.putCore c { x with mem := { x.mem with bankPoison := setIns x.mem.bankPoison w } }
  | .callboardTask d i =>
    (match (taskEntries s d)[i]? with
      | some t => s.freeEntry d t
      | none => s)
  | .callboardNode d i =>
    (match (slotNodes s d)[i]? with
      | some e =>
        let s1 := s.putNode e.1 e.2 { s.node e.1 e.2 with slot := false }
        s1.putDie d { s1.die d with ready := (s1.die d).ready.filter fun x => x ≠ e }
      | none => s)
  | .callboardScope d i =>
    (match s.scope? (BitVec.ofNat 16 (d * 16384 + i)) with
      | some x => s.putScope (BitVec.ofNat 16 (d * 16384 + i)) { x with kept := false }
      | none => s)
  | .combining d i =>
    (match (s.fab.combs.filter fun e => e.die = d)[i]? with
      | some e => (s.dropComb e).leavePoison e.ctx e.dst 64
      | none => s)
  | _ => s

/-- The entry at place i of a list that starts at place `off`, gone. -/
def eraseAt {α : Type} (l : List α) (off i : Nat) : List α := if off ≤ i then l.eraseIdx (i - off) else l

/-- One entry of the translation caches of a bay and its cores is discarded; which of them is free. DESIGN CHOICE (log 95). -/
def Sys.dropCached (y : Sys) (b i : Nat) : Sys :=
  let two := Map.get [] y.tlb2 b
  let walked := Map.get [] y.walked b
  let ones := (bayCores b).map fun n => (n, Map.get [] y.tlb1 n)
  let k := i % max 1 (two.length + walked.length + (ones.map fun e => e.2.length).sum)
  let (tlb1, _) := ones.foldl (fun (a : Map (List Tlb) × Nat) e => (Map.set a.1 e.1 (eraseAt e.2 a.2 k), a.2 + e.2.length))
    (y.tlb1, two.length + walked.length)
  { y with tlb1 := tlb1, tlb2 := Map.set y.tlb2 b (eraseAt two 0 k), walked := Map.set y.walked b (eraseAt walked two.length k) }

/-- A parity error discards the entry, to be fetched again; a slot-table entry is unscheduled (R58). -/
def unitParity (s : State) : StorageUnit → Option State
  | .slotEntry b bank slot =>
    let r := Map.get {} s.routers b
    some (s.putRouter b { r with bad := setIns r.bad (bank * 256 + slot) })
  | .transCache b => some (s.withSys (s.sys.dropCached b (Config.choice s.free)))
  | .paramCache b i => some (s.putBay b { s.bay b with pbCache := Map.erase (s.bay b).pbCache i })
  | _ => none

/-- What a visit to a unit finds: an error that no code can correct, where one has come about there. -/
def foundIn (s : State) (u : StorageUnit) (found : Ecc) : Ecc :=
  match u with
  | .sliceData pa => if s.mem.damaged.contains (lineOf pa) then .uncorrectable else found
  | .sliceTag pa => if s.mem.tagLost.contains (lineOf pa) then .uncorrectable else found
  | _ => found

/-- A corrected error is logged; an uncorrectable one ends the unit's context and leaves the unit as the table says. -/
def State.found (s : State) (u : StorageUnit) (seen : Ecc) : State :=
  let (die, array, loc) := unitSite u
  let found := foundIn s u seen
  if unitSkipped s u then s
  else match found with
  | .clean => s
  | .corrected =>
    (match unitParity s u with
      | some s1 => s1.logEvent die 0 array 0 loc
      | none => s.logEvent die 0 array 0 loc)
  | .uncorrectable =>
    match unitParity s u with
    | some s1 => s1.logEvent die 0 array 0 loc
    | none =>
      match u with
      | .sliceTag _ => (unitLeave s u).logEvent die 0 array 4 loc
      | _ => (unitLeave s u).lost die (unitVictim s u) array loc

/-- The slice scrubber goes on from the line after the one it has visited. -/
def State.scrubbed (s : State) (u : StorageUnit) : State :=
  match u with
  | .sliceData pa => if unitSkipped s u then s else s.putBay (bayOfPa pa) { s.bay (bayOfPa pa) with scrub := (pa % Config.sliceSize / 64 + 1) % 65536 }
  | _ => s

/-- A visit to a line checks its tag as well as its data: a tag that both copies have lost is found with it (R60). -/
def State.foundAt (s : State) (u : StorageUnit) (found : Ecc) : State :=
  match u with
  | .sliceData pa => (if s.mem.tagLost.contains (lineOf pa) then s.found (.sliceTag pa) .clean else s).found u found
  | _ => s.found u found

/-- SCRUB_VISIT. -/
def execScrubVisit (unit : StorageUnit) (found : Ecc) (s : State) : Out := .next ((s.scrubbed unit).foundAt unit found)

/-- SCRUB_FORCED: the line the scrubber has come to, if it lies in this bank. -/
def execScrubForced (bay bank : Nat) (found : Ecc) (s : State) : Out :=
  let line := (s.bay bay).scrub
  let u : StorageUnit := .sliceData (bay * Config.sliceSize + 64 * line)
  .next (if bay < Config.bays && decide (line % 16 = bank) then (s.scrubbed u).foundAt u found else s)

/-- PATROL_SCRUB: no context is ended, and a line that cannot be corrected is left as poison. -/
def execPatrolScrub (pa : Nat) (found : Ecc) (s : State) : Out :=
  .next (if !isTable s pa || s.host.selfRefresh then s
  else match (if s.mem.damaged.contains (lineOf pa) then .uncorrectable else found) with
    | .clean => s
    | .corrected => s.logEvent (dieOfPa pa) 0 (arrayOfPa pa) 0 pa
    | .uncorrectable =>
      (s.withMem (s.mem.poisonLine (lineOf pa))).logEvent (dieOfPa pa) 0 (arrayOfPa pa) 2 pa)

/-! ## Power (02 R70 to R72; 17 R440) -/

/-- A saved cut of a core of the bay. -/
def cutOfBay (b : Nat) (t : Task) : Bool := t.area.isSome && decide (bayOfCore t.cutCore = b)

/-- No core of the bay has a task or a saved cut, and no slot row or queue entry holds a tag (R71). -/
def logicFree (s : State) (b : Nat) : Bool :=
  (bayCores b).all (fun n =>
    let c := s.core n
    c.sys.task.isNone && c.sys.prefetch.isEmpty && c.acc.all (fun (r : Nat × AccRow) => r.2.tag = 0)
      && (List.range 16).all fun q => ((c.queue q).chip ++ (c.queue q).ring).all fun e => decide (e.tag = 0))
    && !(s.cores.any fun (c : Nat × Core) => c.2.sys.prefetch.any (cutOfBay b))
    && !(s.nests.any fun (n : Nat × Nest) => n.2.requeued.any (cutOfBay b))

/-- Some line of a slice holds a tag other than 0, or has lost its tag. -/
def sliceTagged (s : State) (b : Nat) : Bool :=
  (s.mem.tags.any fun (t : Nat × W16) => decide (bayOfPa t.1 = b)) || (s.mem.orphan ++ s.mem.tagLost).any fun u => isSlice u && decide (bayOfPa u = b)

def sliceWeir (s : State) (b : Nat) : Bool := s.mem.weirs.any fun u => isSlice u && decide (bayOfPa u = b)

def dieIdle (s : State) (d : Nat) : Bool := (List.range 72).all fun i => !(s.bay (72 * d + i)).logicOn

def powerOf (code : Nat) : Power := if code = 0 then .on else if code = 1 then .retain else .off

/-- A request that names no unit or no state. PRESUMED (log 37). -/
def powerMalformed (target bay state : Nat) : Bool :=
  decide (target > 2) || (decide (target < 2) && decide (bay > 71)) || decide (state > (if target = 0 then 2 else 1))

/-- The number of the unit a request names. -/
def powerUnit (target die bay : Nat) : Nat := if target = 2 then die else 72 * die + bay

/-- R71 and R440 allow the state. -/
def powerAllowed (s : State) (target unit state : Nat) : Bool :=
  if target = 0 then state = 0 || (!sliceWeir s unit && (state = 1 || !sliceTagged s unit))
  else if target = 1 then (if state = 0 then (s.die (unit / 72)).active else logicFree s unit)
  else state = 0 || dieIdle s unit

/-- A transition of the unit is in progress. -/
def powerBusy (s : State) (target unit : Nat) : Bool :=
  if target = 0 then (s.bay unit).target.isSome else if target = 1 then (s.bay unit).logicTarget.isSome else (s.die unit).target.isSome

def State.beginPower (s : State) (target unit state : Nat) : State :=
  if target = 0 then s.putBay unit { s.bay unit with target := some (powerOf state) }
  else if target = 1 then s.putBay unit { s.bay unit with logicTarget := some (decide (state = 0)) }
  else s.putDie unit { s.die unit with target := some (decide (state = 0)) }

/-- The next request for a unit begins; those that R71 forbids are refused. -/
def State.nextPower : Nat → State → Nat → Nat → State
  | 0, s, _, _ => s
  | f + 1, s, target, unit =>
    if powerBusy s target unit then s
    else match s.host.powerReqs.find? fun r => r.2.1 = target && decide (r.2.2.1 = unit) with
    | none => s
    | some r =>
      if powerAllowed s target unit r.2.2.2 then s.beginPower target unit r.2.2.2
      else State.nextPower f ((s.withHost { s.host with powerReqs := s.host.powerReqs.erase r }).reply 0x020 1 0 []) target unit

/-- Op 0x020. -/
def State.powerRequest (s : State) (seq : W32) (target die bay state : Nat) : State :=
  s.serve seq fun s =>
    if powerMalformed target bay state then s.reply 0x020 2 0 []
    else
      let unit := powerUnit target die bay
      let s1 := s.withHost { s.host with powerReqs := s.host.powerReqs ++ [(seq, target, unit, state)] }
      State.nextPower s1.host.powerReqs.length s1 target unit

def execPowerState (seq : W32) (target : BitVec 2) (die : BitVec 2) (bay : BitVec 7) (state : BitVec 2) (s : State) : Out :=
  .next (s.powerRequest seq target.toNat die.toNat bay.toNat state.toNat)

/-- The state that the unit is going to, as a request names it. -/
def goingTo (s : State) (target unit : Nat) : Nat :=
  if target = 0 then
    match (s.bay unit).target with
    | some .off => 2
    | some .retain => 1
    | _ => 0
  else if target = 1 then boolNat ((s.bay unit).logicTarget = some false)
  else boolNat ((s.die unit).target = some false)

/-- R71 forbids the state by now: the unit stays as it is. -/
def State.stayPower (s : State) (target unit : Nat) : State :=
  if target = 0 then s.putBay unit { s.bay unit with target := none }
  else if target = 1 then s.putBay unit { s.bay unit with logicTarget := none }
  else s.putDie unit { s.die unit with target := none }

/-- The unit reaches the state it was going to. -/
def State.reachPower (s : State) (target unit : Nat) : State :=
  if target = 0 then
    match (s.bay unit).target with
    | some .on => s.sliceOn unit
    | some p =>
      let s1 := s.putBay unit { s.bay unit with power := p, target := none }
      if s.sys.due.any fun d => bayOfPa d.pa = unit then s1.wakeSlice unit else s1
    | none => s
  else if target = 1 then
    match (s.bay unit).logicTarget with
    | some b => s.putBay unit { s.bay unit with logicOn := b, logicTarget := none }
    | none => s
  else
    match (s.die unit).target with
    | some b =>
      let s1 := s.putDie unit { s.die unit with active := b, target := none }
      if b then s1.withHost { s1.host with selfRefresh := false } else s1
    | none => s

/-- A transition ends, in its state if R71 still allows it: its request, if it had one, is answered, and the next one for the unit begins. What
waited for a slice goes on. -/
def State.endPower (s : State) (target unit : Nat) : State :=
  let ok := powerAllowed s target unit (goingTo s target unit)
  let s0 := if ok then s.reachPower target unit else s.stayPower target unit
  let s1 := if target = 0 && decide ((s0.bay unit).power = .on) then s0.retryHeld else s0
  let mine (r : W32 × Nat × Nat × Nat) : Bool := decide (r.2.1 = target) && decide (r.2.2.1 = unit)
  let done (r : W32 × Nat × Nat × Nat) : Bool :=
    if target = 0 then decide ((s.bay unit).target = some (powerOf r.2.2.2)) else true
  let s2 := match s.host.powerReqs.find? mine with
    | some r => if done r then (s1.withHost { s1.host with powerReqs := s1.host.powerReqs.erase r }).reply 0x020 (boolNat (!ok)) 0 [] else s1
    | none => s1
  State.nextPower (s2.host.powerReqs.length + 1) s2 target unit

/-- POWER_TRANSITION_COMPLETE. -/
def execPowerTransitionComplete (target : BitVec 2) (unit : Nat) (s : State) : Out :=
  .next (if powerBusy s target.toNat unit then s.endPower target.toNat unit else s)

/-- SLICE_WAKE: a slice on its way to ON reaches it. -/
def execSliceWake (bay : Nat) (s : State) : Out := .next (if (s.bay bay).target = some .on then s.endPower 0 bay else s)

/-! ## The management complex's own accesses (03 R73) -/

/-- A load or a store of a management-complex cluster, of one unit: it neither checks nor changes tags (02 R61), and waits for a slice that is not
on. Its error is found with no context to end. -/
def State.mgmtAccess (s : State) (pa len : Nat) (store : Option (List Byte)) : State :=
  let u := lineOf pa
  let bad := s.mem.meets (Map.get 0 s.mem.tags u) pa
  if len = 0 || len > 8 - pa % 8 || !installed s pa len then s
  else match awakeAll s pa len with
  | .error h => s.delayed h
  | .ok _ =>
    match store with
    | none => if bad = .poisoned || bad = .orphan then s.poisonFound u else s
    | some bs =>
      if bad = .orphan || (bad = .poisoned && (partWord pa len u || !isSlice u)) then s.poisonFound u else s.withMem (s.mem.rawWrite 0 pa (bs.take len))

/-! ## Self-refresh (02 R72) -/

/-- An access that some agent of the package waits for: of a job, an array, a remote access, a group, a referee, the network engine, what waits at a
die, and what waits for a page or a slice. -/
def accessOutstanding (s : State) : Bool :=
  s.bays.any (fun (b : Nat × Bay) => decide (b.2.jobs ≠ []) || decide (b.2.nodeCmds ≠ []))
    || s.cores.any (fun (c : Nat × Core) => decide (c.2.cmds ≠ []) || decide (c.2.mem.remote ≠ []) || decide (c.2.mem.transit ≠ [])
        || decide (c.2.mem.refused ≠ []) || decide (c.2.mem.refReqs ≠ []) || decide (c.2.mem.opens ≠ []) || decide (c.2.mem.closes ≠ []))
    || s.units.any (fun (u : Nat × List Group) => u.2.any fun g => decide (g.held ≠ []))
    || s.dies.any (fun (d : Nat × Die) => d.2.wire.any fun w => w.req.isSome || w.tile.isSome)
    || decide (s.fab.kept ≠ []) || decide (s.sys.heldWrites ≠ []) || decide (s.sys.due ≠ [])
    || s.fab.endpoints.any fun (e : Nat × Endpoint) => decide (e.2.descs ≠ [])

/-- Every die is IDLE, and no access is outstanding. -/
def packageIdle (s : State) : Bool := (List.range 4).all (fun d => !(s.die d).active) && !accessOutstanding s

def execSelfRefreshEntry (s : State) : Out := .next (if packageIdle s then s.withHost { s.host with selfRefresh := true } else s)
def execSelfRefreshExit (s : State) : Out := .next (s.withHost { s.host with selfRefresh := false })

end Sys2Proof.Machine
end

