-- ==== Sys2Proof/Machine/HostPort.lean ====
section
/-! DEFINITION. The host and the management complex: the command rings and every request on them, PCIe accesses, signatures, SPDM, start-up,
and writes to registers from outside the programs (15 R404, R406; 16 R430; 17 R433 to R439). -/

namespace Sys2Proof.Machine
open Sys2Proof

/-! ## Endpoints (16 R430; 17 R437) -/

/-- A ring of n slots that both copy-job paths of R23 take, in HBM or DDR pages of the context. -/
def ringCheck (s : State) (ctx : W16) (va n : Nat) : Chk Unit := do
  let ps ← s.seqRange ctx false .jobRead va (64 * n)
  let qs ← s.seqRange ctx false .jobWrite va (64 * n)
  need ((ps ++ qs).all fun p => p.place.mt = 1 || p.place.mt = 2) (.trap .permission (vaInfo 0x15 va))

/-- The rings and the peer table of a new endpoint, in this order. -/
def endpointCheck (s : State) (e : Endpoint) : Chk Unit := do
  ringCheck s e.ctx e.sendVa.toNat e.sendSlots
  ringCheck s e.ctx e.recvVa.toNat e.recvSlots
  let _ ← s.seqRange e.ctx false .jobRead e.peerVa.toNat (peerBytes * e.peers)

/-- An endpoint is created; a page that only delays holds the request. DESIGN CHOICE (log 96). -/
def State.createEndpoint (s : State) (seq : W32) (ctx : W16) (logSend logRecv : Nat) (sendVa recvVa peerVa : W64) (peers : Nat) : State :=
  s.whole fun s => s.serve seq fun s =>
    if logSend > 6 || logRecv > 6 || peers = 0 || peers > 65536 then s.reply 0x010 2 0 []
    else match (List.range 1024).find? fun i => (s.endpoint? i).isNone with
    | none => s.reply 0x010 1 0 []
    | some id =>
      let e : Endpoint := { ctx := ctx, sendVa := sendVa, sendSlots := 2 ^ (logSend + 6), recvVa := recvVa, recvSlots := 2 ^ (logRecv + 6),
                            peerVa := peerVa, peers := peers }
      match endpointCheck s e with
      | .ok _ => (s.putEndpoint id e).reply 0x010 0 id []
      | .error h => (s.met h).reply 0x010 1 0 []

def execEndpointCreate (seq : W32) (ctx : W16) (logSend : BitVec 4) (logRecv : BitVec 4) (sendVa : W64) (recvVa : W64) (peerVa : W64)
    (peers : BitVec 17) (s : State) : Out :=
  .next (s.createEndpoint seq ctx logSend.toNat logRecv.toNat sendVa recvVa peerVa peers.toNat)

/-- Answered once every posted descriptor has its record. DESIGN CHOICE (log 96). -/
def State.destroyEndpoint (s : State) (seq : W32) (ctx : W16) (id : Nat) : State :=
  s.serve seq fun s =>
    match s.endpoint? id with
    | some e =>
      if e.ctx = ctx && e.destroying.isNone then answerDestroyed (s.putEndpoint id { e with destroying := some seq }) id
      else s.reply 0x011 1 0 []
    | none => s.reply 0x011 1 0 []

def execEndpointDestroy (seq : W32) (ctx : W16) (id : BitVec 10) (s : State) : Out := .next (s.destroyEndpoint seq ctx id.toNat)

/-! ## Signatures (15 R406) -/

def State.setSigRing (s : State) (seq : W32) (ring : W64) (log : Nat) (consumed : W64) : State :=
  s.serve seq fun s =>
    if log > 11 || ring.toNat % 4096 ≠ 0 || consumed.toNat % 8 ≠ 0 then s.reply 0x012 2 0 []
    else (s.withHost { s.host with sigRing := some (ring, 2 ^ (log + 4), consumed) }).reply 0x012 0 0 []

def execSignatureRingSet (seq : W32) (ring : W64) (log : BitVec 4) (consumed : W64) (s : State) : Out :=
  .next (s.setSigRing seq ring log.toNat consumed)

/-- A host address as a physical address of the host window. -/
def hostPa (a : W64) : Nat := Config.hostBase + a.toNat % (Config.hostEnd - Config.hostBase)

/-- The identity key was unwrapped. -/
def identityOk (s : State) : Bool := decide ((vget 0 s.host.bootRec 1).toNat = 1)

/-- Bytes 0 to 127 of an entry. -/
def sigHead (s : State) (die kind first : Nat) (rs : List (List Byte)) : List Byte :=
  bytesOf 8 (die * 2 ^ 48 + kind * 2 ^ 40 + s.host.sigSeq % 2 ^ 40) ++ bytesOf 8 first ++ bytesOf 8 rs.length
    ++ bytesOf 8 s.sys.frame.toNat ++ sha256 rs.flatten ++ List.replicate 64 0

/-- An entry of the signature ring: written while k − CONSUMED is below the entry count; none while it must wait. -/
def State.signEntry (s : State) (die kind first : Nat) (rs : List (List Byte)) : Option State :=
  match s.host.sigRing with
  | none => none
  | some (ring, n, consumed) =>
    if s.host.sigSeq - ofBytes (s.mem.rawRead 0 (hostPa consumed) 8) ≥ n then none
    else
      let head := sigHead s die kind first rs
      let sig := (List.range 384).map fun i => (Config.sign head).getD i 0
      let pa := hostPa ring + 512 * (s.host.sigSeq % n)
      let s1 := (s.withMem (s.mem.rawWrite 0 pa (head ++ sig))).withHost { s.host with sigSeq := s.host.sigSeq + 1 }
      some (s1.postUp 2 0x082 [ofBytes (head.take 8)])

/-- The entries that wait, in order, while there is room. -/
def State.flushSigs : Nat → State → State
  | 0, s => s
  | f + 1, s =>
    match s.host.sigWait with
    | [] => s
    | (die, kind, first, rs) :: rest =>
      match s.signEntry die kind first rs with
      | none => s
      | some s1 => State.flushSigs f (s1.withHost { s1.host with sigWait := rest })

def batchCycles : Nat := 1050000

/-- A die's batch: the task root records appended since the last one, every 1,050,000 cycles. -/
def State.signBatch (s : State) (die : Nat) : State :=
  let d := s.die die
  if s.sys.pkgCycle.toNat < d.batchCycle + batchCycles then s
  else
    let s1 := s.putDie die { d with batchCycle := s.sys.pkgCycle.toNat }
    match d.batch with
    | [] => s1
    | (k, _) :: _ =>
      match s1.signEntry die 0 k (d.batch.map Prod.snd) with
      | none => s1
      | some s2 => s2.putDie die { s2.die die with batch := [] }

/-- SIGNATURE_BATCH. Without an identity nothing is signed (17 R439). -/
def execSignatureBatch (die : Nat) (s : State) : Out :=
  .next (if identityOk s then (State.flushSigs s.host.sigWait.length s).signBatch die else s)

/-! ## Debug stops (14 R372) -/

/-- Op 0x013: answered once the handler is entered. A second stop for a core waits in the ring while one is held. -/
def State.debugCore (s : State) (seq : W32) (core : Nat) : State :=
  let y := (s.core core).sys
  let runs := match y.task with
    | some t => !s.dying t.scope && !y.halting
    | none => false
  if !runs then s.serve seq fun s => s.reply 0x013 1 0 []
  else if y.nextStop.isSome then s
  else s.serve seq fun s => s.requestStop core (.debug seq)

def execDebugStop (seq : W32) (core : BitVec 11) (s : State) : Out := .next (s.debugCore seq core.toNat)

/-- RING_REQUEST_MALFORMED: answered with STATUS 2, and nothing else. -/
def State.refuseRequest (s : State) (seq : W32) (op : Nat) : State := s.serve seq fun s => s.reply op 2 0 []

def execRingRequestMalformed (seq : W32) (op : BitVec 12) (s : State) : Out := .next (s.refuseRequest seq op.toNat)

/-! ## The down ring (17 R434 to R437; 19 R447) -/

/-- Entry k of the down ring. -/
def downEntry (s : State) (k : W32) : List W64 :=
  words64 8 (s.mem.rawRead 0 (ringBase s.host.ringDown + 64 * ((k.toNat + 2 ^ 32 - 1) % 2 ^ 32 % ringSlots s.host.ringDown)) 64)

/-- Words i to 7 of an entry are zero. -/
def zeroFrom (ws : List W64) (i : Nat) : Bool := (ws.drop i).all fun w => decide (w = 0)

/-- No bit above bit n − 1 of a word is set. -/
def fits (ws : List W64) (i n : Nat) : Bool := decide (wordAt ws i < 2 ^ n)

def field16 (ws : List W64) (i : Nat) : W16 := BitVec.ofNat 16 (wordAt ws i)

/-- The host has consumed the up-ring entries up to the last SEQ whose low 16 bits are ACK. -/
def HostIf.hear (h : HostIf) (ack : Nat) : HostIf :=
  let rest := h.unread.dropWhile fun e => decide (e.1.toNat % 2 ^ 16 ≠ ack)
  { h with unread := if rest = [] then h.unread else rest.tail }

/-- What the host has not acknowledged is written again, with its SEQ (R436). -/
def State.resendUp (s : State) : State :=
  s.withMem (s.host.unread.foldl (fun m e => m.rawWrite 0 (upSlot s.host.ringUp e.1) e.2) s.mem)

/-- The ACK of an entry; one that runs behind what is written marks lost entries, which are sent again. DEDUCED (log 97). -/
def State.hearAck (s : State) (ack : Nat) : State := (s.withHost (s.host.hear ack)).resendUp

/-- A request of KIND 0, or STATUS 2 for a reserved code or a reserved bit. -/
def State.serveRequest (s : State) (seq : W32) (op : Nat) (ws : List W64) : State :=
  let bad := s.refuseRequest seq op
  let w (i : Nat) : W64 := ws.getD i 0
  let graphOk := fits ws 1 16 && fits ws 3 2 && zeroFrom ws 4
  if op = 0x010 then
    (if fits ws 1 24 && fits ws 5 17 && zeroFrom ws 6 then
      s.createEndpoint seq (field16 ws 1) (bits (wordAt ws 1) 19 16) (bits (wordAt ws 1) 23 20) (w 2) (w 3) (w 4) (wordAt ws 5)
    else bad)
  else if op = 0x011 then (if fits ws 1 16 && fits ws 2 10 && zeroFrom ws 3 then s.destroyEndpoint seq (field16 ws 1) (wordAt ws 2) else bad)
  else if op = 0x012 then (if fits ws 2 4 && zeroFrom ws 4 then s.setSigRing seq (w 1) (wordAt ws 2) (w 3) else bad)
  else if op = 0x013 then (if fits ws 1 11 && zeroFrom ws 2 then s.debugCore seq (wordAt ws 1) else bad)
  else if op = 0x020 then
    (if fits ws 1 2 && fits ws 2 9 && fits ws 3 2 && zeroFrom ws 4 then
      s.powerRequest seq (wordAt ws 1) (wordAt ws 2 / 128) (wordAt ws 2 % 128) (wordAt ws 3)
    else bad)
  else if op = 0x030 then (if graphOk then s.hostLaunch seq (field16 ws 1) (w 2) (BitVec.ofNat 2 (wordAt ws 3)) else bad)
  else if op = 0x031 then (if graphOk then s.hostResume seq (field16 ws 1) (w 2) (BitVec.ofNat 2 (wordAt ws 3)) else bad)
  else if op = 0x032 then (if fits ws 1 16 && fits ws 2 16 && zeroFrom ws 3 then s.hostKill seq (field16 ws 1) (field16 ws 2) else bad)
  else if op = 0x033 then
    (if fits ws 1 16 && fits ws 3 12 && zeroFrom ws 4 then s.callbackAck seq (field16 ws 1) (w 2) (BitVec.ofNat 12 (wordAt ws 3)) else bad)
  else if op = 0x041 then
    (if fits ws 1 16 && fits ws 3 4 && zeroFrom ws 4 then s.reclaim seq (field16 ws 1) (w 2) (wordAt ws 3) else bad)
  else bad

/-- An entry: a request, the answer to a migration request, or a notice, which has no reply. DESIGN CHOICE (log 41). -/
def State.serveEntry (s : State) (seq : W32) (ws : List W64) : State :=
  let kind := bits (wordAt ws 0) 15 12
  let op := bits (wordAt ws 0) 11 0
  if kind = 2 then s.serve seq fun s => s
  else if kind = 1 && op = 0x040 then s.serve seq fun s => s.migrationAnswer (bits (wordAt ws 1) 7 0)
  else if kind = 0 then s.serveRequest seq op ws
  else s.refuseRequest seq op

/-- Entries are consumed in SEQ order up to the last one the doorbell named; a gap, or one that must wait, ends the turn. -/
def State.serveRing : Nat → State → State
  | 0, s => s
  | f + 1, s =>
    let k := s.host.lastDown + 1
    let ws := downEntry s k
    if s.host.lastDown = s.host.bell || bits (wordAt ws 0) 63 32 ≠ k.toNat then s
    else
      let s1 := (s.hearAck (bits (wordAt ws 0) 31 16)).serveEntry k ws
      if s1.host.lastDown = s.host.lastDown then s1 else State.serveRing f s1

/-- DOORBELL: the device consumes the new entries. A device that has not started presents no BAR (R439). -/
def State.doorbell (s : State) (seq : W32) : State :=
  if s.host.booted then State.serveRing (ringSlots s.host.ringDown) (s.withHost { s.host with bell := seq, ringLink := s.host.link }) else s

def execDoorbell (seq : W32) (s : State) : Out := .next (s.doorbell seq)

def ringMask : Nat := 0xFFFFFFFFFFFFF00F

/-- RING_RESTART: a write to RING_DOWN or RING_UP. What the host has not acknowledged is sent again; both rings start again at SEQ 1.
DEDUCED (log 97). -/
def State.restartRings (s : State) (up : Bool) (value : W64) : State :=
  if s.host.booted then
    let v := maskWrite 0 value.toNat ringMask
    let h := { s.host with lastDown := 0, lastUp := 0, bell := 0, ringLink := s.host.link }
    (s.withHost (if up then { h with ringUp := v } else { h with ringDown := v })).resendUp
  else s

def execRingRestart (up : Bool) (value : W64) (s : State) : Out := .next (s.restartRings up value)

/-! ## PCIe (01 R38, R39; 02 R48; 03 R91; 17 R433) -/

/-- A range of storage that the host reaches: installed HBM or DDR, or the host window, whole. -/
def hostReaches (s : State) (pa n : Nat) : Bool :=
  let last := pa + n - 1
  (isHbm pa && isHbm last) || (isDdr s pa && isDdr s last) || (isHostWin pa && isHostWin last)

/-- A link that is up. DESIGN CHOICE (log 40). -/
def linkOn (s : State) (link : BitVec 1) : Bool := link = 1 || s.host.linkUp

/-- The host's read: a line that it cannot read gives what the manual does not say. DESIGN CHOICE (log 81). -/
def hostRead (s : State) (pa n : Nat) : List Byte :=
  match s.mem.read 0 0 pa n with
  | some bs => bs
  | none => (List.range n).map (Config.farByte s.free)

/-- HOST_PCIE_ACCESS: performed in arrival order, or completed with Unsupported Request. DESIGN CHOICE (log 88). -/
def execHostPcieAccess (link : BitVec 1) (write : Bool) (pa : Nat) (data : List Byte) (s : State) : Out :=
  .next (if !linkOn s link || !s.host.booted then s
  else
    let n := data.length
    let s1 := s.withHost { s.host with selfRefresh := if isHostWin pa then s.host.selfRefresh else false, pcieUr := false, pcieReply := [] }
    if n = 0 then s1
    else if !hostReaches s pa n then s1.withHost { s1.host with pcieUr := true }
    else if write then
      s1.withMem (if s1.mem.writeBlocked 0 pa n then s1.mem.rawWrite 0 pa data else s1.mem.write 0 0 pa data)
    else s1.withHost { s1.host with pcieReply := hostRead s1 pa n })

/-- What the host reads at an offset of the BAR: DOORBELL is write-only, and no other offset holds a register. DESIGN CHOICE (log 40). -/
def HostIf.barRead (h : HostIf) (offset : Nat) : W64 :=
  match offset with
  | 0x00 => h.ringDown
  | 0x08 => h.ringUp
  | 0x18 => h.lastDown ++ h.lastUp
  | _ => 0

/-- The host's access to one aligned word of the BAR that either endpoint presents (R433, R435). -/
def State.barAccess (s : State) (link : BitVec 1) (offset : Nat) (value : Option W64) : State :=
  if !linkOn s link || !s.host.booted then s
  else match value with
    | none => s.withHost { s.host with pcieReply := bytesOf 8 (s.host.barRead offset).toNat, pcieUr := false }
    | some v =>
      match offset with
      | 0x00 => s.restartRings false v
      | 0x08 => s.restartRings true v
      | 0x10 => s.doorbell (BitVec.ofNat 32 v.toNat)
      | _ => s

/-- The start left PCIe to the die 2 link, or without its die 0 link (R439 step 5). -/
def HostIf.die0Barred (h : HostIf) : Bool := h.booted && decide (vget 0 h.bootRec 5 ≠ 1)

/-- PCIE_LINK_STATE_CHANGE: the die 0 link. Ring traffic uses it while it is up, and the die 2 link otherwise. -/
def execPcieLinkStateChange (up : Bool) (s : State) : Out :=
  .next (s.withHost { s.host with linkUp := up && !s.host.die0Barred })

/-! ## SPDM (15 R406; 17 R439) -/

/-- An error answer: SPDM 1.3, ERROR, and a code that the manual does not give. DESIGN CHOICE (log 12). -/
def spdmError (s : State) : List Byte := [0x13, 0x7F, Config.farByte s.free 0, 0]

def execSpdmRequest (msg : List Byte) (s : State) : Out :=
  let answer := if identityOk s then Config.spdmAnswer msg else spdmError s
  .next (s.withFab { s.fab with sent := s.fab.sent ++ [.spdm answer] })

/-! ## Start-up (17 R438, R439) -/

/-- A boot step's record: a step marked 2 on the previous start takes its alternate, or is not run. -/
def bootStep (prev : BitVec 2) (alternate passed : Bool) : BitVec 2 :=
  if prev = 2 then (if alternate then (if passed then 3 else 2) else 0) else if passed then 1 else 2

/-- The steps that have an alternate. -/
def hasAlternate (i : Nat) : Bool := i = 0 || i = 2 || i = 5

def bootRecord (prev : Vector (BitVec 2) 16) (passed : W16) : Vector (BitVec 2) 16 :=
  prev.mapIdx fun i r => if i ≤ 6 then bootStep r (hasAlternate i) (passed.getLsbD i) else 0

def stepOk (r : Vector (BitVec 2) 16) (i : Nat) : Bool := (vget 0 r i).toNat = 1 || (vget 0 r i).toNat = 3

/-- Both image slots have failed: the device stays in its ROM. -/
def staysInRom (prev r : Vector (BitVec 2) 16) : Bool := decide (vget 0 prev 0 = 2) && decide (vget 0 r 0 = 2)

/-- Word i of the configuration image, as this model lays it out: the context-table base, descriptor 0, POD_CFG, STRIPE, the member table
(words 4 to 11), and the loaded key slots (words 12 to 27). DESIGN CHOICE (log 42). -/
def imageWord (image : List Byte) (i : Nat) : Nat := ofBytes ((image.drop (8 * i)).take 8)

def imageMembers (image : List Byte) : Vector Byte 64 :=
  (Vector.replicate 64 (0 : Byte)).mapIdx fun i _ => BitVec.ofNat 8 (ofBytes ((image.drop (32 + i)).take 1) % 64)

def imageKeys (image : List Byte) : List Nat :=
  (List.range 1024).filter fun k => decide (k ≠ 0) && bit (imageWord image (12 + k / 64)) (k % 64)

/-- Installed DDR5: one or two modules of one capacity on each of 8 channels (02 R50). DESIGN CHOICE (log 16). -/
def ddrInstalled : Nat :=
  8 * (1 + Config.ddrPopulation % 2) * ([16, 32, 48, 64, 96, 128].getD (Config.ddrPopulation / 2 % 6) 16) * 2 ^ 30

/-- What lies outside the slices is kept, and the key that each of its units was written under. -/
def Memory.afterReset (m : Memory) : Memory :=
  { cells := m.cells.filter fun c => !isSlice c.1
    poison := m.poison.filter fun a => !isSlice a
    damaged := m.damaged.filter fun a => !isSlice a
    keyOf := m.keyOf
    loads := m.loads
    weirs := m.weirs.filter fun a => !isSlice a }

/-- Step 6: descriptor 0, then CTX_TABLE. -/
def Memory.bootTable (m : Memory) (image : List Byte) : Memory :=
  m.rawWrite 0 (bits (imageWord image 0) 51 24 * 2 ^ 24) (bytesOf 8 (imageWord image 1) ++ List.replicate 4088 0)

def bootSys (r : Vector (BitVec 2) 16) (image : List Byte) : Sys :=
  { ctxTable := if stepOk r 6 then maskWrite 0 (imageWord image 0 / 2 * 2 + 1) ctxTableMask else 0
    keys := imageKeys image
    ddrSize := if stepOk r 3 then ddrInstalled else 0 }

/-- The incarnation of a boot (05 R143). -/
def bootInc (count : Nat) : Nat := count % 65535 + 1

def bootFab (r : Vector (BitVec 2) 16) (image : List Byte) (count : Nat) : Fabric :=
  let cfg := maskWrite 0 (setBits (imageWord image 2) 63 48 (bootInc count)) podCfgMask
  { podCfg := if stepOk r 4 then cfg else BitVec.ofNat 64 (setBits cfg.toNat 0 0 0)
    stripe := maskWrite 0 (imageWord image 3) stripeMask
    member := imageMembers image }

/-- PACKAGE_RESET. The boot record is held in the always-on domain. -/
def execPackageReset (passed : W16) (image : List Byte) (s : State) : Out :=
  let r := bootRecord s.host.bootRec passed
  let count := s.host.bootCount + 1
  let base : State := { State.reset with mem := s.mem.afterReset, agenda := s.agenda, turn := s.turn, free := s.free }
  .next (if staysInRom s.host.bootRec r then
    base.withHost { bootRec := (Vector.replicate 16 (0 : BitVec 2)).setIfInBounds 0 2, bootCount := count, linkUp := false }
  else
    let given := if stepOk r 0 then image else []
    let keyed := base.mem.loadKeys (imageKeys given)
    let m := if stepOk r 6 then keyed.bootTable given else keyed
    { base with mem := m, sys := bootSys r given, fab := bootFab r given count,
                host := { bootRec := r, bootCount := count, booted := true, linkUp := decide ((vget 0 r 5).toNat = 1) } })

/-! ## Registers written from outside the programs -/

/-- QCFG_WRITE: a failing check leaves QCFG as it was and stops K. -/
def execQcfgWrite (core q : Nat) (value : W64) (s : State) : Out :=
  .next (if q ≥ 16 then s
  else match s.writeQcfg core q value with
    | .ok s1 => s1
    | .error h => s.halted core .K h)

/-- LOOP_CSR_WRITE: fetch goes on under the new state. -/
def execLoopCsrWrite (core : Nat) (level : BitVec 3) (value : W64) (s : State) : Out :=
  let p := loopCsr (8 + level.toNat)
  .next (s.writeLoop core p.1 p.2 value)

/-- REGISTER_WRITE: an aligned store of 4 or 8 bytes to the control region. -/
def execRegisterWrite (pa size : Nat) (value : W64) (s : State) : Out :=
  .next (if isCtl pa && (size = 4 || size = 8) && decide (pa % size = 0) then
    (ctlWrite s pa size (value.toNat % 2 ^ (8 * size))).getD (s.ctlHold pa value.toNat) else s)

end Sys2Proof.Machine
end

