-- ==== Sys2Proof/Machine/KFlow.lean ====
section
/-! DEFINITION. K: branches, jumps, overlay calls, loops, fork and join (09 R238 to R244; 06 R151 to R155). -/

namespace Sys2Proof.Machine
open Sys2Proof

def execBCond (k : BitVec 3) (a b : BitVec 5) (o : BitVec 12) (s : State) : Out :=
  issuePlain .K (.ok ()) (pureEff (s.branch .K (condHolds k.toNat (s.regs.getX a.toNat) (s.regs.getX b.toNat)) o.toInt)) s

/-- Fetch has resolved it; at issue it does nothing further. -/
def execBrBq (_s _q : BitVec 1) (_o : BitVec 12) (s : State) : Out := issuePlain .K (.ok ()) (pureEff s) s

def fillsOf (c : Core) (a : Nat) : Nat := (c.frame (frameOf a)).fills.toNat

/-- The link word: the lane after the jump, with the fill count of the jump's own frame. -/
def State.linkWord (s : State) : W64 := BitVec.ofNat 64 (nextLane s.addr + fillsOf s.cc s.addr * 2 ^ 17)

/-- Write the link and go to a target. -/
def State.jump (s : State) (d : Nat) (t : Nat) : State := (s.putRegs (s.regs.setX d s.linkWord)).resolve .K (some t)

def needAligned (b : Bool) (t : W64) : Chk Unit := need b (.trap .align t)

def execJal (d : BitVec 5) (i : BitVec 20) (s : State) : Out :=
  issuePlain .K (.ok ()) (pureEff (s.jump d.toNat (s.laneTarget i.toInt))) s

def execJalr (d a : BitVec 5) (i : BitVec 15) (s : State) : Out :=
  issuePlain .K (.ok ()) (do
    let t := s.regs.getX a.toNat + trunc64 (4 * i.toInt)
    let n := t.toNat
    needAligned (decide (n < 2 ^ 32) && decide (n % 4 = 0)) t
    needOp (decide (bits n 31 17 = 0) || decide (bits n 31 17 = fillsOf s.cc n)) s.addr 0x15
    pureEff (s.jump d.toNat (n % 2 ^ 17))) s

/-- The resident frame of an overlay image: frame 0 first. -/
def Core.residentFrame (c : Core) (img : W64) : Option Nat :=
  if c.frame0.img = img && c.usable 0 then some 0 else if c.frame1.img = img && c.usable 1 then some 1 else none

def execOvlCall (d a : BitVec 5) (i : BitVec 15) (s : State) : Out :=
  issuePlain .K (needOp (decide (i.toNat < 16384)) s.addr 0x11) (
    match s.cc.residentFrame (s.regs.getX a.toNat) with
    | none => .error (.trap .illegalOp (BitVec.ofNat 64 (0x15 * 2 ^ 56 + s.addr)))
    | some f => pureEff (s.jump d.toNat (f * 0x10000 + 4 * i.toNat))) s

def execOvlRet (a : BitVec 5) (s : State) : Out :=
  issuePlain .K (.ok ()) (do
    let v := (s.regs.getX a.toNat).toNat
    needOp (decide (v < 2 ^ 32) && decide (bits v 31 17 = fillsOf s.cc v)) s.addr 0x15
    needAligned (decide (v % 4 = 0)) (BitVec.ofNat 64 (v % 2 ^ 17))
    pureEff (s.resolve .K (some (v % 2 ^ 17)))) s

def kLoop (count off : Nat) (s : State) : Out :=
  issuePlain .K (.ok ()) (do
    let s1 ← s.startLoop .K off count
    pureEff s1) s

def execLoop (a : BitVec 5) (e : BitVec 12) (s : State) : Out := kLoop (loopCountOf (s.regs.getX a.toNat)) e.toNat s

def execLoopImm (h l : BitVec 5) (e : BitVec 12) (s : State) : Out := kLoop (h.toNat * 32 + l.toNat) e.toNat s

/-- A stream that begins at its target once its queue has drained (06 R153). -/
def Cluster.forked (x : Cluster) (t : W64) : Cluster :=
  { x with fpc := BitVec.ofNat 17 t.toNat, jumped := true, xfers := [], goto := none, hold := true, joined := false }

def laneTargetOk (t : W64) : Bool := decide (t.toNat % 4 = 0) && decide (t.toNat < laneSpace)

def execFork (d a b : BitVec 5) (s : State) : Out :=
  issuePlain .K (needApart s false) (do
    let l := s.regs.getX d.toNat
    let k := s.regs.getX a.toNat
    let x := s.regs.getX b.toNat
    needAligned (laneTargetOk l) l
    needAligned (laneTargetOk k) k
    needAligned (laneTargetOk x) x
    let c := (s.resolve .K none).cc
    let c1 := { c with l := c.l.forked l, c := c.c.forked k, s := c.s.forked x, sys := { c.sys with apart := true } }
    pureEff (s.putCc c1)) s

/-- Joint fetch resumes at the lane after (06 R155). -/
def Cluster.rejoined (x : Cluster) : Cluster := { x with joined := false, xfers := [], hold := false }

def execJoin (s : State) : Out :=
  issuePlain .K (needApart s true) (do
    let c := (s.resolve .K none).cc
    need (c.l.joined && c.c.joined && c.s.joined) .wait
    let c1 := { c with l := c.l.rejoined, c := c.c.rejoined, s := c.s.rejoined, sys := { c.sys with apart := false } }
    pureEff (s.putCc c1)) s

end Sys2Proof.Machine
end

