-- ==== Sys2Proof/Machine/KMem.lean ====
section
/-! DEFINITION. K: scalar loads and stores, acquire loads and release stores, and the queue lanes (09 R236, R237, R245). -/

namespace Sys2Proof.Machine
open Sys2Proof

/-- Trunc64(X[a] + SignExtend(imm15) × n). -/
def kAddr (s : State) (a : BitVec 5) (i : BitVec 15) (n : Nat) : Nat := effAddr (s.regs.getX a.toNat) i.toInt n

def kLoad (d a : BitVec 5) (i : BitVec 15) (n : Nat) (isSigned : Bool) (s : State) : Out :=
  issuePlain .K (.ok ()) (loadScalar s .K (kAddr s a i n) n isSigned (fun v r => r.setX d.toNat v)) s

def kStore (d a : BitVec 5) (i : BitVec 15) (n : Nat) (s : State) : Out :=
  issuePlain .K (.ok ()) (storeScalar s .K (kAddr s a i n) n (s.regs.getX d.toNat)) s

def execLdB (d a : BitVec 5) (i : BitVec 15) (s : State) : Out := kLoad d a i 1 true s
def execLdBu (d a : BitVec 5) (i : BitVec 15) (s : State) : Out := kLoad d a i 1 false s
def execLdH (d a : BitVec 5) (i : BitVec 15) (s : State) : Out := kLoad d a i 2 true s
def execLdHu (d a : BitVec 5) (i : BitVec 15) (s : State) : Out := kLoad d a i 2 false s
def execLdW (d a : BitVec 5) (i : BitVec 15) (s : State) : Out := kLoad d a i 4 true s
def execLdWu (d a : BitVec 5) (i : BitVec 15) (s : State) : Out := kLoad d a i 4 false s
def execLdD (d a : BitVec 5) (i : BitVec 15) (s : State) : Out := kLoad d a i 8 false s
def execStB (d a : BitVec 5) (i : BitVec 15) (s : State) : Out := kStore d a i 1 s
def execStH (d a : BitVec 5) (i : BitVec 15) (s : State) : Out := kStore d a i 2 s
def execStW (d a : BitVec 5) (i : BitVec 15) (s : State) : Out := kStore d a i 4 s
def execStD (d a : BitVec 5) (i : BitVec 15) (s : State) : Out := kStore d a i 8 s

/-- The data effect of `ld.wu` or `ld.d` with offset 0. Its order is kept by performing every access at issue. -/
def execLdAcq (d a : BitVec 5) (z : BitVec 1) (_scope : BitVec 4) (s : State) : Out :=
  kLoad d a 0 (if z = 0 then 4 else 8) false s

def execStRel (a b : BitVec 5) (z : BitVec 1) (_scope : BitVec 4) (s : State) : Out :=
  kStore b a 0 (if z = 0 then 4 else 8) s

def execQpush (d a : BitVec 5) (s : State) : Out :=
  issue .K 0 (pushOk .K d.toNat false) [] [d.toNat]
    (fun _ => .ok { st := s, push := [(d.toNat, (s.regs.getX a.toNat).setWidth 2048)] }) s

def execQpop (d a : BitVec 5) (s : State) : Out :=
  issue .K 0 (popOk .K a.toNat) [a.toNat] []
    (fun vs => pureEff (s.putRegs (s.regs.setX d.toNat ((vs.headD 0).setWidth 64)))) s

end Sys2Proof.Machine
end

