-- ==== Sys2Proof/Machine/LAccess.lean ====
section
/-! DEFINITION. L: queue loads, gathers, scalar loads, address arithmetic, branch outcomes, cue lanes and control (10 R268 to R271,
R286 to R290). -/

namespace Sys2Proof.Machine
open Sys2Proof

/-! ## Queue loads (R268 to R270) -/

def lQueueLoad (c : BitVec 4) (t : BitVec 5) (b : BitVec 4) (o : BitVec 12) (back : Bool) (s : State) : Out :=
  let q := t.toNat
  let g := queueBytes q
  issue .L c.toNat (pushOk .L q (queueWide q)) [] [q] (fun _ => do
    let va := offAddr s .L b o g
    let (bs, s1) ← loadAt s .L .qload va g 8
    let s2 := if back then s1.putRegs (s1.regs.setLx b.toNat (BitVec.ofNat 64 va)) else s1
    .ok { st := s2, push := [(q, BitVec.ofNat 2048 (ofBytes bs))], flight := some .sync }) s

def execLdq (c : BitVec 4) (t : BitVec 5) (b : BitVec 4) (o : BitVec 12) (s : State) : Out := lQueueLoad c t b o false s
def execLdqWb (c : BitVec 4) (t : BitVec 5) (b : BitVec 4) (o : BitVec 12) (s : State) : Out := lQueueLoad c t b o true s

/-- The elements a strided load or a gather fetches, placed by position. -/
def lElements (s : State) (es base : Nat) (xs : List (Nat × Nat)) : Chk (Vec × State) := do
  let ps ← elemCheck s .L .qload es base (xs.map Prod.snd) true
  let got ← readElems s ps xs
  .ok (entryOf es got, s.cacheAll s.cc.ctx (ps.map Piece.va))

def execLdqS (c : BitVec 4) (d : BitVec 5) (a b : BitVec 4) (s : State) : Out :=
  let q := d.toNat
  issue .L c.toNat (pushOk .L q (queueWide q)) [] [q] (fun _ => do
    let base := s.regs.getLx a.toNat
    let es ← baseSize s .qload base.toNat
    let xs := (List.range (queueBytes q / es)).map fun j => (j, strideAddr base (s.regs.getLx b.toNat) es j)
    let (v, s1) ← lElements s es base.toNat xs
    .ok { st := s1, push := [(q, v)], flight := some .sync }) s

def execLdqG (c : BitVec 4) (d : BitVec 5) (a : BitVec 4) (t : BitVec 1) (s : State) : Out :=
  let q := d.toNat
  issue .L c.toNat (pushOk .L q true) [15] [q] (fun vs => do
    let base := s.regs.getLx a.toNat
    let es ← baseSize s .qload base.toNat
    let xs := indexed (decide (t = 1)) (vs.headD 0) base es (256 / es)
    let (v, s1) ← lElements s es base.toNat xs
    .ok { st := s1, push := [(q, v)], flight := some .sync }) s

/-! ## Scalar loads (R271) -/

def lScalarLoad (c : BitVec 4) (t : BitVec 5) (b : BitVec 4) (o : BitVec 12) (n : Nat) (isSigned : Bool) (s : State) : Out :=
  issue .L c.toNat (dstOk .L t.toNat) [] (dstQueues t.toNat) (fun _ => do
    let (bs, s1) ← loadAt s .L (.load n) (offAddr s .L b o n) n n
    let v := extendLoad n isSigned bs
    .ok { st := s1.dst .L t.toNat v, push := dstPush t.toNat v, flight := some .sync }) s

def execLLdB (c : BitVec 4) (t : BitVec 5) (b : BitVec 4) (o : BitVec 12) (s : State) : Out := lScalarLoad c t b o 1 true s
def execLLdBu (c : BitVec 4) (t : BitVec 5) (b : BitVec 4) (o : BitVec 12) (s : State) : Out := lScalarLoad c t b o 1 false s
def execLLdH (c : BitVec 4) (t : BitVec 5) (b : BitVec 4) (o : BitVec 12) (s : State) : Out := lScalarLoad c t b o 2 true s
def execLLdHu (c : BitVec 4) (t : BitVec 5) (b : BitVec 4) (o : BitVec 12) (s : State) : Out := lScalarLoad c t b o 2 false s
def execLLdW (c : BitVec 4) (t : BitVec 5) (b : BitVec 4) (o : BitVec 12) (s : State) : Out := lScalarLoad c t b o 4 true s
def execLLdWu (c : BitVec 4) (t : BitVec 5) (b : BitVec 4) (o : BitVec 12) (s : State) : Out := lScalarLoad c t b o 4 false s
def execLLdD (c : BitVec 4) (t : BitVec 5) (b : BitVec 4) (o : BitVec 12) (s : State) : Out := lScalarLoad c t b o 8 false s

/-! ## Arithmetic (R286) -/

def execLAdd (c : BitVec 4) (d : BitVec 5) (a b : BitVec 4) (q : BitVec 1) (s : State) : Out := lsArith .L c d a b q (fun x y => x + y) s
def execLSub (c : BitVec 4) (d : BitVec 5) (a b : BitVec 4) (q : BitVec 1) (s : State) : Out := lsArith .L c d a b q (fun x y => x - y) s
def execLMul (c : BitVec 4) (d : BitVec 5) (a b : BitVec 4) (q : BitVec 1) (s : State) : Out := lsArith .L c d a b q (fun x y => x * y) s
def execLAddi (c : BitVec 4) (d : BitVec 5) (a : BitVec 4) (i : BitVec 8) (s : State) : Out := lsOne .L c d a (fun x => x + trunc64 i.toInt) s
def execLSlli (c : BitVec 4) (d : BitVec 5) (a : BitVec 4) (i : BitVec 6) (s : State) : Out := lsOne .L c d a (fun x => sllOp x i.toNat) s
def execLSrli (c : BitVec 4) (d : BitVec 5) (a : BitVec 4) (i : BitVec 6) (s : State) : Out := lsOne .L c d a (fun x => srlOp x i.toNat) s

/-- A branch outcome into bq0 (R287). -/
def execLaCmp (c a b : BitVec 4) (k : BitVec 3) (s : State) : Out :=
  issue .L c.toNat (.ok ()) [] [13] (fun _ =>
    .ok { st := s, push := [(13, (boolW (condHolds k.toNat (s.regs.getLx a.toNat) (s.regs.getLx b.toNat))).setWidth 2048)] }) s

/-! ## Cue lanes and control (R288 to R290) -/

def execLCueTest (d : BitVec 4) (s : State) : Out := lsCueTest .L d s
def execLCueNop (c : BitVec 4) (s : State) : Out := lsCueNop .L c s

def execLBCond (c : BitVec 4) (k : BitVec 3) (o : BitVec 10) (a b : BitVec 4) (s : State) : Out :=
  lsBranch .L c k o.toInt (s.regs.getLx a.toNat) (s.regs.getLx b.toNat) s

def execLLoop (c : BitVec 4) (e : BitVec 13) (a : BitVec 4) (s : State) : Out := lsLoop .L c e.toNat (s.regs.getLx a.toNat) s
def execLJoin (c : BitVec 4) (s : State) : Out := lsJoin .L c s

end Sys2Proof.Machine
end

