-- ==== Sys2Proof/Machine/Matrix.lean ====
section
/-! DEFINITION. C: the matrix commands, `mlease`, `mrel` and `mstat` (12 R319 to R337), and what a command does when it completes. -/

namespace Sys2Proof.Machine
open Sys2Proof

/-! ## Commands and the lease (R320 to R324) -/

def MCmd.op (m : MCmd) : Nat := bits m.word.toNat 27 21
def MCmd.slot (m : MCmd) : Nat := bits m.word.toNat 20 18
/-- The k-length of a code (08 R207). -/
def kLength (k : Nat) : Nat := 64 * 2 ^ k
def MCmd.kl (m : MCmd) : Nat := kLength (bits m.word.toNat 8 6)

/-- An `mrel` of the core is not complete: a lease command waits for it. DEDUCED (log 78). -/
def releasing (c : Core) : Bool := c.cmds.any fun m => m.op = 0x51

/-- A command issues in HELD, waits in PENDING and LOST, and raises LEASE in NONE; a lease at its bound is re-arbitrated first
(R323; 06 R165). -/
def leaseCheck (s : State) : Chk Unit := do
  let c := s.cc
  let b := s.bay (bayOfCore s.curCore)
  need (!releasing c) .wait
  need (decide (c.lease ≠ .none)) (.trap .lease (BitVec.ofNat 64 (s.addr % 2 ^ 17)))
  need (decide (c.lease = .held) && !b.boundHit && decide (b.boundCmds < 64) && decide (c.cmds.length < 15)) .wait

/-- A new command's parts that every command has. -/
def newCmd (s : State) : MCmd :=
  let x := s.cluster s.curCore .C
  { flight := x.flightNo, iseq := x.iseq, word := s.cur.word, addr := s.cur.addr, sv := s.cc.sys.sv }

/-- The command is handed to the array: it counts against the bound, and a leaf-bearing one takes its place in C's tree (R337). -/
def State.putCmd (s : State) (m : MCmd) : State :=
  let b := bayOfCore s.curCore
  let c := s.cc
  let c1 := { c with cmds := c.cmds ++ [m] }
  let leafy := decide (0x52 ≤ m.op) && decide (m.op ≤ 0x58)
  (s.putCc (if leafy then c1.holdLeaf .C m.flight s.cur.place [] else c1)).putBay b
    { s.bay b with boundCmds := (s.bay b).boundCmds + (if m.op = 0x51 then 0 else 1) }

/-- A matrix command: the lease, then what `prep` checks and reads, then its issue. -/
def matrixLane (c : BitVec 4) (prep : Chk (State × MCmd)) (s : State) : Out :=
  issue .C c.toNat (.ok ()) [] [] (fun _ => do
    leaseCheck s
    let (s1, m) ← prep
    .ok { st := s1.putCmd m, flight := some .matrix, watch := m.watch }) s

def execMlease (c : BitVec 4) (s : State) : Out :=
  issue .C c.toNat (.ok ()) [] [] (fun _ => do
    need (!releasing s.cc) .wait
    match s.cc.lease with
    | .held => pureEff s
    | .none =>
      let s1 := (s.putCc { s.cc with lease := .pending }).grantArray (bayOfCore s.curCore)
      let k := s1.cc
      if k.lease = .held then pureEff s1
      else .ok { st := s1.putCc { k with leaseFlights := k.leaseFlights ++ [k.c.flightNo] }, flight := some .lease }
    | _ => .ok { st := s.putCc { s.cc with leaseFlights := s.cc.leaseFlights ++ [s.cc.c.flightNo] }, flight := some .lease }) s

def execMrel (c : BitVec 4) (s : State) : Out :=
  issue .C c.toNat (.ok ()) [] [] (fun _ => do
    need (!releasing s.cc) .wait
    .ok { st := s.putCmd (newCmd s), flight := some .matrix }) s

/-- Bit i is set when every row of acc i carries the running context's tag. -/
def slotOwn (c : Core) : Nat :=
  (List.range 6).foldl (fun a k =>
    if (List.range 128).all (fun r => (Map.get {} c.acc (k * 128 + r)).tag = c.ctx) then a + 2 ^ k else a) 0

/-- The status word of `mstat`. -/
def leaseWord (s : State) : W64 :=
  let c := s.cc
  let b := s.bay (bayOfCore s.curCore)
  let held := decide (c.lease = .held)
  let cyc := if held then 8192 - (s.sys.pkgCycle.toNat - b.boundStart) else 0
  let cmd := if held then 64 - b.boundCmds else 0
  BitVec.ofNat 64 (cyc * 2 ^ 32 + cmd * 2 ^ 24 + (min c.cmds.length 15) * 2 ^ 20 + slotOwn c * 2 ^ 8 + leaseCode c.lease)

def execMstat (c d : BitVec 4) (s : State) : Out :=
  issue .C c.toNat (need (!s.cc.det) (.trap .nondet 0)) [] [] (fun _ =>
    pureEff (s.putRegs (s.regs.setCx d.toNat (leaseWord s)))) s

/-! ## Operands (R325 to R327) -/

def isSb (fmt : Nat) : Bool := fmt = fmtSb8 || fmt = fmtSb4
def elemBits (fmt : Nat) : Nat := if fmt = fmtF32 then 32 else if fmt = fmtSb8 then 8 else if fmt = fmtSb4 then 4 else 16
def matFormat (fmt : Nat) : Bool := fmt = fmtF32 || fmt = fmtBf16 || fmt = fmtF16 || isSb fmt

def rowPitch (g : W64) : Nat := bits g.toNat 15 0
def tilePitch (g : W64) : Int := signed 20 (bits g.toNat 35 16)

/-- A geometry word with its reserved bits zero and a row pitch of at least 1. -/
def checkGeometry (s : State) (g : W64) : Chk Unit :=
  needOp (decide (bits g.toNat 63 39 = 0) && decide (rowPitch g ≠ 0)) s.addr 0x11

def rowStart (base g : W64) (i : Nat) : Nat := (base + BitVec.ofNat 64 (64 * i * rowPitch g)).toNat

/-- base + 64 × SignExtend(TILEP). -/
def nextTile (base g : W64) : W64 := base + trunc64 (64 * tilePitch g)

/-- What an operand's rows reach: their data in units of 64 bytes, and the scale byte of each of their blocks. `pathBad` : its base breaks the path
that the other operand chooses (07 R182); `geoBad` : its blocks are longer than a row that a drain writes (R334). `known` : the pages that
the command has found (01 R20). -/
structure RowPlan where
  base : W64
  geom : W64
  fmt : Nat
  geo : Nat
  rows : Nat
  bytes : Nat
  blocks : Nat
  pathBad : Bool := false
  geoBad : Bool := false
  known : List Page := []

def RowPlan.starts (r : RowPlan) : List Nat := (List.range r.rows).map fun i => rowStart r.base r.geom i
def RowPlan.units (r : RowPlan) : Nat := ceilDiv r.bytes 64
def RowPlan.dataVas (r : RowPlan) : List Nat := r.starts.flatMap fun v => (List.range r.units).map fun k => v + 64 * k
def RowPlan.scaleVas (r : RowPlan) : List Nat :=
  r.starts.flatMap fun v => (List.range r.blocks).map fun k => scaleAddress v r.fmt r.geo + k
def RowPlan.ranges (r : RowPlan) : List (Nat × Nat) := r.starts.map (fun v => (v, r.bytes)) ++ r.scaleVas.map fun v => (v, 1)

/-- The block size of an SB format in bytes. -/
def blockBytes (fmt geo : Nat) : Nat := blockLen geo * elemBits fmt / 8

/-- Rows of an operand of k positions. -/
def operandPlan (base geom : W64) (fmt geo rows kl : Nat) : RowPlan :=
  { base := base, geom := geom, fmt := fmt, geo := geo, rows := rows, bytes := kl * elemBits fmt / 8,
    blocks := if isSb fmt then ceilDiv kl (blockLen geo) else 0 }

/-- The format and geometry of the page that a base lies in, where it has them. -/
def basePage (s : State) (known : List Page) (base : W64) : Option (Nat × Nat) :=
  match findWithin s s.cc.ctx known base.toNat with
  | .error _ => none
  | .ok p => if base.toNat ≥ 2 ^ 56 || (leafFormat base.toNat p.leaf).isSome then none else some (leafFmt p.leaf, leafGeo p.leaf)

/-- Rows of k positions from a base, in the format of its page; of a base without one, the base alone. -/
def rowPlan (s : State) (known : List Page) (base geom : W64) (rows kl : Nat) : RowPlan :=
  match basePage s known base with
  | some (fmt, geo) => operandPlan base geom fmt geo rows kl
  | none => { base := base, geom := geom, fmt := 0, geo := 0, rows := 1, bytes := 1, blocks := 0 }

/-- The plan of an operand, with the pages of the command so far and its own. -/
def planOf (s : State) (known : List Page) (base geom : W64) (rows kl : Nat) : RowPlan :=
  let r := rowPlan s known base geom rows kl
  { r with known := knowPages s s.cc.ctx known (base.toNat :: r.dataVas ++ r.scaleVas) }

/-- Results in order, or the failure at the lowest address (01 R34). -/
def lowestError {α : Type} : List (Nat × Chk α) → Option (Nat × Halt)
  | [] => none
  | (_, .ok _) :: rest => lowestError rest
  | (va, .error h) :: rest =>
    match lowestError rest with
    | some (v, g) => if v < va then some (v, g) else some (va, h)
    | none => some (va, h)

def allOk {α : Type} (xs : List (Nat × Chk α)) : Chk (List α) :=
  match lowestError xs with
  | some (_, h) => .error h
  | none => .ok (xs.filterMap fun x => x.2.toOption)

/-- Rows of k values each. -/
def rowsOf {α : Type} (k : Nat) : Nat → List α → List (List α)
  | 0, _ => []
  | n + 1, xs => xs.take k :: rowsOf k n (xs.drop k)

/-- The checks of one unit of a row (R321; 01 R35): the page, its format, that of the operand's base, the pair's path, the row's start on a block
boundary, and then the rest of the page's. DESIGN CHOICE (log 80). -/
def matUnit (s : State) (path : Path) (ok : Nat → Bool) (r : RowPlan) (va : Nat) : Chk Place :=
  let c := s.cc
  if va ≥ 2 ^ 56 then badTrans 0x01 va
  else match findWithin s c.ctx r.known va with
  | .error (.sub n) => badTrans n va
  | .error (.poison pa) => .error (.poison c.ctx pa)
  | .ok p =>
    match leafFormat va p.leaf with
    | some sub => badFormat sub va
    | none =>
      if !ok (leafFmt p.leaf) || leafFmt p.leaf ≠ r.fmt || leafGeo p.leaf ≠ r.geo || (r.pathBad && decide (va = r.base.toNat)) then badFormat 0x22 va
      else if r.geoBad || (isSb r.fmt && r.starts.contains va && decide (va % blockBytes r.fmt r.geo ≠ 0)) then badFormat 0x21 va
      else checkPage s c.ctx c.sys.sv path anyFmt va p

/-- Every page that some operands touch is checked, and the fault at the lowest address is reported (01 R34); the slice must be awake; the watch
regions' read matches come last. -/
def resolveRows (s : State) (path : Path) (ok : Nat → Bool) (agent : Nat) (reads : Bool) (rs : List RowPlan) : Chk (List Rows) := do
  let c := s.cc
  let data := rs.map fun r => r.dataVas.map fun va => (va, matUnit s path ok r va)
  let scales := rs.map fun r => r.scaleVas.map fun va => (va, translateScale s c.ctx c.sys.sv path r.known va)
  let _ ← allOk (data.flatten ++ scales.flatten)
  awake s (bayOfCore s.curCore * Config.sliceSize)
  if reads then watchRead s s.curCore .C agent (rs.flatMap RowPlan.ranges)
  let pas (xs : List (Nat × Chk Place)) : List Nat := xs.filterMap fun x => x.2.toOption.map Place.pa
  .ok ((rs.zip (data.zip scales)).map fun p =>
    { base := p.1.base, geom := p.1.geom, fmt := p.1.fmt, geo := p.1.geo, pas := rowsOf p.1.units p.1.rows (pas p.2.1),
      scales := rowsOf p.1.blocks p.1.rows (pas p.2.2) })

def matPath (s : State) : Path := .matRead (bayOfCore s.curCore)

/-- The translations of some plans, kept cached. -/
def State.cacheRows (s : State) (rs : List RowPlan) : State := s.cacheAll s.cc.ctx (rs.flatMap fun r => r.dataVas ++ r.scaleVas)

def checkAligned (bases : List W64) : Chk Unit := do
  let _ ← allOk (bases.map fun b => (b.toNat, if b.toNat % 64 = 0 then (.ok () : Chk Unit) else badAlign b.toNat))
  .ok ()

/-- The pairing of R182: both residue or both float; else the plan of B breaks the path. -/
def RowPlan.paired (r : RowPlan) (fa : Nat) : RowPlan :=
  { r with pathBad := matFormat fa && matFormat r.fmt && !(isSb fa == isSb r.fmt) }

/-! ## The issue of each command -/

def pairBase (s : State) (n : Nat) : W64 := s.regs.getCx (2 * n)
def pairGeom (s : State) (n : Nat) : W64 := s.regs.getCx (2 * n + 1)

/-- Post-increment of a pair's base. -/
def State.advance (s : State) (b : Bool) (n : Nat) (base geom : W64) : State :=
  if b then s.putRegs (s.regs.setCx (2 * n) (nextTile base geom)) else s

def execMma (c : BitVec 4) (_d a b : BitVec 3) (i j u : BitVec 1) (k : BitVec 3) (s : State) : Out :=
  let pa := a.toNat
  let pb := b.toNat
  matrixLane c (do
    let gA := pairGeom s pa
    let gB := pairGeom s pb
    let bA := pairBase s pa
    let bB := pairBase s pb
    let kl := kLength k.toNat
    checkGeometry s gA
    checkGeometry s gB
    checkAligned [bA, bB]
    let ra := planOf s [] bA gA (if u = 1 then 64 else 128) kl
    let rb := (planOf s ra.known bB gB 128 kl).paired ra.fmt
    let rows ← resolveRows s (matPath s) matFormat agentOperand true [ra, rb]
    let s1 := (s.cacheRows [ra, rb]).advance (i = 1) pa bA gA
    let s2 := s1.advance (decide (j = 1) && !(decide (i = 1) && decide (pb = pa))) pb bB gB
    .ok (s2, { newCmd s with a := rows[0]?, b := rows[1]? })) s

/-- The page format of `mma.v`'s AFMT (15 R396). -/
def vFormat (f : Nat) : Nat := [fmtSb8, fmtSb4, fmtBf16, fmtF16, fmtF32].getD f fmtF32

def execMmaV (c : BitVec 4) (_d g b : BitVec 3) (j : BitVec 1) (k f _e : BitVec 3) (s : State) : Out :=
  let pb := b.toNat
  matrixLane c (do
    let fa := vFormat f.toNat
    let gB := pairGeom s pb
    let bB := pairBase s pb
    let regs := (List.range (if isSb fa then 9 else 8)).map fun r => 8 * g.toNat + r
    checkGeometry s gB
    checkAligned [bB]
    let rb := (planOf s [] bB gB 128 (kLength k.toNat)).paired fa
    let rows ← resolveRows s (matPath s) matFormat agentOperand true [rb]
    vFree s.cc regs
    .ok ((s.cacheRows [rb]).advance (j = 1) pb bB gB, { newCmd s with b := rows[0]?, regs := regs.map s.regs.getV })) s

def execMzero (c : BitVec 4) (_d : BitVec 3) (s : State) : Out := matrixLane c (.ok (s, newCmd s)) s
def execMacc (c : BitVec 4) (_d _a _b : BitVec 3) (s : State) : Out := matrixLane c (.ok (s, newCmd s)) s

/-- The page format and the row bytes of a drain. -/
def drainFormat (f : Nat) : Nat := if f = 0 then fmtF32 else if f = 1 then fmtBf16 else fmtSb8
def drainBytes (f : Nat) : Nat := if f = 0 then 512 else if f = 1 then 256 else 128

def execMdrain (c : BitVec 4) (_d a : BitVec 3) (i : BitVec 1) (f : BitVec 2) (r : BitVec 1) (s : State) : Out :=
  let p := a.toNat
  let want := drainFormat f.toNat
  let path : Path := .matDrain (bayOfCore s.curCore)
  let ok := fun x => decide (x = want)
  matrixLane c (do
    let g := pairGeom s p
    let b := pairBase s p
    checkGeometry s g
    needOp (decide (drainBytes f.toNat ≤ 64 * rowPitch g)) s.addr 0x11
    checkAligned [b]
    let q := planOf s [] b g (if r = 1 then 64 else 128) 128
    let plan : RowPlan := { q with bytes := if q.fmt = want then drainBytes f.toNat else 1, geoBad := isSb q.fmt && decide (q.geo = 4) }
    let rows ← resolveRows s path ok agentDrain false [plan]
    let w := watchWrite s s.curCore .C agentDrain plan.ranges
    .ok ((s.cacheRows [plan]).advance (i = 1) p b g, { newCmd s with a := rows[0]?, watch := w })) s

def execMload (c : BitVec 4) (_d a : BitVec 3) (i r : BitVec 1) (s : State) : Out :=
  let p := a.toNat
  let ok := fun x => decide (x = fmtF32)
  matrixLane c (do
    let g := pairGeom s p
    let b := pairBase s p
    checkGeometry s g
    checkAligned [b]
    let plan := planOf s [] b g (if r = 1 then 64 else 128) 128
    let rows ← resolveRows s (matPath s) ok agentOperand true [plan]
    .ok ((s.cacheRows [plan]).advance (i = 1) p b g, { newCmd s with a := rows[0]? })) s

/-- The row a row register names. -/
def rowIndex (s : State) (r : Nat) : Chk Nat := do
  let x := (s.regs.getCx r).toNat
  needOp (decide (x ≤ 127)) s.addr 0x11
  .ok x

def execMpatch (c : BitVec 4) (_d r : BitVec 3) (v : BitVec 5) (p : BitVec 3) (_h : BitVec 1) (s : State) : Out :=
  matrixLane c (do
    let row ← rowIndex s r.toNat
    vFree s.cc [v.toNat]
    .ok (s, { newCmd s with row := row, pred := s.regs.getP p.toNat, regs := [s.regs.getV v.toNat] })) s

def execMpeek (c : BitVec 4) (_d r : BitVec 3) (_v : BitVec 5) (p : BitVec 3) (_h : BitVec 1) (s : State) : Out :=
  matrixLane c (do
    let row ← rowIndex s r.toNat
    .ok (s, { newCmd s with row := row, pred := s.regs.getP p.toNat })) s

/-! ## The arithmetic of a command (R328, R331; 07 R182 to R188) -/

/-- One row of an operand: its elements as bits, and its scale bytes. -/
structure MRow where
  elems : List Nat
  scales : List Nat

/-- An operand as read: format, block length, rows. -/
structure MOperand where
  fmt : Nat
  len : Nat
  rows : List MRow

/-- Products of equal positions. -/
def products (fmtA fmtB : Nat) (a b : List Nat) : List (Int × Int) :=
  (a.zip b).map fun p => (signed (elemBits fmtA) p.1, signed (elemBits fmtB) p.2)

/-- The sub-blocks of one output element, ascending (07 R183). -/
def subBlocks (x y : MOperand) (a b : MRow) (kl : Nat) : List SubBlock :=
  let len := min x.len y.len
  (List.range (ceilDiv kl len)).map fun t =>
    let k0 := t * len
    { prods := products x.fmt y.fmt ((a.elems.drop k0).take len) ((b.elems.drop k0).take len),
      sA := a.scales.getD (k0 / x.len) 0, sB := b.scales.getD (k0 / y.len) 0 }

def pageFloat (fmt : Nat) : FFmt := if fmt = fmtF32 then F32 else if fmt = fmtBf16 then FBf16 else F16

/-- Chunk(path, A[i], B[j], KL). -/
def chunkOf (x y : MOperand) (kl : Nat) (a b : MRow) : Nat :=
  if isSb x.fmt then residueChunk (subBlocks x y a b kl)
  else floatChunk ((a.elems.zip b.elems).map fun p => ((pageFloat x.fmt).decode p.1, (pageFloat y.fmt).decode p.2))

/-- A slot row of 128 values. -/
def slotRow (xs : List Nat) : BitVec 4096 := BitVec.ofNat 4096 (joinNat 32 xs)
def slotElem (r : BitVec 4096) (j : Nat) : Nat := elemAt 32 r.toNat j
def slotValues (r : BitVec 4096) : List Nat := elemsOf 32 128 r.toNat

/-- The rows of the result, the rest +0. -/
def matrixRows (x y : MOperand) (kl : Nat) : List (BitVec 4096) :=
  x.rows.map fun a => slotRow (y.rows.map fun b => chunkOf x y kl a b)

/-! ## Reading and writing at completion -/

/-- Bytes at an address, those already seen as they were read then (07 R187). -/
def seenOr (seen : List Host.Cell) (pa : Nat) (bs : List Byte) : List Byte :=
  bs.zipIdx.map fun b => ((seen.find? fun c => c.1 = pa + b.2).map Prod.snd).getD b.1

/-- Bytes at a row's units. -/
def readUnits (s : State) (ctx : W16) (seen : List Host.Cell) : List Nat → Nat → Chk (List Byte)
  | [], _ => .ok []
  | pa :: rest, n =>
    match s.mem.read ctx 0 pa (min 64 n) with
    | none => .error (.poison ctx (s.mem.badLine ctx pa (min 64 n)))
    | some bs => do
      let more ← readUnits s ctx seen rest (n - 64)
      .ok (seenOr seen pa bs ++ more)

def readBytesAt (s : State) (ctx : W16) (seen : List Host.Cell) : List Nat → Chk (List Byte)
  | [] => .ok []
  | pa :: rest =>
    match s.mem.read ctx 0 pa 1 with
    | none => .error (.poison ctx (lineOf pa))
    | some bs => do
      let more ← readBytesAt s ctx seen rest
      .ok (seenOr seen pa bs ++ more)

def readRows (s : State) (ctx : W16) (seen : List Host.Cell) (n : Nat) : List (List Nat) → Chk (List (List Byte))
  | [] => .ok []
  | pas :: rest => do
    let bs ← readUnits s ctx seen pas n
    let more ← readRows s ctx seen n rest
    .ok (bs :: more)

def readScales (s : State) (ctx : W16) (seen : List Host.Cell) : List (List Nat) → Chk (List (List Byte))
  | [] => .ok []
  | pas :: rest => do
    let bs ← readBytesAt s ctx seen pas
    let more ← readScales s ctx seen rest
    .ok (bs :: more)

/-- An operand read for a chunk, and the bytes its digest covers: every row, then the scales (15 R398). -/
def readOperand (s : State) (ctx : W16) (seen : List Host.Cell) (r : Rows) (kl : Nat) : Chk (MOperand × List Byte) := do
  let w := elemBits r.fmt
  let data ← readRows s ctx seen (kl * w / 8) r.pas
  let scales ← readScales s ctx seen r.scales
  let row (i : Nat) (bs : List Byte) : MRow := { elems := elemsOf w kl (ofBytes bs), scales := (scales.getD i []).map BitVec.toNat }
  .ok ({ fmt := r.fmt, len := blockLen r.geo, rows := data.zipIdx.map fun p => row p.2 p.1 }, data.flatten ++ scales.flatten)

/-- The A operand of `mma.v` from the registers it copied. -/
def vectorOperand (m : MCmd) : MOperand × List Byte :=
  let fmt := vFormat (bits m.word.toNat 5 3)
  let geo := bits m.word.toNat 2 0
  let w := elemBits fmt
  let n := m.kl * w / 8
  let blocks := if isSb fmt then ceilDiv m.kl (blockLen geo) else 0
  let sc := m.regs.getD 8 0
  let scales (r : Nat) : List Nat := (List.range blocks).map fun b => vbyte sc (16 * r + b)
  let rows := (List.range 8).map fun r => (r, m.regs.getD r 0)
  ({ fmt := fmt, len := blockLen geo, rows := rows.map fun p => { elems := elemsOf w m.kl p.2.toNat, scales := scales p.1 } },
   rows.flatMap (fun p => bytesOf n p.2.toNat) ++ rows.flatMap fun p => (scales p.1).map fun x => BitVec.ofNat 8 x)

/-- A slot written whole: 128 rows with the context's tag; rows that are not given are +0. -/
def Core.putSlot (c : Core) (ctx : W16) (slot : Nat) (rows : List (BitVec 4096)) : Core :=
  { c with acc := (List.range 128).foldl (fun a i =>
      Map.put {} a (slot * 128 + i) { tag := ctx, data := rows.getD i 0 }) c.acc }

def Core.putRow (c : Core) (ctx : W16) (slot row : Nat) (v : BitVec 4096) : Core :=
  { c with acc := Map.put {} c.acc (slot * 128 + row) { tag := ctx, data := v } }

def slotRows128 (c : Core) (ctx : W16) (slot : Nat) : List (BitVec 4096) := (List.range 128).map fun r => (c.accRow ctx slot r).data

def rowsBytes (rs : List (BitVec 4096)) : List Byte := rs.flatMap fun r => bytesOf 512 r.toNat

/-- Element (i, j) of `macc`. -/
def addRows (a b : BitVec 4096) : BitVec 4096 := slotRow ((List.range 128).map fun j => fadd32 (slotElem a j) (slotElem b j))

/-- One row of a drain: its data bytes and its scale bytes. -/
def drainRow (f geo : Nat) (r : BitVec 4096) : List Byte × List Byte :=
  let xs := slotValues r
  if f = 0 then (bytesOf 512 r.toNat, [])
  else if f = 1 then (xs.flatMap fun x => bytesOf 2 (FBf16.round (f32 x)), [])
  else
    let blocks := rowsOf (blockLen geo) (128 / blockLen geo) xs
    let scales := blocks.map fun b => sbScale 127 b
    ((blocks.zip scales).flatMap fun p => p.1.map fun x => BitVec.ofNat 8 (intBits 8 (sbQuant 8 x p.2)),
     scales.map fun x => BitVec.ofNat 8 x)

def writeUnits (m : Memory) (ctx : W16) : List Nat → List Byte → Memory
  | [], _ => m
  | pa :: rest, bs => writeUnits (m.write ctx 0 pa (bs.take 64)) ctx rest (bs.drop 64)

/-- Bytes that follow one another within an 8-byte unit are written as one event (R334; 03 R74). -/
def joinBytes : List (Nat × Byte) → List (Nat × List Byte)
  | [] => []
  | (pa, b) :: rest =>
    match joinBytes rest with
    | (q, bs) :: more => if q = pa + 1 ∧ q % 8 ≠ 0 then (pa, b :: bs) :: more else (pa, [b]) :: (q, bs) :: more
    | [] => [(pa, [b])]

/-- Scale bytes written unit by unit; a unit that covers part of a poisoned word is not (02 R44). -/
def writeScales (m : Memory) (ctx : W16) (xs : List (Nat × List Byte)) : Memory :=
  xs.foldl (fun m x => if m.writeBlocked ctx x.1 x.2.length then m else m.write ctx 0 x.1 x.2) m

/-- The line at which a scale byte cannot be written. -/
def scaleBlocked (m : Memory) (ctx : W16) (xs : List (Nat × List Byte)) : Option Nat :=
  (xs.find? fun x => m.writeBlocked ctx x.1 x.2.length).map fun x => m.blockedLine ctx x.1 x.2.length

/-- A poisoned slot row leaves the lines that it feeds poisoned (02 R66). -/
def feedPoison (m : Memory) (ctx : W16) (pas : List Nat) (poison : Bool) : Memory :=
  if poison then pas.foldl (fun m pa => m.poisonRange ctx pa 1) m else m

/-! ## Completion (R320, R330, R334 to R337) -/

/-- The slot rows a command reads. -/
def slotReads (m : MCmd) : List (Nat × Nat) :=
  let all (k : Nat) : List (Nat × Nat) := (List.range 128).map fun r => (k, r)
  match m.op with
  | 0x55 => all (bits m.word.toNat 17 15) ++ all (bits m.word.toNat 14 12)
  | 0x56 => (all m.slot).take (if bit m.word.toNat 6 then 64 else 128)
  | 0x58 => [(m.slot, m.row)]
  | 0x59 => [(m.slot, m.row)]
  | _ => []

def slotOperand (slot : Nat) (bs : List Byte) : Operand := { addr := 2 ^ 63 + slot, digest := blake3 bs }
def rowsOperand (r : Rows) (bs : List Byte) : Operand := { addr := r.base.toNat, geom := r.geom.toNat, digest := blake3 bs }

/-- MODE of a matrix command's leaf: result, B and A as (geometry, format). -/
def matrixMode (c : Core) (m : MCmd) (us : Bool) (r b a : Nat × Nat) : Nat :=
  modeWord m.sv us (match c.sys.task with
    | some t => t.tt
    | none => false) c.det r.1 r.2 b.1 b.2 a.1 a.2

/-- DEDUCED (log 62). -/
def leafOf (s : State) (n : Nat) (m : MCmd) (mode : Nat) (param : List Byte) (a b res : Operand) : List Byte :=
  ({ taskLeaf s n .C 1 m.iseq m.word m.sv with mode := mode, param := param, a := a, b := b, res := res }).bytes

def noParam : List Byte := List.replicate 64 0
def slotPage : Nat × Nat := (0, fmtF32)

def onRows {α : Type} (r : Option Rows) (f : Rows → Chk α) : Chk α :=
  match r with
  | some r => f r
  | none => .error .wait

/-- The rows of a result, with the element that a cell of the array got wrong (20 R455). -/
def MCmd.cells (m : MCmd) (rows : List (BitVec 4096)) : List (BitVec 4096) :=
  match m.wrong with
  | none => rows
  | some (i, j, v) => rows.zipIdx.map fun p =>
    if p.2 = i then slotRow ((List.range 128).map fun k => if k = j then canon32 v.toNat else slotElem p.1 k) else p.1

/-- A multiply: the slot it fills and its leaf. -/
def completeMultiply (s : State) (n : Nat) (m : MCmd) (x : MOperand) (ageo : Nat) (a : Operand) : Chk (State × List (List Byte)) :=
  onRows m.b fun rb => do
    let c := s.core n
    let (y, bb) ← readOperand s c.ctx m.seen rb m.kl
    let rows := m.cells (matrixRows x y m.kl)
    let c1 := c.putSlot c.ctx m.slot rows
    let us := decide (m.op = 0x52) && bit m.word.toNat 9
    let mode := matrixMode c m us slotPage (rb.geo, rb.fmt) (ageo, x.fmt)
    .ok (s.putCore n c1, [leafOf s n m mode noParam a (rowsOperand rb bb) (slotOperand m.slot (rowsBytes (slotRows128 c1 c.ctx m.slot)))])

/-- The half of a row that a patch or a peek names. -/
def halfOf (m : MCmd) : Nat := boolNat (bit m.word.toNat 3)

def patchRow (m : MCmd) (old : BitVec 4096) : BitVec 4096 :=
  let v := m.regs.headD 0
  slotRow ((List.range 128).map fun j =>
    let k := j - 64 * halfOf m
    if j / 64 = halfOf m ∧ bit m.pred.toNat k then canon32 (vlane v k) else slotElem old j)

/-- What a command writes and its leaf, or the poison it meets. -/
def matrixEffect (s : State) (n : Nat) (m : MCmd) : Chk (State × List (List Byte)) :=
  let c := s.core n
  let ctx := c.ctx
  let w := m.word.toNat
  match m.op with
  | 0x52 => onRows m.a fun ra => do
    let (x, ab) ← readOperand s ctx m.seen ra m.kl
    completeMultiply s n m x ra.geo (rowsOperand ra ab)
  | 0x53 =>
    let (x, ab) := vectorOperand m
    completeMultiply s n m x (bits w 2 0) { addr := 2 ^ 62 + 8 * bits w 17 15, digest := blake3 ab }
  | 0x54 =>
    let c1 := c.putSlot ctx m.slot []
    .ok (s.putCore n c1, [leafOf s n m (matrixMode c m false slotPage (0, 0) (0, 0)) noParam noOperand noOperand
      (slotOperand m.slot (rowsBytes (slotRows128 c1 ctx m.slot)))])
  | 0x55 =>
    let ka := bits w 17 15
    let kb := bits w 14 12
    let a := slotRows128 c ctx ka
    let b := slotRows128 c ctx kb
    let rows := (a.zip b).map fun p => addRows p.1 p.2
    .ok (s.putCore n (c.putSlot ctx m.slot rows), [leafOf s n m (matrixMode c m false slotPage slotPage slotPage) noParam
      (slotOperand ka (rowsBytes a)) (slotOperand kb (rowsBytes b)) (slotOperand m.slot (rowsBytes rows))])
  | 0x56 => onRows m.a fun ra => do
    let f := bits w 8 7
    let rows := slotRows128 c ctx m.slot
    let outs := (List.range ra.pas.length).map fun i => drainRow f ra.geo (rows.getD i 0)
    let k := m.slot
    let scales := joinBytes (ra.scales.flatten.zip (outs.flatMap Prod.snd))
    let m1 := writeScales ((ra.pas.zip outs).foldl (fun m p => writeUnits m ctx p.1 p.2.1) s.mem) ctx scales
    let mem := (ra.pas.zip ra.scales).zipIdx.foldl (fun m p => feedPoison m ctx (p.1.1 ++ p.1.2) (c.accRow ctx k p.2).poison) m1
    let s1 := match scaleBlocked s.mem ctx scales with
      | some u => (s.withMem mem).poisonMet ctx u
      | none => s.withMem mem
    let bs := outs.flatMap Prod.fst ++ outs.flatMap Prod.snd
    .ok (s1, [leafOf s n m (matrixMode c m false (ra.geo, ra.fmt) (0, 0) slotPage) noParam
      (slotOperand m.slot (rowsBytes rows)) noOperand (rowsOperand ra bs)])
  | 0x57 => onRows m.a fun ra => do
    let data ← readRows s ctx m.seen 512 ra.pas
    let rows := data.map fun bs => slotRow ((elemsOf 32 128 (ofBytes bs)).map canon32)
    let c1 := c.putSlot ctx m.slot rows
    .ok (s.putCore n c1, [leafOf s n m (matrixMode c m false slotPage (0, 0) (ra.geo, ra.fmt)) noParam (rowsOperand ra data.flatten)
      noOperand (slotOperand m.slot (rowsBytes (slotRows128 c1 ctx m.slot)))])
  | 0x58 =>
    let old := (c.accRow ctx m.slot m.row).data
    let new := patchRow m old
    let param := bytesOf 8 m.row ++ bytesOf 8 m.pred.toNat ++ List.replicate 48 0
    .ok (s.putCore n (c.putRow ctx m.slot m.row new), [leafOf s n m (matrixMode c m false slotPage slotPage slotPage) param
      (slotOperand m.slot (bytesOf 512 old.toNat))
      { addr := 2 ^ 62 + bits w 11 7, digest := blake3 (bytesOf 256 (m.regs.headD 0).toNat) }
      (slotOperand m.slot (bytesOf 512 new.toNat))])
  | 0x59 =>
    let row := (c.accRow ctx m.slot m.row).data
    let v := bits w 11 7
    let half := vecLanes fun j => slotElem row (64 * halfOf m + j)
    .ok (s.putCore n { c with regs := c.regs.setV v (governed m.pred half (c.regs.getV v)) }, [])
  | _ => .ok (s.releaseLease n, [])

/-- UNDERSTUDY: canonical NaN in every element, no leaf, and the cue pushes never become visible; a handler's own `mma` stops the handler
(R330). -/
def understudyFails (s : State) (n : Nat) (m : MCmd) (low : BitVec 15) : State :=
  let c := s.core n
  let nan := List.replicate 128 (slotRow (List.replicate 128 F32.nan))
  let cues := c.cues.mapIdx fun f x => if cueProducer f = Cl.C then x.filter (fun t => t ≠ m.flight) else x
  let c1 := { c.putSlot c.ctx m.slot nan with cues := cues }
  let seq := match c.block with
    | none => m.iseq.toNat
    | some b => b.c.hashes.length + ((b.c.held.takeWhile fun l => l.flight ≠ m.flight).map fun l => l.recs.length).sum
  let s1 := (s.putCore n (c1.fillLeaf .C m.flight [])).completeFlight n .C m.flight
  let t : Trap := { cause := .understudy, info := BitVec.ofNat 64 (seq % 2 ^ 48 * 2 ^ 16 + low.toNat), lseq := m.iseq }
  if c.sys.sv then s1.raise n .C t else s1.report n .C t

/-- The poisoned rows a command reads end the context (02 R65). -/
def meetsRows (s : State) (n : Nat) (m : MCmd) : Option State :=
  let c := s.core n
  match (slotReads m).find? fun p => (c.accRow c.ctx p.1 p.2).poison with
  | none => none
  | some (k, r) => some (s.unitMet n c.ctx 2 (k * 128 + r))

/-- A command that reaches the slice of its bay. -/
def MCmd.reaches (m : MCmd) : Bool := m.op = 0x52 || m.op = 0x53 || m.op = 0x56 || m.op = 0x57

/-- A disagreement that an understudy's copies can have (R330): on the residue path channels of one of the command's sub-blocks, on the float path
no channel and sub-block 31; always a row of the 64. -/
def canDiffer (m : MCmd) (low : BitVec 15) : Bool :=
  let row := bits low.toNat 6 0
  let sub := bits low.toNat 11 7
  let channels := bits low.toNat 14 12
  match m.a, m.b with
  | some a, some b =>
    decide (m.op = 0x52) && bit m.word.toNat 9 && decide (row ≤ 63)
      && (if isSb a.fmt then decide (sub < ceilDiv m.kl (min (blockLen a.geo) (blockLen b.geo))) && decide (channels ≠ 0)
        else decide (sub = 31) && decide (channels = 0))
  | _, _ => false

/-- The oldest command of a core completes, once the slice it reaches is ON (02 R70). DESIGN CHOICE (log 61). -/
def State.completeMatrix (s : State) (n : Nat) (differ : Option (BitVec 15)) : State :=
  let c := s.core n
  match c.cmds with
  | [] => s
  | m :: rest =>
    match (if m.reaches then awake s (bayOfCore n * Config.sliceSize) else .ok ()) with
    | .error h => s.delayed h
    | .ok _ =>
    let s0 := s.putCore n { c with cmds := rest }
    let done (s : State) (recs : List (List Byte)) : State :=
      (s.putCore n ((s.core n).fillLeaf .C m.flight recs)).completeFlight n .C m.flight
    match differ.filter (canDiffer m) with
    | some low => understudyFails s0 n m low
    | none =>
      let bad := meetsRows s0 n m
      if bad.isSome && decide (m.op ≠ 0x56) then done (bad.getD s0) []
      else
        match matrixEffect (bad.getD s0) n m with
        | .ok (s1, recs) => done s1 recs
        | .error (.poison ctx pa) => done (s0.poisonMet ctx pa) []
        | .error _ => done s0 []

/-- A cell of the array goes wrong in the oldest command of a core, a multiply that no understudy checks: the element that it will leave. -/
def State.wrongCell (s : State) (n row col : Nat) (v : W32) : State :=
  let c := s.core n
  match c.cmds with
  | m :: rest =>
    if m.op = 0x53 || (m.op = 0x52 && !bit m.word.toNat 9) then s.putCore n { c with cmds := { m with wrong := some (row, col, v) } :: rest } else s
  | [] => s

/-- The 8-byte units of a row's n bytes. -/
def rowUnits : List Nat → Nat → List (Nat × Nat)
  | [], _ => []
  | pa :: rest, n => ((List.range (min 64 n)).filter fun i => (pa + i) % 8 = 0 || i = 0).map (fun i => (pa + i, min (8 - (pa + i) % 8) (min 64 n - i)))
      ++ rowUnits rest (n - 64)

/-- The reads of an operand: its elements unit by unit, and its scale bytes. -/
def Rows.reads (r : Rows) (n : Nat) : List (Nat × Nat) := r.pas.flatMap (fun pas => rowUnits pas n) ++ r.scales.flatten.map fun pa => (pa, 1)

/-- The reads that a command has still to make: those of its operands' elements and scales, which nothing orders (07 R187). -/
def MCmd.reads (m : MCmd) : List (Nat × Nat) :=
  let operand (r : Option Rows) : List (Nat × Nat) := (r.map fun r => r.reads (m.kl * elemBits r.fmt / 8)).getD []
  let all := if m.op = 0x52 then operand m.a ++ operand m.b
    else if m.op = 0x53 then operand m.b
    else if m.op = 0x57 then (m.a.map fun r => r.reads 512).getD []
    else []
  all.filter fun u => !m.seen.any fun c => c.1 = u.1

/-- One read of the oldest command of a core, in a slice that is ON; an error is left to the command's completion. DESIGN CHOICE (log 61). -/
def State.arrayRead (s : State) (n pick : Nat) : State :=
  let c := s.core n
  match c.cmds, awake s (bayOfCore n * Config.sliceSize) with
  | m :: rest, .ok _ =>
    (match m.reads[pick % m.reads.length]? with
      | some (pa, len) =>
        (match s.mem.read c.ctx 0 pa len with
          | some bs => s.putCore n { c with cmds := { m with seen := m.seen ++ bs.zipIdx.map fun b => (pa + b.2, b.1) } :: rest }
          | none => s)
      | none => s)
  | _, _ => s

/-- MATRIX_COMMAND_COMPLETE: `differ` is the report of a disagreement between an understudy's copies. -/
def execMatrixCommandComplete (core : Nat) (differ : Option (BitVec 15)) (s : State) : Out := .next (s.completeMatrix core differ)

/-! ## The lease's bound (06 R165; R322) -/

/-- 64 commands, or 8,192 cycles from the grant. -/
def boundReached (s : State) (b : Nat) : Bool :=
  let y := s.bay b
  y.holder.isSome && !y.boundHit && (decide (64 ≤ y.boundCmds) || decide (8192 ≤ s.sys.pkgCycle.toNat - y.boundStart))

def execLeaseBoundReached (bay : Nat) (s : State) : Out :=
  .next (if boundReached s bay then s.putBay bay { s.bay bay with boundHit := true } else s)

/-- At a command boundary, with no command of the holder issued and not complete, the lease is kept with a fresh bound, or passes to the core that
waits. DESIGN CHOICE (log 87). -/
def State.rearbitrate (s : State) (b : Nat) : State :=
  let y := s.bay b
  match y.holder with
  | none => s.grantArray b
  | some n =>
    if !y.boundHit || (s.core n).cmds ≠ [] then s
    else match nextRequester s b with
    | none => s.putBay b { y with boundCmds := 0, boundStart := s.sys.pkgCycle.toNat, boundHit := false }
    | some _ => ((s.putCore n { s.core n with lease := .lost }).putBay b { y with holder := none }).grantArray b

def execLeaseRearbitration (bay : Nat) (s : State) : Out := .next (s.rearbitrate bay)

end Sys2Proof.Machine
end

