-- ==== Sys2Proof/Decode.lean ====
section
/-! DEFINITION. The decoder and the encoder of lanes (08 R203 to R214). The same word means different things in K, L, C and S:
the lane kind in the line's header says which map it is read by (R195, R209). -/

namespace Sys2Proof

/-- Why a lane is not an instruction (08 R198). -/
inductive DecodeErr where
  | opcode
  | field
  | cue
  deriving DecidableEq, Repr

/-- The reason that ILLEGAL_OP reports (08 R198). -/
def DecodeErr.reason : DecodeErr → Nat
  | .opcode => 0x10
  | .field => 0x11
  | .cue => 0x16

/-- A field of a lane word, from bit lo up. -/
def fld {n : Nat} (w lo : Nat) : BitVec n := BitVec.ofNat n (w / 2 ^ lo)

/-- A field in two parts: the upper part at hi, above the k-bit lower part at bit 0. -/
def fld2 {n : Nat} (w hi m k : Nat) : BitVec n := BitVec.ofNat n (w / 2 ^ hi % 2 ^ m * 2 ^ k + w % 2 ^ k)

/-- The K map (08 R210, R211) at opcode op: the fields of a word, before their values are checked. -/
def decodeKAt (w op : Nat) : Except DecodeErr Instr :=
  if op = 0x01 then
    if bits w 9 0 = 0 then .ok (.add (fld w 20) (fld w 15) (fld w 10))
    else if bits w 9 0 = 1 then .ok (.sub (fld w 20) (fld w 15) (fld w 10))
    else if bits w 9 0 = 2 then .ok (.and (fld w 20) (fld w 15) (fld w 10))
    else if bits w 9 0 = 3 then .ok (.or (fld w 20) (fld w 15) (fld w 10))
    else if bits w 9 0 = 4 then .ok (.xor (fld w 20) (fld w 15) (fld w 10))
    else if bits w 9 0 = 5 then .ok (.sll (fld w 20) (fld w 15) (fld w 10))
    else if bits w 9 0 = 6 then .ok (.srl (fld w 20) (fld w 15) (fld w 10))
    else if bits w 9 0 = 7 then .ok (.sra (fld w 20) (fld w 15) (fld w 10))
    else if bits w 9 0 = 8 then .ok (.slt (fld w 20) (fld w 15) (fld w 10))
    else if bits w 9 0 = 9 then .ok (.sltu (fld w 20) (fld w 15) (fld w 10))
    else if bits w 9 0 = 10 then .ok (.min (fld w 20) (fld w 15) (fld w 10))
    else if bits w 9 0 = 11 then .ok (.max (fld w 20) (fld w 15) (fld w 10))
    else if bits w 9 0 = 12 then .ok (.minu (fld w 20) (fld w 15) (fld w 10))
    else if bits w 9 0 = 13 then .ok (.maxu (fld w 20) (fld w 15) (fld w 10))
    else if bits w 9 0 = 14 then .ok (.mul (fld w 20) (fld w 15) (fld w 10))
    else if bits w 9 0 = 15 then .ok (.mulh (fld w 20) (fld w 15) (fld w 10))
    else if bits w 9 0 = 16 then .ok (.mulhu (fld w 20) (fld w 15) (fld w 10))
    else if bits w 9 0 = 17 then .ok (.div (fld w 20) (fld w 15) (fld w 10))
    else if bits w 9 0 = 18 then .ok (.divu (fld w 20) (fld w 15) (fld w 10))
    else if bits w 9 0 = 19 then .ok (.rem (fld w 20) (fld w 15) (fld w 10))
    else if bits w 9 0 = 20 then .ok (.remu (fld w 20) (fld w 15) (fld w 10))
    else if bits w 14 0 = 21 then .ok (.clz (fld w 20) (fld w 15))
    else .error .field
  else if op = 0x02 then
    if bits w 9 0 = 0 then .ok (.fadd (fld w 20) (fld w 15) (fld w 10))
    else if bits w 9 0 = 1 then .ok (.fsub (fld w 20) (fld w 15) (fld w 10))
    else if bits w 9 0 = 2 then .ok (.fmul (fld w 20) (fld w 15) (fld w 10))
    else if bits w 9 0 = 3 then .ok (.ffma (fld w 20) (fld w 15) (fld w 10))
    else if bits w 9 0 = 4 then .ok (.fmin (fld w 20) (fld w 15) (fld w 10))
    else if bits w 9 0 = 5 then .ok (.fmax (fld w 20) (fld w 15) (fld w 10))
    else if bits w 9 5 = 0 ∧ bits w 2 0 = 6 then .ok (.fcmp (fld w 20) (fld w 15) (fld w 10) (fld w 3))
    else if bits w 14 7 = 0 ∧ bits w 2 0 = 7 then .ok (.fcvt (fld w 20) (fld w 15) (fld w 3))
    else .error .field
  else if op = 0x08 then
    .ok (.addi (fld w 20) (fld w 15) (fld w 0))
  else if op = 0x09 then
    .ok (.andi (fld w 20) (fld w 15) (fld w 0))
  else if op = 0x0A then
    .ok (.ori (fld w 20) (fld w 15) (fld w 0))
  else if op = 0x0B then
    .ok (.xori (fld w 20) (fld w 15) (fld w 0))
  else if op = 0x0C then
    if bits w 14 6 = 0 then .ok (.slli (fld w 20) (fld w 15) (fld w 0))
    else .error .field
  else if op = 0x0D then
    if bits w 14 6 = 0 then .ok (.srli (fld w 20) (fld w 15) (fld w 0))
    else .error .field
  else if op = 0x0E then
    if bits w 14 6 = 0 then .ok (.srai (fld w 20) (fld w 15) (fld w 0))
    else .error .field
  else if op = 0x0F then
    .ok (.slti (fld w 20) (fld w 15) (fld w 0))
  else if op = 0x10 then
    .ok (.sltiu (fld w 20) (fld w 15) (fld w 0))
  else if op = 0x11 then
    .ok (.lui (fld w 20) (fld w 0))
  else if op = 0x12 then
    .ok (.lla (fld w 20) (fld w 0))
  else if op = 0x13 then
    .ok (.lif (fld w 20) (fld w 0))
  else if op = 0x14 then
    if bits w 14 6 = 0 then .ok (.lit (fld w 20) (fld w 15) (fld w 4) (fld w 0))
    else .error .field
  else if op = 0x15 then
    .ok (.kld (fld w 20) (fld w 15) (fld w 0))
  else if op = 0x18 then
    .ok (.ldB (fld w 20) (fld w 15) (fld w 0))
  else if op = 0x19 then
    .ok (.ldBu (fld w 20) (fld w 15) (fld w 0))
  else if op = 0x1A then
    .ok (.ldH (fld w 20) (fld w 15) (fld w 0))
  else if op = 0x1B then
    .ok (.ldHu (fld w 20) (fld w 15) (fld w 0))
  else if op = 0x1C then
    .ok (.ldW (fld w 20) (fld w 15) (fld w 0))
  else if op = 0x1D then
    .ok (.ldWu (fld w 20) (fld w 15) (fld w 0))
  else if op = 0x1E then
    .ok (.ldD (fld w 20) (fld w 15) (fld w 0))
  else if op = 0x20 then
    .ok (.stB (fld w 20) (fld w 15) (fld w 0))
  else if op = 0x21 then
    .ok (.stH (fld w 20) (fld w 15) (fld w 0))
  else if op = 0x22 then
    .ok (.stW (fld w 20) (fld w 15) (fld w 0))
  else if op = 0x23 then
    .ok (.stD (fld w 20) (fld w 15) (fld w 0))
  else if op = 0x24 then
    if bits w 14 5 = 0 then .ok (.ldAcq (fld w 20) (fld w 15) (fld w 4) (fld w 0))
    else .error .field
  else if op = 0x25 then
    if bits w 24 20 = 0 ∧ bits w 9 5 = 0 then .ok (.stRel (fld w 15) (fld w 10) (fld w 4) (fld w 0))
    else .error .field
  else if op = 0x28 then
    .ok (.bCond (fld w 22) (fld w 17) (fld w 12) (fld w 0))
  else if op = 0x29 then
    if bits w 24 24 = 0 ∧ bits w 21 12 = 0 then .ok (.brBq (fld w 23) (fld w 22) (fld w 0))
    else .error .field
  else if op = 0x2A then
    .ok (.jal (fld w 20) (fld w 0))
  else if op = 0x2B then
    .ok (.jalr (fld w 20) (fld w 15) (fld w 0))
  else if op = 0x2C then
    .ok (.ovlCall (fld w 20) (fld w 15) (fld w 0))
  else if op = 0x2D then
    if bits w 24 20 = 0 ∧ bits w 14 0 = 0 then .ok (.ovlRet (fld w 15))
    else .error .field
  else if op = 0x2E then
    if bits w 24 20 = 0 ∧ bits w 14 12 = 0 then .ok (.loop (fld w 15) (fld w 0))
    else if bits w 14 12 = 1 then .ok (.loopImm (fld w 20) (fld w 15) (fld w 0))
    else .error .field
  else if op = 0x2F then
    if bits w 9 0 = 0 then .ok (.fork (fld w 20) (fld w 15) (fld w 10))
    else .error .field
  else if op = 0x30 then
    if bits w 24 0 = 0 then .ok .join
    else .error .field
  else if op = 0x34 then
    if bits w 14 0 = 0 then .ok (.qpush (fld w 20) (fld w 15))
    else .error .field
  else if op = 0x35 then
    if bits w 14 0 = 0 then .ok (.qpop (fld w 20) (fld w 15))
    else .error .field
  else if op = 0x38 then
    if bits w 14 0 = 0 then .ok (.spawn (fld w 20) (fld w 15))
    else if bits w 14 0 = 1 then .ok (.spawnG (fld w 20) (fld w 15))
    else .error .field
  else if op = 0x39 then
    if bits w 24 20 = 0 ∧ bits w 14 0 = 0 then .ok (.kill (fld w 15))
    else .error .field
  else if op = 0x3A then
    if bits w 14 0 = 0 then .ok (.scopeWait (fld w 20) (fld w 15))
    else .error .field
  else if op = 0x3B then
    if bits w 14 0 = 0 then .ok (.weirJoin (fld w 20) (fld w 15))
    else .error .field
  else if op = 0x3C then
    if bits w 9 0 = 0 then .ok (.weirArrive (fld w 20) (fld w 15) (fld w 10))
    else if bits w 9 0 = 1 then .ok (.weirDrop (fld w 20) (fld w 15) (fld w 10))
    else .error .field
  else if op = 0x3D then
    if bits w 9 0 = 0 then .ok (.weirWait (fld w 20) (fld w 15) (fld w 10))
    else .error .field
  else if op = 0x3E then
    if bits w 24 0 = 0 then .ok .yield
    else .error .field
  else if op = 0x3F then
    if bits w 24 0 = 0 then .ok .halt
    else .error .field
  else if op = 0x40 then
    if bits w 24 12 = 0 then .ok (.trap (fld w 0))
    else .error .field
  else if op = 0x41 then
    if bits w 24 0 = 0 then .ok .sret
    else .error .field
  else if op = 0x48 then
    if bits w 19 12 = 0 then .ok (.csrr (fld w 20) (fld w 0))
    else if bits w 14 12 = 1 then .ok (.csrw (fld w 20) (fld w 15) (fld w 0))
    else if bits w 14 12 = 2 then .ok (.csrs (fld w 20) (fld w 15) (fld w 0))
    else if bits w 14 12 = 3 then .ok (.csrc (fld w 20) (fld w 15) (fld w 0))
    else .error .field
  else if op = 0x49 then
    if bits w 24 4 = 0 then .ok (.fenceAcq (fld w 0))
    else if bits w 24 4 = 16 then .ok (.fenceRel (fld w 0))
    else if bits w 24 4 = 32 then .ok (.fenceAr (fld w 0))
    else .error .field
  else if op = 0x4A then
    if bits w 24 4 = 0 then .ok (.fenceSc (fld w 0))
    else .error .field
  else if op = 0x4B then
    if bits w 24 0 = 0 then .ok .genFence
    else .error .field
  else if op = 0x4C then
    if bits w 19 0 = 0 then .ok (.tick (fld w 20))
    else if bits w 24 20 = 0 ∧ bits w 14 0 = 1 then .ok (.tickWait (fld w 15))
    else .error .field
  else if op = 0x50 then
    if bits w 24 20 = 0 ∧ bits w 9 0 = 0 then .ok (.treeOpen (fld w 15) (fld w 10))
    else .error .field
  else if op = 0x51 then
    if bits w 19 0 = 0 then .ok (.treeSeal (fld w 20))
    else .error .field
  else if op = 0x52 then
    if bits w 24 20 = 0 ∧ bits w 9 0 = 0 then .ok (.treeNote (fld w 15) (fld w 10))
    else .error .field
  else if op = 0x53 then
    if bits w 9 0 = 0 then .ok (.refExec (fld w 20) (fld w 15) (fld w 10))
    else .error .field
  else if op = 0x54 then
    if bits w 9 0 = 0 then .ok (.treeBisect (fld w 20) (fld w 15) (fld w 10))
    else .error .field
  else .error .opcode

def decodeK (w : Nat) : Except DecodeErr Instr := decodeKAt w (bits w 31 25)

/-- The L map (08 R212) at opcode op: the fields of a word, before their values are checked. -/
def decodeLAt (w op : Nat) : Except DecodeErr Instr :=
  if op = 0x01 then
    .ok (.ldq (fld w 28) (fld w 16) (fld w 12) (fld w 0))
  else if op = 0x02 then
    if bits w 7 0 = 0 then .ok (.ldqS (fld w 28) (fld w 16) (fld w 12) (fld w 8))
    else .error .field
  else if op = 0x03 then
    if bits w 11 1 = 0 then .ok (.ldqG (fld w 28) (fld w 16) (fld w 12) (fld w 0))
    else .error .field
  else if op = 0x04 then
    .ok (.ldqWb (fld w 28) (fld w 16) (fld w 12) (fld w 0))
  else if op = 0x08 then
    .ok (.lLdB (fld w 28) (fld w 16) (fld w 12) (fld w 0))
  else if op = 0x09 then
    .ok (.lLdBu (fld w 28) (fld w 16) (fld w 12) (fld w 0))
  else if op = 0x0A then
    .ok (.lLdH (fld w 28) (fld w 16) (fld w 12) (fld w 0))
  else if op = 0x0B then
    .ok (.lLdHu (fld w 28) (fld w 16) (fld w 12) (fld w 0))
  else if op = 0x0C then
    .ok (.lLdW (fld w 28) (fld w 16) (fld w 12) (fld w 0))
  else if op = 0x0D then
    .ok (.lLdWu (fld w 28) (fld w 16) (fld w 12) (fld w 0))
  else if op = 0x0E then
    .ok (.lLdD (fld w 28) (fld w 16) (fld w 12) (fld w 0))
  else if op = 0x10 then
    if bits w 11 2 = 0 then .ok (.rldQ (fld w 28) (fld w 16) (fld w 12) (fld w 0))
    else .error .field
  else if op = 0x18 then
    .ok (.lCp (fld w 28) (fld w 17) (fld w 13) (fld w 9) (fld w 0))
  else if op = 0x19 then
    .ok (.lCp2d (fld w 28) (fld w 17) (fld w 13) (fld w 9) (fld w 0))
  else if op = 0x1A then
    if bits w 20 17 = 0 ∧ bits w 12 0 = 0 then .ok (.lCpPb (fld w 28) (fld w 13))
    else .error .field
  else if op = 0x1B then
    if bits w 20 18 = 0 ∧ bits w 3 2 = 0 then .ok (.cpOvl (fld w 28) (fld w 17) (fld w 13) (fld w 9) (fld w 7) (fld w 5) (fld w 4) (fld w 0))
    else .error .field
  else if op = 0x1C then
    .ok (.lColl (fld w 28) (fld w 17) (fld w 13) (fld w 9) (fld w 0))
  else if op = 0x1D then
    if bits w 20 17 = 0 ∧ bits w 12 1 = 0 then .ok (.lPbInv (fld w 28) (fld w 13) (fld w 0))
    else .error .field
  else if op = 0x20 then
    if bits w 7 1 = 0 then .ok (.lAdd (fld w 28) (fld w 16) (fld w 12) (fld w 8) (fld w 0))
    else .error .field
  else if op = 0x21 then
    if bits w 7 1 = 0 then .ok (.lSub (fld w 28) (fld w 16) (fld w 12) (fld w 8) (fld w 0))
    else .error .field
  else if op = 0x22 then
    if bits w 7 1 = 0 then .ok (.lMul (fld w 28) (fld w 16) (fld w 12) (fld w 8) (fld w 0))
    else .error .field
  else if op = 0x23 then
    if bits w 11 8 = 0 then .ok (.lAddi (fld w 28) (fld w 16) (fld w 12) (fld w 0))
    else .error .field
  else if op = 0x24 then
    if bits w 11 6 = 0 then .ok (.lSlli (fld w 28) (fld w 16) (fld w 12) (fld w 0))
    else .error .field
  else if op = 0x25 then
    if bits w 11 6 = 0 then .ok (.lSrli (fld w 28) (fld w 16) (fld w 12) (fld w 0))
    else .error .field
  else if op = 0x28 then
    if bits w 20 16 = 0 ∧ bits w 7 3 = 0 then .ok (.laCmp (fld w 28) (fld w 12) (fld w 8) (fld w 0))
    else .error .field
  else if op = 0x2C then
    if bits w 31 28 = 2 ∧ bits w 20 20 = 1 ∧ bits w 15 0 = 0 then .ok (.lCueTest (fld w 16))
    else if bits w 31 30 ≠ 0 ∧ bits w 28 28 = 0 ∧ bits w 20 20 = 1 ∧ bits w 15 0 = 0 then .error .cue
    else .error .field
  else if op = 0x2D then
    if bits w 20 0 = 0 then .ok (.lCueNop (fld w 28))
    else .error .field
  else if op = 0x30 then
    .ok (.lBCond (fld w 28) (fld w 18) (fld2 w 16 2 8) (fld w 12) (fld w 8))
  else if op = 0x31 then
    if bits w 11 8 = 0 then .ok (.lLoop (fld w 28) (fld2 w 16 5 8) (fld w 12))
    else .error .field
  else if op = 0x32 then
    if bits w 20 0 = 0 then .ok (.lJoin (fld w 28))
    else .error .field
  else .error .opcode

def decodeL (w : Nat) : Except DecodeErr Instr := decodeLAt w (bits w 27 21)

/-- The S map (08 R213) at opcode op: the fields of a word, before their values are checked. -/
def decodeSAt (w op : Nat) : Except DecodeErr Instr :=
  if op = 0x01 then
    .ok (.stq (fld w 28) (fld w 16) (fld w 12) (fld w 0))
  else if op = 0x02 then
    if bits w 7 0 = 0 then .ok (.stqS (fld w 28) (fld w 16) (fld w 12) (fld w 8))
    else .error .field
  else if op = 0x03 then
    if bits w 11 1 = 0 then .ok (.stqX (fld w 28) (fld w 16) (fld w 12) (fld w 0))
    else .error .field
  else if op = 0x04 then
    .ok (.stqWb (fld w 28) (fld w 16) (fld w 12) (fld w 0))
  else if op = 0x08 then
    .ok (.sStB (fld w 28) (fld w 16) (fld w 12) (fld w 0))
  else if op = 0x09 then
    .ok (.sStH (fld w 28) (fld w 16) (fld w 12) (fld w 0))
  else if op = 0x0A then
    .ok (.sStW (fld w 28) (fld w 16) (fld w 12) (fld w 0))
  else if op = 0x0B then
    .ok (.sStD (fld w 28) (fld w 16) (fld w 12) (fld w 0))
  else if op = 0x10 then
    if bits w 11 4 = 0 then .ok (.rstQ (fld w 28) (fld w 16) (fld w 12) (fld w 2) (fld w 0))
    else .error .field
  else if op = 0x11 then
    if bits w 7 6 = 0 then .ok (.ramo (fld w 28) (fld w 16) (fld w 12) (fld w 8) (fld w 4) (fld w 0))
    else .error .field
  else if op = 0x18 then
    .ok (.sCp (fld w 28) (fld w 17) (fld w 13) (fld w 9) (fld w 0))
  else if op = 0x19 then
    .ok (.sCp2d (fld w 28) (fld w 17) (fld w 13) (fld w 9) (fld w 0))
  else if op = 0x1A then
    if bits w 20 17 = 0 ∧ bits w 12 0 = 0 then .ok (.sCpPb (fld w 28) (fld w 13))
    else .error .field
  else if op = 0x1C then
    .ok (.sColl (fld w 28) (fld w 17) (fld w 13) (fld w 9) (fld w 0))
  else if op = 0x1D then
    if bits w 20 17 = 0 ∧ bits w 12 1 = 0 then .ok (.sPbInv (fld w 28) (fld w 13) (fld w 0))
    else .error .field
  else if op = 0x20 then
    if bits w 7 1 = 0 then .ok (.sAdd (fld w 28) (fld w 16) (fld w 12) (fld w 8) (fld w 0))
    else .error .field
  else if op = 0x21 then
    if bits w 7 1 = 0 then .ok (.sSub (fld w 28) (fld w 16) (fld w 12) (fld w 8) (fld w 0))
    else .error .field
  else if op = 0x22 then
    if bits w 7 1 = 0 then .ok (.sMul (fld w 28) (fld w 16) (fld w 12) (fld w 8) (fld w 0))
    else .error .field
  else if op = 0x23 then
    if bits w 11 8 = 0 then .ok (.sAddi (fld w 28) (fld w 16) (fld w 12) (fld w 0))
    else .error .field
  else if op = 0x24 then
    if bits w 11 6 = 0 then .ok (.sSlli (fld w 28) (fld w 16) (fld w 12) (fld w 0))
    else .error .field
  else if op = 0x25 then
    if bits w 11 6 = 0 then .ok (.sSrli (fld w 28) (fld w 16) (fld w 12) (fld w 0))
    else .error .field
  else if op = 0x28 then
    if bits w 7 4 = 0 then .ok (.amo (fld w 28) (fld w 16) (fld w 12) (fld w 8) (fld w 0))
    else .error .field
  else if op = 0x29 then
    if bits w 20 20 = 1 ∧ bits w 7 4 = 0 then .ok (.amoG (fld w 28) (fld w 16) (fld w 12) (fld w 8) (fld w 0))
    else .error .field
  else if op = 0x2A then
    if bits w 20 20 = 1 ∧ bits w 7 0 = 0 then .ok (.dgrpOpen (fld w 28) (fld w 16) (fld w 12) (fld w 8))
    else .error .field
  else if op = 0x2B then
    if bits w 20 20 = 1 ∧ bits w 15 0 = 0 then .ok (.dgrpClose (fld w 28) (fld w 16))
    else .error .field
  else if op = 0x2C then
    if bits w 31 28 = 8 ∧ bits w 20 20 = 1 ∧ bits w 15 0 = 0 then .ok (.sCueTest (fld w 16))
    else if bits w 29 28 ≠ 0 ∧ bits w 30 30 = 0 ∧ bits w 20 20 = 1 ∧ bits w 15 0 = 0 then .error .cue
    else .error .field
  else if op = 0x2D then
    if bits w 20 0 = 0 then .ok (.sCueNop (fld w 28))
    else .error .field
  else if op = 0x30 then
    .ok (.sBCond (fld w 28) (fld w 18) (fld2 w 16 2 8) (fld w 12) (fld w 8))
  else if op = 0x31 then
    if bits w 11 8 = 0 then .ok (.sLoop (fld w 28) (fld2 w 16 5 8) (fld w 12))
    else .error .field
  else if op = 0x32 then
    if bits w 20 0 = 0 then .ok (.sJoin (fld w 28))
    else .error .field
  else .error .opcode

def decodeS (w : Nat) : Except DecodeErr Instr := decodeSAt w (bits w 27 21)

/-- The C map (08 R214) at opcode op: the fields of a word, before their values are checked. -/
def decodeCAt (w op : Nat) : Except DecodeErr Instr :=
  if op = 0x01 then
    .ok (.vadd (fld w 28) (fld w 16) (fld w 11) (fld w 6) (fld w 3) (fld w 0))
  else if op = 0x02 then
    .ok (.vsub (fld w 28) (fld w 16) (fld w 11) (fld w 6) (fld w 3) (fld w 0))
  else if op = 0x03 then
    .ok (.vmul (fld w 28) (fld w 16) (fld w 11) (fld w 6) (fld w 3) (fld w 0))
  else if op = 0x04 then
    .ok (.vfma (fld w 28) (fld w 16) (fld w 11) (fld w 6) (fld w 3) (fld w 0))
  else if op = 0x05 then
    .ok (.vmin (fld w 28) (fld w 16) (fld w 11) (fld w 6) (fld w 3) (fld w 0))
  else if op = 0x06 then
    .ok (.vmax (fld w 28) (fld w 16) (fld w 11) (fld w 6) (fld w 3) (fld w 0))
  else if op = 0x07 then
    if bits w 10 6 = 0 then .ok (.vabs (fld w 28) (fld w 16) (fld w 11) (fld w 3) (fld w 0))
    else .error .field
  else if op = 0x08 then
    if bits w 10 6 = 0 then .ok (.vneg (fld w 28) (fld w 16) (fld w 11) (fld w 3) (fld w 0))
    else .error .field
  else if op = 0x09 then
    .ok (.vand (fld w 28) (fld w 16) (fld w 11) (fld w 6) (fld w 3) (fld w 0))
  else if op = 0x0A then
    .ok (.vor (fld w 28) (fld w 16) (fld w 11) (fld w 6) (fld w 3) (fld w 0))
  else if op = 0x0B then
    .ok (.vxor (fld w 28) (fld w 16) (fld w 11) (fld w 6) (fld w 3) (fld w 0))
  else if op = 0x0C then
    if bits w 10 6 = 0 then .ok (.vnot (fld w 28) (fld w 16) (fld w 11) (fld w 3) (fld w 0))
    else .error .field
  else if op = 0x0D then
    .ok (.vshl (fld w 28) (fld w 16) (fld w 11) (fld w 6) (fld w 3) (fld w 0))
  else if op = 0x0E then
    .ok (.vshr (fld w 28) (fld w 16) (fld w 11) (fld w 6) (fld w 3) (fld w 0))
  else if op = 0x0F then
    .ok (.vsra (fld w 28) (fld w 16) (fld w 11) (fld w 6) (fld w 3) (fld w 0))
  else if op = 0x10 then
    .ok (.vcmpEq (fld w 28) (fld w 16) (fld w 11) (fld w 6) (fld w 3) (fld w 0))
  else if op = 0x11 then
    .ok (.vcmpNe (fld w 28) (fld w 16) (fld w 11) (fld w 6) (fld w 3) (fld w 0))
  else if op = 0x12 then
    .ok (.vcmpLt (fld w 28) (fld w 16) (fld w 11) (fld w 6) (fld w 3) (fld w 0))
  else if op = 0x13 then
    .ok (.vcmpLe (fld w 28) (fld w 16) (fld w 11) (fld w 6) (fld w 3) (fld w 0))
  else if op = 0x14 then
    .ok (.vsel (fld w 28) (fld w 16) (fld w 11) (fld w 6) (fld w 3) (fld w 0))
  else if op = 0x15 then
    if bits w 10 6 = 0 then .ok (.vmov (fld w 28) (fld w 16) (fld w 11) (fld w 3) (fld w 0))
    else .error .field
  else if op = 0x16 then
    if bits w 10 7 = 0 then .ok (.vsplat (fld w 28) (fld w 16) (fld w 11) (fld w 6) (fld w 3) (fld w 0))
    else .error .field
  else if op = 0x17 then
    .ok (.vfmaQs (fld w 28) (fld w 16) (fld w 11) (fld w 6) (fld w 3) (fld w 0))
  else if op = 0x18 then
    .ok (.vcvt (fld w 28) (fld w 16) (fld w 11) (fld w 8) (fld w 6) (fld w 3) (fld w 0))
  else if op = 0x19 then
    if bits w 7 6 = 0 ∧ bits w 2 0 = 0 then .ok (.vquant (fld w 28) (fld w 16) (fld w 11) (fld w 10) (fld w 8) (fld w 3))
    else .error .field
  else if op = 0x1A then
    if bits w 7 6 = 0 ∧ bits w 2 0 = 0 then .ok (.vdequant (fld w 28) (fld w 16) (fld w 11) (fld w 10) (fld w 8) (fld w 3))
    else .error .field
  else if op = 0x20 then
    if bits w 10 6 = 0 then .ok (.vredAdd (fld w 28) (fld w 16) (fld w 11) (fld w 3) (fld w 0))
    else .error .field
  else if op = 0x21 then
    if bits w 10 6 = 0 then .ok (.vredMax (fld w 28) (fld w 16) (fld w 11) (fld w 3) (fld w 0))
    else .error .field
  else if op = 0x22 then
    if bits w 10 6 = 0 then .ok (.vredMin (fld w 28) (fld w 16) (fld w 11) (fld w 3) (fld w 0))
    else .error .field
  else if op = 0x24 then
    .ok (.vperm (fld w 28) (fld w 16) (fld w 11) (fld w 6) (fld w 3) (fld w 0))
  else if op = 0x25 then
    .ok (.vrot (fld w 28) (fld w 16) (fld w 11) (fld w 6) (fld w 3) (fld w 0))
  else if op = 0x26 then
    .ok (.vbcast (fld w 28) (fld w 16) (fld w 11) (fld w 6) (fld w 3) (fld w 0))
  else if op = 0x28 then
    if bits w 2 0 = 3 then .ok (.vpart (fld w 28) (fld w 16) (fld w 11) (fld w 6) (fld w 3))
    else .error .field
  else if op = 0x29 then
    if bits w 15 11 = 0 ∧ bits w 2 0 = 3 then .ok (.vcount (fld w 28) (fld w 16) (fld w 6) (fld w 3))
    else .error .field
  else if op = 0x2A then
    .ok (.vcompact (fld w 28) (fld w 16) (fld w 11) (fld w 6) (fld w 3) (fld w 0))
  else if op = 0x2B then
    .ok (.vexpand (fld w 28) (fld w 16) (fld w 11) (fld w 6) (fld w 3) (fld w 0))
  else if op = 0x2C then
    if bits w 10 6 = 0 ∧ bits w 2 0 = 0 then .ok (.vexp2 (fld w 28) (fld w 16) (fld w 11) (fld w 3))
    else .error .field
  else if op = 0x2D then
    if bits w 10 6 = 0 ∧ bits w 2 0 = 0 then .ok (.vlog2 (fld w 28) (fld w 16) (fld w 11) (fld w 3))
    else .error .field
  else if op = 0x2E then
    if bits w 10 6 = 0 ∧ bits w 2 0 = 0 then .ok (.vrcp (fld w 28) (fld w 16) (fld w 11) (fld w 3))
    else .error .field
  else if op = 0x2F then
    if bits w 10 6 = 0 ∧ bits w 2 0 = 0 then .ok (.vrsqrt (fld w 28) (fld w 16) (fld w 11) (fld w 3))
    else .error .field
  else if op = 0x30 then
    if bits w 10 6 = 0 then .ok (.vpop (fld w 28) (fld w 16) (fld w 11) (fld w 3) (fld w 0))
    else .error .field
  else if op = 0x31 then
    if bits w 10 0 = 0 then .ok (.vpush (fld w 28) (fld w 16) (fld w 11))
    else .error .field
  else if op = 0x32 then
    if bits w 20 16 = 0 ∧ bits w 10 6 = 0 ∧ bits w 2 0 = 0 then .ok (.vany (fld w 28) (fld w 11) (fld w 3))
    else .error .field
  else if op = 0x34 then
    if bits w 5 0 = 0 then .ok (.pand (fld w 28) (fld w 16) (fld w 11) (fld w 6))
    else .error .field
  else if op = 0x35 then
    if bits w 5 0 = 0 then .ok (.por (fld w 28) (fld w 16) (fld w 11) (fld w 6))
    else .error .field
  else if op = 0x36 then
    if bits w 5 0 = 0 then .ok (.pxor (fld w 28) (fld w 16) (fld w 11) (fld w 6))
    else .error .field
  else if op = 0x37 then
    if bits w 10 0 = 0 then .ok (.pnot (fld w 28) (fld w 16) (fld w 11))
    else .error .field
  else if op = 0x40 then
    if bits w 5 0 = 0 then .ok (.cadd (fld w 28) (fld w 16) (fld w 11) (fld w 6))
    else .error .field
  else if op = 0x41 then
    if bits w 5 0 = 0 then .ok (.csub (fld w 28) (fld w 16) (fld w 11) (fld w 6))
    else .error .field
  else if op = 0x42 then
    if bits w 5 0 = 0 then .ok (.cmul (fld w 28) (fld w 16) (fld w 11) (fld w 6))
    else .error .field
  else if op = 0x43 then
    .ok (.caddi (fld w 28) (fld w 16) (fld w 11) (fld w 0))
  else if op = 0x44 then
    if bits w 10 6 = 0 then .ok (.cslli (fld w 28) (fld w 16) (fld w 11) (fld w 0))
    else .error .field
  else if op = 0x45 then
    if bits w 10 6 = 0 then .ok (.csrli (fld w 28) (fld w 16) (fld w 11) (fld w 0))
    else .error .field
  else if op = 0x46 then
    if bits w 15 11 = 0 then .ok (.cli (fld w 28) (fld w 16) (fld w 0))
    else .error .field
  else if op = 0x48 then
    .ok (.cBCond (fld w 28) (fld w 18) (fld2 w 16 2 7) (fld w 11) (fld w 7))
  else if op = 0x49 then
    if bits w 20 16 = 0 then .ok (.cLoop (fld w 28) (fld w 11) (fld w 0))
    else .error .field
  else if op = 0x4A then
    if bits w 20 0 = 0 then .ok (.cJoin (fld w 28))
    else .error .field
  else if op = 0x50 then
    if bits w 20 0 = 0 then .ok (.mlease (fld w 28))
    else .error .field
  else if op = 0x51 then
    if bits w 20 0 = 0 then .ok (.mrel (fld w 28))
    else .error .field
  else if op = 0x52 then
    if bits w 5 0 = 0 then .ok (.mma (fld w 28) (fld w 18) (fld w 15) (fld w 12) (fld w 11) (fld w 10) (fld w 9) (fld w 6))
    else .error .field
  else if op = 0x53 then
    if bits w 11 11 = 0 ∧ bits w 9 9 = 0 then .ok (.mmaV (fld w 28) (fld w 18) (fld w 15) (fld w 12) (fld w 10) (fld w 6) (fld w 3) (fld w 0))
    else .error .field
  else if op = 0x54 then
    if bits w 17 0 = 0 then .ok (.mzero (fld w 28) (fld w 18))
    else .error .field
  else if op = 0x55 then
    if bits w 11 0 = 0 then .ok (.macc (fld w 28) (fld w 18) (fld w 15) (fld w 12))
    else .error .field
  else if op = 0x56 then
    if bits w 14 12 = 0 ∧ bits w 10 9 = 0 ∧ bits w 5 0 = 0 then .ok (.mdrain (fld w 28) (fld w 18) (fld w 15) (fld w 11) (fld w 7) (fld w 6))
    else .error .field
  else if op = 0x57 then
    if bits w 14 12 = 0 ∧ bits w 10 7 = 0 ∧ bits w 5 0 = 0 then .ok (.mload (fld w 28) (fld w 18) (fld w 15) (fld w 11) (fld w 6))
    else .error .field
  else if op = 0x58 then
    if bits w 14 12 = 0 ∧ bits w 2 0 = 0 then .ok (.mpatch (fld w 28) (fld w 18) (fld w 15) (fld w 7) (fld w 4) (fld w 3))
    else .error .field
  else if op = 0x59 then
    if bits w 14 12 = 0 ∧ bits w 2 0 = 0 then .ok (.mpeek (fld w 28) (fld w 18) (fld w 15) (fld w 7) (fld w 4) (fld w 3))
    else .error .field
  else if op = 0x5A then
    if bits w 20 4 = 0 then .ok (.mstat (fld w 28) (fld w 0))
    else .error .field
  else .error .opcode

def decodeC (w : Nat) : Except DecodeErr Instr := decodeCAt w (bits w 27 21)

/-- Decoding a lane of cluster cl: total, and rejecting by name. The checks stand in the order of 08 R208. -/
def decode (cl : Cl) (w : Nat) : Except DecodeErr Instr :=
  match (match cl with
    | .K => decodeK w
    | .L => decodeL w
    | .C => decodeC w
    | .S => decodeS w) with
  | .error e => .error e
  | .ok i => if i.fieldsOk then (if i.cueOk then .ok i else .error .cue) else .error .field

/-- A word from its fixed bits and its fields, each with its lowest bit's place. -/
def pack : Nat → List (Nat × Nat) → Nat
  | w, [] => w
  | w, (v, lo) :: fs => pack (w + v * 2 ^ lo) fs

/-- The fixed bits and the fields of an instruction's word, from the same tables. An event has no encoding; its word is 0, which no map
decodes. -/
def encodeParts : Instr → Nat × List (Nat × Nat)
  | .add d a b => (0x02000000, [(d.toNat, 20), (a.toNat, 15), (b.toNat, 10)])
  | .sub d a b => (0x02000001, [(d.toNat, 20), (a.toNat, 15), (b.toNat, 10)])
  | .and d a b => (0x02000002, [(d.toNat, 20), (a.toNat, 15), (b.toNat, 10)])
  | .or d a b => (0x02000003, [(d.toNat, 20), (a.toNat, 15), (b.toNat, 10)])
  | .xor d a b => (0x02000004, [(d.toNat, 20), (a.toNat, 15), (b.toNat, 10)])
  | .sll d a b => (0x02000005, [(d.toNat, 20), (a.toNat, 15), (b.toNat, 10)])
  | .srl d a b => (0x02000006, [(d.toNat, 20), (a.toNat, 15), (b.toNat, 10)])
  | .sra d a b => (0x02000007, [(d.toNat, 20), (a.toNat, 15), (b.toNat, 10)])
  | .slt d a b => (0x02000008, [(d.toNat, 20), (a.toNat, 15), (b.toNat, 10)])
  | .sltu d a b => (0x02000009, [(d.toNat, 20), (a.toNat, 15), (b.toNat, 10)])
  | .min d a b => (0x0200000A, [(d.toNat, 20), (a.toNat, 15), (b.toNat, 10)])
  | .max d a b => (0x0200000B, [(d.toNat, 20), (a.toNat, 15), (b.toNat, 10)])
  | .minu d a b => (0x0200000C, [(d.toNat, 20), (a.toNat, 15), (b.toNat, 10)])
  | .maxu d a b => (0x0200000D, [(d.toNat, 20), (a.toNat, 15), (b.toNat, 10)])
  | .mul d a b => (0x0200000E, [(d.toNat, 20), (a.toNat, 15), (b.toNat, 10)])
  | .mulh d a b => (0x0200000F, [(d.toNat, 20), (a.toNat, 15), (b.toNat, 10)])
  | .mulhu d a b => (0x02000010, [(d.toNat, 20), (a.toNat, 15), (b.toNat, 10)])
  | .div d a b => (0x02000011, [(d.toNat, 20), (a.toNat, 15), (b.toNat, 10)])
  | .divu d a b => (0x02000012, [(d.toNat, 20), (a.toNat, 15), (b.toNat, 10)])
  | .rem d a b => (0x02000013, [(d.toNat, 20), (a.toNat, 15), (b.toNat, 10)])
  | .remu d a b => (0x02000014, [(d.toNat, 20), (a.toNat, 15), (b.toNat, 10)])
  | .clz d a => (0x02000015, [(d.toNat, 20), (a.toNat, 15)])
  | .addi d a i => (0x10000000, [(d.toNat, 20), (a.toNat, 15), (i.toNat, 0)])
  | .andi d a i => (0x12000000, [(d.toNat, 20), (a.toNat, 15), (i.toNat, 0)])
  | .ori d a i => (0x14000000, [(d.toNat, 20), (a.toNat, 15), (i.toNat, 0)])
  | .xori d a i => (0x16000000, [(d.toNat, 20), (a.toNat, 15), (i.toNat, 0)])
  | .slli d a i => (0x18000000, [(d.toNat, 20), (a.toNat, 15), (i.toNat, 0)])
  | .srli d a i => (0x1A000000, [(d.toNat, 20), (a.toNat, 15), (i.toNat, 0)])
  | .srai d a i => (0x1C000000, [(d.toNat, 20), (a.toNat, 15), (i.toNat, 0)])
  | .slti d a i => (0x1E000000, [(d.toNat, 20), (a.toNat, 15), (i.toNat, 0)])
  | .sltiu d a i => (0x20000000, [(d.toNat, 20), (a.toNat, 15), (i.toNat, 0)])
  | .lui d i => (0x22000000, [(d.toNat, 20), (i.toNat, 0)])
  | .lla d i => (0x24000000, [(d.toNat, 20), (i.toNat, 0)])
  | .lif d i => (0x26000000, [(d.toNat, 20), (i.toNat, 0)])
  | .lit d a m n => (0x28000000, [(d.toNat, 20), (a.toNat, 15), (m.toNat, 4), (n.toNat, 0)])
  | .kld d a i => (0x2A000000, [(d.toNat, 20), (a.toNat, 15), (i.toNat, 0)])
  | .fadd d a b => (0x04000000, [(d.toNat, 20), (a.toNat, 15), (b.toNat, 10)])
  | .fsub d a b => (0x04000001, [(d.toNat, 20), (a.toNat, 15), (b.toNat, 10)])
  | .fmul d a b => (0x04000002, [(d.toNat, 20), (a.toNat, 15), (b.toNat, 10)])
  | .ffma d a b => (0x04000003, [(d.toNat, 20), (a.toNat, 15), (b.toNat, 10)])
  | .fmin d a b => (0x04000004, [(d.toNat, 20), (a.toNat, 15), (b.toNat, 10)])
  | .fmax d a b => (0x04000005, [(d.toNat, 20), (a.toNat, 15), (b.toNat, 10)])
  | .fcmp d a b p => (0x04000006, [(d.toNat, 20), (a.toNat, 15), (b.toNat, 10), (p.toNat, 3)])
  | .fcvt d a k => (0x04000007, [(d.toNat, 20), (a.toNat, 15), (k.toNat, 3)])
  | .ldB d a i => (0x30000000, [(d.toNat, 20), (a.toNat, 15), (i.toNat, 0)])
  | .ldBu d a i => (0x32000000, [(d.toNat, 20), (a.toNat, 15), (i.toNat, 0)])
  | .ldH d a i => (0x34000000, [(d.toNat, 20), (a.toNat, 15), (i.toNat, 0)])
  | .ldHu d a i => (0x36000000, [(d.toNat, 20), (a.toNat, 15), (i.toNat, 0)])
  | .ldW d a i => (0x38000000, [(d.toNat, 20), (a.toNat, 15), (i.toNat, 0)])
  | .ldWu d a i => (0x3A000000, [(d.toNat, 20), (a.toNat, 15), (i.toNat, 0)])
  | .ldD d a i => (0x3C000000, [(d.toNat, 20), (a.toNat, 15), (i.toNat, 0)])
  | .stB d a i => (0x40000000, [(d.toNat, 20), (a.toNat, 15), (i.toNat, 0)])
  | .stH d a i => (0x42000000, [(d.toNat, 20), (a.toNat, 15), (i.toNat, 0)])
  | .stW d a i => (0x44000000, [(d.toNat, 20), (a.toNat, 15), (i.toNat, 0)])
  | .stD d a i => (0x46000000, [(d.toNat, 20), (a.toNat, 15), (i.toNat, 0)])
  | .ldAcq d a z s => (0x48000000, [(d.toNat, 20), (a.toNat, 15), (z.toNat, 4), (s.toNat, 0)])
  | .stRel a b z s => (0x4A000000, [(a.toNat, 15), (b.toNat, 10), (z.toNat, 4), (s.toNat, 0)])
  | .bCond k a b o => (0x50000000, [(k.toNat, 22), (a.toNat, 17), (b.toNat, 12), (o.toNat, 0)])
  | .brBq s q o => (0x52000000, [(s.toNat, 23), (q.toNat, 22), (o.toNat, 0)])
  | .jal d i => (0x54000000, [(d.toNat, 20), (i.toNat, 0)])
  | .jalr d a i => (0x56000000, [(d.toNat, 20), (a.toNat, 15), (i.toNat, 0)])
  | .ovlCall d a i => (0x58000000, [(d.toNat, 20), (a.toNat, 15), (i.toNat, 0)])
  | .ovlRet a => (0x5A000000, [(a.toNat, 15)])
  | .loop a e => (0x5C000000, [(a.toNat, 15), (e.toNat, 0)])
  | .loopImm h l e => (0x5C001000, [(h.toNat, 20), (l.toNat, 15), (e.toNat, 0)])
  | .fork d a b => (0x5E000000, [(d.toNat, 20), (a.toNat, 15), (b.toNat, 10)])
  | .join => (0x60000000, [])
  | .qpush d a => (0x68000000, [(d.toNat, 20), (a.toNat, 15)])
  | .qpop d a => (0x6A000000, [(d.toNat, 20), (a.toNat, 15)])
  | .spawn d a => (0x70000000, [(d.toNat, 20), (a.toNat, 15)])
  | .spawnG d a => (0x70000001, [(d.toNat, 20), (a.toNat, 15)])
  | .kill a => (0x72000000, [(a.toNat, 15)])
  | .scopeWait d a => (0x74000000, [(d.toNat, 20), (a.toNat, 15)])
  | .weirJoin d a => (0x76000000, [(d.toNat, 20), (a.toNat, 15)])
  | .weirArrive d a b => (0x78000000, [(d.toNat, 20), (a.toNat, 15), (b.toNat, 10)])
  | .weirDrop d a b => (0x78000001, [(d.toNat, 20), (a.toNat, 15), (b.toNat, 10)])
  | .weirWait d a b => (0x7A000000, [(d.toNat, 20), (a.toNat, 15), (b.toNat, 10)])
  | .yield => (0x7C000000, [])
  | .halt => (0x7E000000, [])
  | .trap k => (0x80000000, [(k.toNat, 0)])
  | .sret => (0x82000000, [])
  | .csrr d r => (0x90000000, [(d.toNat, 20), (r.toNat, 0)])
  | .csrw d a r => (0x90001000, [(d.toNat, 20), (a.toNat, 15), (r.toNat, 0)])
  | .csrs d a r => (0x90002000, [(d.toNat, 20), (a.toNat, 15), (r.toNat, 0)])
  | .csrc d a r => (0x90003000, [(d.toNat, 20), (a.toNat, 15), (r.toNat, 0)])
  | .fenceAcq s => (0x92000000, [(s.toNat, 0)])
  | .fenceRel s => (0x92000100, [(s.toNat, 0)])
  | .fenceAr s => (0x92000200, [(s.toNat, 0)])
  | .fenceSc s => (0x94000000, [(s.toNat, 0)])
  | .genFence => (0x96000000, [])
  | .tick d => (0x98000000, [(d.toNat, 20)])
  | .tickWait a => (0x98000001, [(a.toNat, 15)])
  | .treeOpen a b => (0xA0000000, [(a.toNat, 15), (b.toNat, 10)])
  | .treeSeal d => (0xA2000000, [(d.toNat, 20)])
  | .treeNote a b => (0xA4000000, [(a.toNat, 15), (b.toNat, 10)])
  | .refExec d a b => (0xA6000000, [(d.toNat, 20), (a.toNat, 15), (b.toNat, 10)])
  | .treeBisect d a b => (0xA8000000, [(d.toNat, 20), (a.toNat, 15), (b.toNat, 10)])
  | .ldq c t b o => (0x00200000, [(c.toNat, 28), (t.toNat, 16), (b.toNat, 12), (o.toNat, 0)])
  | .ldqWb c t b o => (0x00800000, [(c.toNat, 28), (t.toNat, 16), (b.toNat, 12), (o.toNat, 0)])
  | .ldqS c d a b => (0x00400000, [(c.toNat, 28), (d.toNat, 16), (a.toNat, 12), (b.toNat, 8)])
  | .ldqG c d a t => (0x00600000, [(c.toNat, 28), (d.toNat, 16), (a.toNat, 12), (t.toNat, 0)])
  | .lLdB c t b o => (0x01000000, [(c.toNat, 28), (t.toNat, 16), (b.toNat, 12), (o.toNat, 0)])
  | .lLdBu c t b o => (0x01200000, [(c.toNat, 28), (t.toNat, 16), (b.toNat, 12), (o.toNat, 0)])
  | .lLdH c t b o => (0x01400000, [(c.toNat, 28), (t.toNat, 16), (b.toNat, 12), (o.toNat, 0)])
  | .lLdHu c t b o => (0x01600000, [(c.toNat, 28), (t.toNat, 16), (b.toNat, 12), (o.toNat, 0)])
  | .lLdW c t b o => (0x01800000, [(c.toNat, 28), (t.toNat, 16), (b.toNat, 12), (o.toNat, 0)])
  | .lLdWu c t b o => (0x01A00000, [(c.toNat, 28), (t.toNat, 16), (b.toNat, 12), (o.toNat, 0)])
  | .lLdD c t b o => (0x01C00000, [(c.toNat, 28), (t.toNat, 16), (b.toNat, 12), (o.toNat, 0)])
  | .rldQ c d a k => (0x02000000, [(c.toNat, 28), (d.toNat, 16), (a.toNat, 12), (k.toNat, 0)])
  | .lCp c d s l f => (0x03000000, [(c.toNat, 28), (d.toNat, 17), (s.toNat, 13), (l.toNat, 9), (f.toNat, 0)])
  | .lCp2d c d s l f => (0x03200000, [(c.toNat, 28), (d.toNat, 17), (s.toNat, 13), (l.toNat, 9), (f.toNat, 0)])
  | .lCpPb c s => (0x03400000, [(c.toNat, 28), (s.toNat, 13)])
  | .cpOvl c f s l w k b p => (0x03600000, [(c.toNat, 28), (f.toNat, 17), (s.toNat, 13), (l.toNat, 9), (w.toNat, 7), (k.toNat, 5), (b.toNat, 4), (p.toNat, 0)])
  | .lColl c d s l f => (0x03800000, [(c.toNat, 28), (d.toNat, 17), (s.toNat, 13), (l.toNat, 9), (f.toNat, 0)])
  | .lPbInv c s w => (0x03A00000, [(c.toNat, 28), (s.toNat, 13), (w.toNat, 0)])
  | .lAdd c d a b q => (0x04000000, [(c.toNat, 28), (d.toNat, 16), (a.toNat, 12), (b.toNat, 8), (q.toNat, 0)])
  | .lSub c d a b q => (0x04200000, [(c.toNat, 28), (d.toNat, 16), (a.toNat, 12), (b.toNat, 8), (q.toNat, 0)])
  | .lMul c d a b q => (0x04400000, [(c.toNat, 28), (d.toNat, 16), (a.toNat, 12), (b.toNat, 8), (q.toNat, 0)])
  | .lAddi c d a i => (0x04600000, [(c.toNat, 28), (d.toNat, 16), (a.toNat, 12), (i.toNat, 0)])
  | .lSlli c d a i => (0x04800000, [(c.toNat, 28), (d.toNat, 16), (a.toNat, 12), (i.toNat, 0)])
  | .lSrli c d a i => (0x04A00000, [(c.toNat, 28), (d.toNat, 16), (a.toNat, 12), (i.toNat, 0)])
  | .laCmp c a b k => (0x05000000, [(c.toNat, 28), (a.toNat, 12), (b.toNat, 8), (k.toNat, 0)])
  | .lCueTest d => (0x25900000, [(d.toNat, 16)])
  | .lCueNop c => (0x05A00000, [(c.toNat, 28)])
  | .lBCond c k o a b => (0x06000000, [(c.toNat, 28), (k.toNat, 18), (o.toNat / 256, 16), (o.toNat % 256, 0), (a.toNat, 12), (b.toNat, 8)])
  | .lLoop c e a => (0x06200000, [(c.toNat, 28), (e.toNat / 256, 16), (e.toNat % 256, 0), (a.toNat, 12)])
  | .lJoin c => (0x06400000, [(c.toNat, 28)])
  | .stq c t b o => (0x00200000, [(c.toNat, 28), (t.toNat, 16), (b.toNat, 12), (o.toNat, 0)])
  | .stqWb c t b o => (0x00800000, [(c.toNat, 28), (t.toNat, 16), (b.toNat, 12), (o.toNat, 0)])
  | .stqS c d a b => (0x00400000, [(c.toNat, 28), (d.toNat, 16), (a.toNat, 12), (b.toNat, 8)])
  | .stqX c d a t => (0x00600000, [(c.toNat, 28), (d.toNat, 16), (a.toNat, 12), (t.toNat, 0)])
  | .sStB c t b o => (0x01000000, [(c.toNat, 28), (t.toNat, 16), (b.toNat, 12), (o.toNat, 0)])
  | .sStH c t b o => (0x01200000, [(c.toNat, 28), (t.toNat, 16), (b.toNat, 12), (o.toNat, 0)])
  | .sStW c t b o => (0x01400000, [(c.toNat, 28), (t.toNat, 16), (b.toNat, 12), (o.toNat, 0)])
  | .sStD c t b o => (0x01600000, [(c.toNat, 28), (t.toNat, 16), (b.toNat, 12), (o.toNat, 0)])
  | .rstQ c d a z k => (0x02000000, [(c.toNat, 28), (d.toNat, 16), (a.toNat, 12), (z.toNat, 2), (k.toNat, 0)])
  | .ramo c d a b k o => (0x02200000, [(c.toNat, 28), (d.toNat, 16), (a.toNat, 12), (b.toNat, 8), (k.toNat, 4), (o.toNat, 0)])
  | .sCp c d s l f => (0x03000000, [(c.toNat, 28), (d.toNat, 17), (s.toNat, 13), (l.toNat, 9), (f.toNat, 0)])
  | .sCp2d c d s l f => (0x03200000, [(c.toNat, 28), (d.toNat, 17), (s.toNat, 13), (l.toNat, 9), (f.toNat, 0)])
  | .sCpPb c s => (0x03400000, [(c.toNat, 28), (s.toNat, 13)])
  | .sColl c d s l f => (0x03800000, [(c.toNat, 28), (d.toNat, 17), (s.toNat, 13), (l.toNat, 9), (f.toNat, 0)])
  | .sPbInv c s w => (0x03A00000, [(c.toNat, 28), (s.toNat, 13), (w.toNat, 0)])
  | .sAdd c d a b q => (0x04000000, [(c.toNat, 28), (d.toNat, 16), (a.toNat, 12), (b.toNat, 8), (q.toNat, 0)])
  | .sSub c d a b q => (0x04200000, [(c.toNat, 28), (d.toNat, 16), (a.toNat, 12), (b.toNat, 8), (q.toNat, 0)])
  | .sMul c d a b q => (0x04400000, [(c.toNat, 28), (d.toNat, 16), (a.toNat, 12), (b.toNat, 8), (q.toNat, 0)])
  | .sAddi c d a i => (0x04600000, [(c.toNat, 28), (d.toNat, 16), (a.toNat, 12), (i.toNat, 0)])
  | .sSlli c d a i => (0x04800000, [(c.toNat, 28), (d.toNat, 16), (a.toNat, 12), (i.toNat, 0)])
  | .sSrli c d a i => (0x04A00000, [(c.toNat, 28), (d.toNat, 16), (a.toNat, 12), (i.toNat, 0)])
  | .amo c d a b o => (0x05000000, [(c.toNat, 28), (d.toNat, 16), (a.toNat, 12), (b.toNat, 8), (o.toNat, 0)])
  | .amoG c d a b o => (0x05300000, [(c.toNat, 28), (d.toNat, 16), (a.toNat, 12), (b.toNat, 8), (o.toNat, 0)])
  | .dgrpOpen c d a b => (0x05500000, [(c.toNat, 28), (d.toNat, 16), (a.toNat, 12), (b.toNat, 8)])
  | .dgrpClose c d => (0x05700000, [(c.toNat, 28), (d.toNat, 16)])
  | .sCueTest d => (0x85900000, [(d.toNat, 16)])
  | .sCueNop c => (0x05A00000, [(c.toNat, 28)])
  | .sBCond c k o a b => (0x06000000, [(c.toNat, 28), (k.toNat, 18), (o.toNat / 256, 16), (o.toNat % 256, 0), (a.toNat, 12), (b.toNat, 8)])
  | .sLoop c e a => (0x06200000, [(c.toNat, 28), (e.toNat / 256, 16), (e.toNat % 256, 0), (a.toNat, 12)])
  | .sJoin c => (0x06400000, [(c.toNat, 28)])
  | .vadd c d a b p t => (0x00200000, [(c.toNat, 28), (d.toNat, 16), (a.toNat, 11), (b.toNat, 6), (p.toNat, 3), (t.toNat, 0)])
  | .vsub c d a b p t => (0x00400000, [(c.toNat, 28), (d.toNat, 16), (a.toNat, 11), (b.toNat, 6), (p.toNat, 3), (t.toNat, 0)])
  | .vmul c d a b p t => (0x00600000, [(c.toNat, 28), (d.toNat, 16), (a.toNat, 11), (b.toNat, 6), (p.toNat, 3), (t.toNat, 0)])
  | .vfma c d a b p t => (0x00800000, [(c.toNat, 28), (d.toNat, 16), (a.toNat, 11), (b.toNat, 6), (p.toNat, 3), (t.toNat, 0)])
  | .vmin c d a b p t => (0x00A00000, [(c.toNat, 28), (d.toNat, 16), (a.toNat, 11), (b.toNat, 6), (p.toNat, 3), (t.toNat, 0)])
  | .vmax c d a b p t => (0x00C00000, [(c.toNat, 28), (d.toNat, 16), (a.toNat, 11), (b.toNat, 6), (p.toNat, 3), (t.toNat, 0)])
  | .vabs c d a p t => (0x00E00000, [(c.toNat, 28), (d.toNat, 16), (a.toNat, 11), (p.toNat, 3), (t.toNat, 0)])
  | .vneg c d a p t => (0x01000000, [(c.toNat, 28), (d.toNat, 16), (a.toNat, 11), (p.toNat, 3), (t.toNat, 0)])
  | .vand c d a b p t => (0x01200000, [(c.toNat, 28), (d.toNat, 16), (a.toNat, 11), (b.toNat, 6), (p.toNat, 3), (t.toNat, 0)])
  | .vor c d a b p t => (0x01400000, [(c.toNat, 28), (d.toNat, 16), (a.toNat, 11), (b.toNat, 6), (p.toNat, 3), (t.toNat, 0)])
  | .vxor c d a b p t => (0x01600000, [(c.toNat, 28), (d.toNat, 16), (a.toNat, 11), (b.toNat, 6), (p.toNat, 3), (t.toNat, 0)])
  | .vnot c d a p t => (0x01800000, [(c.toNat, 28), (d.toNat, 16), (a.toNat, 11), (p.toNat, 3), (t.toNat, 0)])
  | .vshl c d a b p t => (0x01A00000, [(c.toNat, 28), (d.toNat, 16), (a.toNat, 11), (b.toNat, 6), (p.toNat, 3), (t.toNat, 0)])
  | .vshr c d a b p t => (0x01C00000, [(c.toNat, 28), (d.toNat, 16), (a.toNat, 11), (b.toNat, 6), (p.toNat, 3), (t.toNat, 0)])
  | .vsra c d a b p t => (0x01E00000, [(c.toNat, 28), (d.toNat, 16), (a.toNat, 11), (b.toNat, 6), (p.toNat, 3), (t.toNat, 0)])
  | .vcmpEq c d a b p t => (0x02000000, [(c.toNat, 28), (d.toNat, 16), (a.toNat, 11), (b.toNat, 6), (p.toNat, 3), (t.toNat, 0)])
  | .vcmpNe c d a b p t => (0x02200000, [(c.toNat, 28), (d.toNat, 16), (a.toNat, 11), (b.toNat, 6), (p.toNat, 3), (t.toNat, 0)])
  | .vcmpLt c d a b p t => (0x02400000, [(c.toNat, 28), (d.toNat, 16), (a.toNat, 11), (b.toNat, 6), (p.toNat, 3), (t.toNat, 0)])
  | .vcmpLe c d a b p t => (0x02600000, [(c.toNat, 28), (d.toNat, 16), (a.toNat, 11), (b.toNat, 6), (p.toNat, 3), (t.toNat, 0)])
  | .vsel c d a b e t => (0x02800000, [(c.toNat, 28), (d.toNat, 16), (a.toNat, 11), (b.toNat, 6), (e.toNat, 3), (t.toNat, 0)])
  | .vmov c d a p t => (0x02A00000, [(c.toNat, 28), (d.toNat, 16), (a.toNat, 11), (p.toNat, 3), (t.toNat, 0)])
  | .vsplat c d a i p t => (0x02C00000, [(c.toNat, 28), (d.toNat, 16), (a.toNat, 11), (i.toNat, 6), (p.toNat, 3), (t.toNat, 0)])
  | .vfmaQs c d m q p t => (0x02E00000, [(c.toNat, 28), (d.toNat, 16), (m.toNat, 11), (q.toNat, 6), (p.toNat, 3), (t.toNat, 0)])
  | .vcvt c d a s h p t => (0x03000000, [(c.toNat, 28), (d.toNat, 16), (a.toNat, 11), (s.toNat, 8), (h.toNat, 6), (p.toNat, 3), (t.toNat, 0)])
  | .vquant c d a k g h => (0x03200000, [(c.toNat, 28), (d.toNat, 16), (a.toNat, 11), (k.toNat, 10), (g.toNat, 8), (h.toNat, 3)])
  | .vdequant c d a k g h => (0x03400000, [(c.toNat, 28), (d.toNat, 16), (a.toNat, 11), (k.toNat, 10), (g.toNat, 8), (h.toNat, 3)])
  | .vredAdd c d a p t => (0x04000000, [(c.toNat, 28), (d.toNat, 16), (a.toNat, 11), (p.toNat, 3), (t.toNat, 0)])
  | .vredMax c d a p t => (0x04200000, [(c.toNat, 28), (d.toNat, 16), (a.toNat, 11), (p.toNat, 3), (t.toNat, 0)])
  | .vredMin c d a p t => (0x04400000, [(c.toNat, 28), (d.toNat, 16), (a.toNat, 11), (p.toNat, 3), (t.toNat, 0)])
  | .vperm c d a b p t => (0x04800000, [(c.toNat, 28), (d.toNat, 16), (a.toNat, 11), (b.toNat, 6), (p.toNat, 3), (t.toNat, 0)])
  | .vrot c d a b p t => (0x04A00000, [(c.toNat, 28), (d.toNat, 16), (a.toNat, 11), (b.toNat, 6), (p.toNat, 3), (t.toNat, 0)])
  | .vbcast c d a b p t => (0x04C00000, [(c.toNat, 28), (d.toNat, 16), (a.toNat, 11), (b.toNat, 6), (p.toNat, 3), (t.toNat, 0)])
  | .vpart c d a b p => (0x05000003, [(c.toNat, 28), (d.toNat, 16), (a.toNat, 11), (b.toNat, 6), (p.toNat, 3)])
  | .vcount c d b p => (0x05200003, [(c.toNat, 28), (d.toNat, 16), (b.toNat, 6), (p.toNat, 3)])
  | .vcompact c d a b p t => (0x05400000, [(c.toNat, 28), (d.toNat, 16), (a.toNat, 11), (b.toNat, 6), (p.toNat, 3), (t.toNat, 0)])
  | .vexpand c d a b p t => (0x05600000, [(c.toNat, 28), (d.toNat, 16), (a.toNat, 11), (b.toNat, 6), (p.toNat, 3), (t.toNat, 0)])
  | .vexp2 c d a p => (0x05800000, [(c.toNat, 28), (d.toNat, 16), (a.toNat, 11), (p.toNat, 3)])
  | .vlog2 c d a p => (0x05A00000, [(c.toNat, 28), (d.toNat, 16), (a.toNat, 11), (p.toNat, 3)])
  | .vrcp c d a p => (0x05C00000, [(c.toNat, 28), (d.toNat, 16), (a.toNat, 11), (p.toNat, 3)])
  | .vrsqrt c d a p => (0x05E00000, [(c.toNat, 28), (d.toNat, 16), (a.toNat, 11), (p.toNat, 3)])
  | .vpop c d q p t => (0x06000000, [(c.toNat, 28), (d.toNat, 16), (q.toNat, 11), (p.toNat, 3), (t.toNat, 0)])
  | .vpush c q a => (0x06200000, [(c.toNat, 28), (q.toNat, 16), (a.toNat, 11)])
  | .vany c a p => (0x06400000, [(c.toNat, 28), (a.toNat, 11), (p.toNat, 3)])
  | .pand c d a b => (0x06800000, [(c.toNat, 28), (d.toNat, 16), (a.toNat, 11), (b.toNat, 6)])
  | .por c d a b => (0x06A00000, [(c.toNat, 28), (d.toNat, 16), (a.toNat, 11), (b.toNat, 6)])
  | .pxor c d a b => (0x06C00000, [(c.toNat, 28), (d.toNat, 16), (a.toNat, 11), (b.toNat, 6)])
  | .pnot c d a => (0x06E00000, [(c.toNat, 28), (d.toNat, 16), (a.toNat, 11)])
  | .cadd c d a b => (0x08000000, [(c.toNat, 28), (d.toNat, 16), (a.toNat, 11), (b.toNat, 6)])
  | .csub c d a b => (0x08200000, [(c.toNat, 28), (d.toNat, 16), (a.toNat, 11), (b.toNat, 6)])
  | .cmul c d a b => (0x08400000, [(c.toNat, 28), (d.toNat, 16), (a.toNat, 11), (b.toNat, 6)])
  | .caddi c d a i => (0x08600000, [(c.toNat, 28), (d.toNat, 16), (a.toNat, 11), (i.toNat, 0)])
  | .cslli c d a i => (0x08800000, [(c.toNat, 28), (d.toNat, 16), (a.toNat, 11), (i.toNat, 0)])
  | .csrli c d a i => (0x08A00000, [(c.toNat, 28), (d.toNat, 16), (a.toNat, 11), (i.toNat, 0)])
  | .cli c d i => (0x08C00000, [(c.toNat, 28), (d.toNat, 16), (i.toNat, 0)])
  | .cBCond c k o a b => (0x09000000, [(c.toNat, 28), (k.toNat, 18), (o.toNat / 128, 16), (o.toNat % 128, 0), (a.toNat, 11), (b.toNat, 7)])
  | .cLoop c a e => (0x09200000, [(c.toNat, 28), (a.toNat, 11), (e.toNat, 0)])
  | .cJoin c => (0x09400000, [(c.toNat, 28)])
  | .mlease c => (0x0A000000, [(c.toNat, 28)])
  | .mrel c => (0x0A200000, [(c.toNat, 28)])
  | .mma c s a b i j u k => (0x0A400000, [(c.toNat, 28), (s.toNat, 18), (a.toNat, 15), (b.toNat, 12), (i.toNat, 11), (j.toNat, 10), (u.toNat, 9), (k.toNat, 6)])
  | .mmaV c s g b j k f e => (0x0A600000, [(c.toNat, 28), (s.toNat, 18), (g.toNat, 15), (b.toNat, 12), (j.toNat, 10), (k.toNat, 6), (f.toNat, 3), (e.toNat, 0)])
  | .mzero c s => (0x0A800000, [(c.toNat, 28), (s.toNat, 18)])
  | .macc c s a b => (0x0AA00000, [(c.toNat, 28), (s.toNat, 18), (a.toNat, 15), (b.toNat, 12)])
  | .mdrain c s a i f r => (0x0AC00000, [(c.toNat, 28), (s.toNat, 18), (a.toNat, 15), (i.toNat, 11), (f.toNat, 7), (r.toNat, 6)])
  | .mload c s a i r => (0x0AE00000, [(c.toNat, 28), (s.toNat, 18), (a.toNat, 15), (i.toNat, 11), (r.toNat, 6)])
  | .mpatch c s r v p h => (0x0B000000, [(c.toNat, 28), (s.toNat, 18), (r.toNat, 15), (v.toNat, 7), (p.toNat, 4), (h.toNat, 3)])
  | .mpeek c s r v p h => (0x0B200000, [(c.toNat, 28), (s.toNat, 18), (r.toNat, 15), (v.toNat, 7), (p.toNat, 4), (h.toNat, 3)])
  | .mstat c d => (0x0B400000, [(c.toNat, 28), (d.toNat, 0)])
  | _ => (0, [])

/-- The word of an instruction. -/
def encode (i : Instr) : Nat := pack (encodeParts i).1 (encodeParts i).2

/-- The clusters whose maps `decodeFirst` tries: a table row's bits do not say which cluster's map it belongs to. -/
def tableOrder : List Cl := [.K, .L, .S, .C]

/-- How many of the low n bits of a number are 1. -/
def ones : Nat → Nat → Nat
  | 0, _ => 0
  | n + 1, w => w % 2 + ones n (w / 2)

/-- Of the maps that take a word, the one that gives it the most fixed 1 bits, and so the fewest operand bits; of two such, the first.
DESIGN CHOICE (log 5). -/
def decodeFirst (w : Nat) : List Cl → Option (Cl × Instr)
  | [] => none
  | cl :: cls =>
    match decode cl w with
    | .error _ => decodeFirst w cls
    | .ok i =>
      match decodeFirst w cls with
      | some (d, j) => if ones 32 (encodeParts i).1 < ones 32 (encodeParts j).1 then some (d, j) else some (cl, i)
      | none => some (cl, i)

/-- The instruction this decoder reads from a table row's bits: the word itself does not name its cluster, which a line's header does
(08 R194), so that `decodeFirst` chooses among the maps. -/
def decodeTableWord (nbits w : Nat) : Option Instr :=
  if nbits = 32 then (decodeFirst (w % 2 ^ 32) tableOrder).map Prod.snd else none

end Sys2Proof
end

