-- ==== Sys2Proof/Machine/Referee.lean ====
section
/-! DEFINITION. K: ref.exec, which referees one leaf (15 R410, R411). -/

namespace Sys2Proof.Machine
open Sys2Proof

/-! ## Reads and writes on the paths of a copy job -/

/-- The bytes of a run of this package. A home's status is none of the causes of `ref.exec` (00 R11): bytes that it withholds are free. -/
def refReadHere (s : State) (ctx : W16) (r : Run) : Chk (List Byte) := do
  awakeAll s r.pa r.len
  if r.pod && decide (homeStatus s r.striped r.pa r.len r.key ≠ statusOk) then .ok (refFar s r.va r.len)
  else match s.mem.read ctx r.key r.pa r.len with
  | some bs => .ok bs
  | none => .error (.poison ctx (s.mem.badLine ctx r.pa r.len))

/-- Requests for the bytes of another package, at most 256 each. -/
def refChunks (runs : List Run) : List (Nat × Run × Nat) :=
  (offRuns 0 runs).flatMap fun x =>
    match x.2.home with
    | some h => (cutRun (x.2.len / 256 + 1) x.1 x.2).map fun y => (y.1, y.2, h)
    | none => []

/-- What was asked for a piece of another package. -/
def refReq? (s : State) (r : Run) : Option RefReq := s.cc.mem.refReqs.find? fun x => !x.write && x.va = r.va && x.len = r.len

/-- The bytes of a run of another package, once they are all there. -/
def refReadAway (s : State) (home : Nat) : List (Nat × Run) → Chk (List Byte)
  | [] => .ok []
  | (_, r) :: rest => do
    let bs ← (match refReq? s r with
      | some x => (match x.data with
        | some bs => .ok bs
        | none => .error .wait)
      | none => if peerUp s home then .error .wait else .ok (refFar s r.va r.len))
    let more ← refReadAway s home rest
    .ok (bs ++ more)

def refReadRuns (s : State) (ctx : W16) : List Run → Chk (List Byte)
  | [] => .ok []
  | r :: rest => do
    let bs ← (match r.home with
      | some h => refReadAway s h (cutRun (r.len / 256 + 1) 0 r)
      | none => refReadHere s ctx r)
    let more ← refReadRuns s ctx rest
    .ok (bs ++ more)

def refRuns (s : State) (va n : Nat) : Chk (List Run) := do
  let ps ← translateRange s s.cc.ctx s.cc.sys.sv .jobRead anyFmt va n
  .ok (runsOf s ps)

def refRead (s : State) (va n : Nat) : Chk (List Byte) := do
  let rs ← refRuns s va n
  refReadRuns s s.cc.ctx rs

/-- A run of this package that its home serves. -/
def refServed (s : State) (r : Run) : Bool := r.home.isSome || !r.pod || decide (homeStatus s r.striped r.pa r.len r.key = statusOk)

/-- Where a result goes, once it can go there. -/
def refDest (s : State) (va n : Nat) : Chk (List Run) := do
  let ps ← translateRange s s.cc.ctx s.cc.sys.sv .jobWrite anyFmt va n
  let rs := runsOf s ps
  checkDest s s.cc.ctx (rs.filter (refServed s))
  .ok rs

/-- A request of the referee's. -/
def State.refSend (s : State) (home : Nat) (r : Run) (write : Bool) (data : List Byte) : State :=
  let (tag, s1) := s.newTag
  let x : RefReq := { tag := tag, home := home, va := r.va, len := r.len, deadline := s.sys.pkgCycle.toNat + timeoutCycles s, key := r.key, write := write,
                      flight := (s.cc.cluster .K).flightNo }
  let c := s1.cc
  (s1.putCc { c with mem := { c.mem with refReqs := c.mem.refReqs ++ [x] } }).sendRequest
    { src := selfPkg s, dst := home, core := s.curCore, tag := tag, sInc := selfInc s, rInc := peerInc s home, ctx := s.cc.ctx,
      addr := r.pa, op := boolNat write, striped := r.striped, len := r.len, aop := 0, key := r.key, cls := 0, data := data }

/-- A result into the runs that can take it; a package that is not up takes none. -/
def State.refWrite (s : State) (runs : List Run) (bs : List Byte) : State :=
  let here := (offRuns 0 runs).foldl (fun m x =>
    if x.2.home.isSome || !refServed s x.2 then m else m.write s.cc.ctx x.2.key x.2.pa ((bs.drop x.1).take x.2.len)) s.mem
  (refChunks runs).foldl (fun s x => if peerUp s x.2.2 then s.refSend x.2.2 x.2.1 true ((bs.drop x.1).take x.2.1.len) else s) (s.withMem here)

/-! ## The record (R395 to R397) -/

structure RefLeaf where
  cluster : Nat
  pkg : Nat
  kind : Nat
  mode : Nat
  lane : Nat
  param : List Byte
  a : List Byte
  b : List Byte
  res : List Byte

def leafAt (r : List Byte) : RefLeaf :=
  { cluster := bits (payAt r 0 8) 57 56, kind := bits (payAt r 0 8) 55 48, pkg := bits (payAt r 8 8) 21 16, mode := payAt r 24 4, lane := payAt r 40 4,
    param := (r.drop 48).take 64, a := (r.drop 112).take 48, b := (r.drop 160).take 48, res := (r.drop 224).take 32 }

/-- ReservedBytesSet. -/
def reservedSet (r : List Byte) : Bool :=
  let w1 := payAt r 8 8
  decide (bits (payAt r 0 8) 63 58 ≠ 0) || decide (bits w1 63 28 ≠ 0) || decide (bits w1 23 22 ≠ 0) || decide (bits w1 15 11 ≠ 0)
    || decide (payAt r 22 2 ≠ 0) || decide (bits (payAt r 24 4) 31 28 ≠ 0) || decide (bits (payAt r 32 8) 51 0 ≠ 0)
    || decide (payAt r 44 4 ≠ 0)

/-- Page codes of MODE: format and geometry of A, B and the result. -/
def RefLeaf.fa (l : RefLeaf) : Nat := bits l.mode 3 0
def RefLeaf.ga (l : RefLeaf) : Nat := bits l.mode 7 4
def RefLeaf.fb (l : RefLeaf) : Nat := bits l.mode 11 8
def RefLeaf.gb (l : RefLeaf) : Nat := bits l.mode 15 12
def RefLeaf.gr (l : RefLeaf) : Nat := bits l.mode 23 20
def RefLeaf.op (l : RefLeaf) : Nat := bits l.lane 27 21
def RefLeaf.card (l : RefLeaf) : List W64 := words64 8 l.param

/-- A leaf of the array. -/
def RefLeaf.matrix (l : RefLeaf) : Bool := l.cluster = 2

/-- The format and geometry codes that an operand of the array can have. -/
def matCode (fmt geo : Nat) : Bool := matFormat fmt && decide (geo ≤ 4) && (isSb fmt || decide (geo = 0))

/-- LANE, PARAM and MODE are those of a matrix command that makes leaves. -/
def matrixDecodes (l : RefLeaf) : Bool :=
  let plain := decide (ofBytes l.param = 0)
  (match decode .C l.lane with
    | .ok _ => true
    | .error _ => false)
    && (match l.op with
      | 0x52 => plain && matCode l.fa l.ga && matCode l.fb l.gb && (isSb l.fa == isSb l.fb)
      | 0x53 => plain && matCode l.fa l.ga && matCode l.fb l.gb && (isSb l.fa == isSb l.fb)
      | 0x54 => plain
      | 0x55 => plain
      | 0x56 => plain && decide (l.gr ≤ 4)
      | 0x57 => plain
      | 0x58 => decide (payAt l.param 0 8 ≤ 127) && decide (ofBytes (l.param.drop 16) = 0)
      | _ => false)

/-- A card that can have been accepted; the members of a collective stand in no leaf. -/
def cardDecodes (c : List W64) : Bool :=
  let f : CardFrom := { block := false, noFrame := false, bank := false, mask := 0, self := 0 }
  if cardKind c = 3 then
    (List.range 8).all (fun i => i = 3 || !wordBad c f i) && decide (cardOp c ≤ 4) && decide (bits (cardWord c 3) 43 42 = 0)
      && decide (cardIlen c ≠ 0) && decide (cardOlen c ≠ 0)
  else (cardBad c f).isNone

/-- LANE and PARAM are those of a command that makes a job, or of a node's job. -/
def jobDecodes (l : RefLeaf) : Bool :=
  cardDecodes l.card && (if l.cluster = 0 then decide (l.lane = 0) && decide (cardKind l.card ≤ 1)
    else
      (match decode (if l.cluster = 1 then .L else .S) l.lane with
        | .ok _ => true
        | .error _ => false)
      && (match l.op with
        | 0x18 => cardKind l.card = 0
        | 0x19 => cardKind l.card = 1
        | 0x1A => decide (cardKind l.card ≤ 2)
        | 0x1B => decide (cardKind l.card = 2) && decide (l.cluster = 1)
        | 0x1C => cardKind l.card = 3
        | _ => false))

def RefLeaf.decodes (l : RefLeaf) : Bool := if l.matrix then matrixDecodes l else jobDecodes l

/-! ## Execute (R411) -/

/-- Operand bytes to a length: what the caller does not supply is not known. -/
def supplied (n : Nat) (bs : List Byte) (len : Nat) : List Byte :=
  bs.take len ++ (List.range (len - bs.length)).map fun i => Config.farByte n i

/-- An operand from its bytes: every row, then the scales (R398). -/
def operandFrom (n fmt geo rows kl : Nat) (bs : List Byte) : MOperand :=
  let w := elemBits fmt
  let rb := kl * w / 8
  let blocks := if isSb fmt then ceilDiv kl (blockLen geo) else 0
  let all := supplied n bs (rows * (rb + blocks))
  { fmt := fmt, len := blockLen geo, rows := (List.range rows).map fun i =>
      { elems := elemsOf w kl (ofBytes ((all.drop (i * rb)).take rb))
        scales := ((all.drop (rows * rb + i * blocks)).take blocks).map BitVec.toNat } }

/-- The rows of a slot from its bytes. -/
def rowsFrom (n rows : Nat) (bs : List Byte) : List (BitVec 4096) :=
  let all := supplied n bs (512 * rows)
  (List.range rows).map fun i => BitVec.ofNat 4096 (ofBytes ((all.drop (512 * i)).take 512))

/-- 65,536 bytes of a slot of which some rows are given. -/
def slotOf (rows : List (BitVec 4096)) : List Byte := rowsBytes ((List.range 128).map fun i => rows.getD i 0)

def execMultiply (n : Nat) (l : RefLeaf) (m : Nat) (a b : List Byte) : List Byte :=
  let kl := kLength (bits l.lane 8 6)
  slotOf (matrixRows (operandFrom n l.fa l.ga m kl a) (operandFrom n l.fb l.gb 128 kl b) kl)

def execMatrixLeaf (n : Nat) (l : RefLeaf) (a b : List Byte) : List Byte :=
  match l.op with
  | 0x52 => execMultiply n l (if bit l.lane 9 then 64 else 128) a b
  | 0x53 => execMultiply n l 8 a b
  | 0x54 => slotOf []
  | 0x55 => slotOf (((rowsFrom n 128 a).zip (rowsFrom n 128 b)).map fun p => addRows p.1 p.2)
  | 0x56 =>
    let outs := ((rowsFrom n 128 a).take (if bit l.lane 6 then 64 else 128)).map (drainRow (bits l.lane 8 7) l.gr)
    outs.flatMap Prod.fst ++ outs.flatMap Prod.snd
  | 0x57 => slotOf ((rowsFrom n (if bit l.lane 6 then 64 else 128) a).map fun r => slotRow ((slotValues r).map canon32))
  | _ =>
    let v : Vec := BitVec.ofNat 2048 (ofBytes (supplied n b 256))
    let m : MCmd := { flight := 0, iseq := 0, word := BitVec.ofNat 32 l.lane, addr := 0, sv := false, regs := [v],
                      pred := BitVec.ofNat 64 (payAt l.param 8 8) }
    bytesOf 512 (patchRow m ((rowsFrom n 1 a).headD 0)).toNat

/-- How many members contributed: each sends ILEN tiles, and a gather's destination holds them all. -/
def membersIn (c : List W64) (b : List Byte) : Nat :=
  if cardOp c = 2 then cardOlen c / cardIlen c else max 1 (ceilDiv b.length (64 * cardIlen c))

/-- The ranks that a reduce-scatter's card can be of, of n: those whose length is OLEN (10 R284). -/
def ranksIn (c : List W64) (n : Nat) : List Nat := (List.range n).filter fun r => decide (ceilDiv (cardIlen c - r) n = cardOlen c)

/-- The rank of a reduce-scatter's leaf. The mask stands in no leaf: where several ranks are left it is the one whose result is the leaf's, and where
none is, which of them is free. DESIGN CHOICE (log 94). -/
def rankIn (l : RefLeaf) (n : Nat) (out : Nat → List Byte) : Nat :=
  let rs := ranksIn l.card n
  (rs.find? fun r => decide (blake3 (out r) = l.res)).getD (rs.getD (Config.leafRank l.pkg (cardGroup l.card) n % max 1 rs.length) 0)

/-- Fold over the contributions in rank order, for tile t of each. -/
def foldRanks (op ilen ranks : Nat) (tiles : List (List W32)) (t : Nat) : List W32 :=
  match (List.range ranks).map fun r => tiles.getD (r * ilen + t) [] with
  | [] => []
  | x :: rest => rest.foldl (foldTile op) x

def execJobLeaf (n : Nat) (l : RefLeaf) (a b : List Byte) : List Byte :=
  let c := l.card
  if cardKind c ≠ 3 then a
  else
    let k := membersIn c b
    let all := supplied n b (64 * cardIlen c * (if cardOp c = 3 then 1 else k))
    if reduces (cardOp c) then
      let tiles := tilesOf all
      let fold (tile : Nat → Nat) : List Byte :=
        (List.range (cardOlen c)).flatMap fun u => tileBytes (foldRanks (cardOp c) (cardIlen c) k tiles (tile u))
      let scatter (r : Nat) : List Byte := fold fun u => r + k * u
      if cardOp c = 1 then scatter (rankIn l k scatter) else fold id
    else (all.take (64 * cardOlen c))

def execLeaf (n : Nat) (l : RefLeaf) (a b : List Byte) : List Byte := if l.matrix then execMatrixLeaf n l a b else execJobLeaf n l a b

/-! ## The verdict (R410) -/

def verdictRecord (v diff : Nat) (first : List Byte) (digest : List Byte) : List Byte :=
  bytesOf 8 (v + diff * 256) ++ first ++ List.replicate 16 0 ++ digest

structure Verdict where
  v : Nat
  diff : Nat := 0
  digest : List Byte := zeroRoot
  out : Option (List Byte) := none

/-- The bytes supplied for an operand are not those of its field. An operand that the leaf marks absent (R397) has no bytes.
DEDUCED (log 47). -/
def operandDiffers (field bs : List Byte) : Bool :=
  if ofBytes field = 0 && bs = [] then false else decide (blake3 bs ≠ field.drop 16)

def judge (s : State) (l : RefLeaf) (a b : List Byte) : Chk Verdict :=
  let badA := operandDiffers l.a a
  let badB := operandDiffers l.b b
  if badA || badB then .ok { v := 2, diff := boolNat badA + 2 * boolNat badB }
  else do
    need (!l.matrix || decide (s.cc.lease = .held)) (.trap .lease (BitVec.ofNat 64 (s.addr % 2 ^ 17)))
    let out := execLeaf s.free l a b
    let d := blake3 out
    .ok { v := if d = l.res then 0 else 1, digest := d, out := some out }

/-- The verdict on a leaf under a witness block. -/
def refVerdict (s : State) (l : RefLeaf) (w : List W64) : Chk Verdict := do
  if l.kind ≠ 1 then .ok { v := 3 }
  else do
    needOp l.decodes s.addr 0x11
    let a ← refRead s (wordAt w 0) (wordAt w 1)
    let b ← refRead s (wordAt w 2) (wordAt w 3)
    judge s l a b

def State.storeVerdict (s : State) (w : List W64) (first : List Byte) (v : Verdict) : Chk State := do
  let record := verdictRecord v.v v.diff first v.digest
  let out := if wordAt w 5 = 0 then [] else v.out.getD []
  let rs ← refDest s (wordAt w 5) out.length
  let rv ← refDest s (wordAt w 4) 64
  .ok ((s.refWrite rs out).refWrite rv record)

/-- The words of a witness block that must be zero. -/
def witnessBad (w : List W64) : Bool := decide (wordAt w 6 ≠ 0) || decide (wordAt w 7 ≠ 0)

/-- A record that no leaf has. -/
def recordBad (r : List Byte) : Bool := !(decide (1 ≤ (leafAt r).kind) && decide ((leafAt r).kind ≤ 4)) || reservedSet r

def refExec (s : State) (xa xb : Nat) : Chk (Nat × State) := do
  need s.cc.sys.sv privHalt
  if xa % 64 ≠ 0 then badAlign xa
  else if xb % 64 ≠ 0 then badAlign xb
  else do
    let wb ← refRead s xb 64
    let w := words64 8 wb
    needOp (!witnessBad w) s.addr 0x11
    if wordAt w 4 % 64 ≠ 0 then badAlign (wordAt w 4)
    else do
      let rec0 ← refRead s xa 256
      let l := leafAt rec0
      needOp (!recordBad rec0) s.addr 0x11
      let v ← refVerdict s l w
      let s1 ← s.storeVerdict w (rec0.take 8) v
      .ok (v.v, s1.cacheAll s.cc.ctx [xa, xb, wordAt w 0, wordAt w 2, wordAt w 4, wordAt w 5])

/-- What `ref.exec` reads, as far as it knows it. -/
def refRanges (s : State) (xa xb : Nat) : List (Nat × Nat) :=
  (xb, 64) :: (match refRead s xb 64 with
    | .error _ => []
    | .ok wb =>
      let w := words64 8 wb
      if witnessBad w || wordAt w 4 % 64 ≠ 0 then []
      else (xa, 256) :: (match refRead s xa 256 with
        | .error _ => []
        | .ok r =>
          if !recordBad r && (leafAt r).kind = 1 && (leafAt r).decodes then [(wordAt w 0, wordAt w 1), (wordAt w 2, wordAt w 3)] else []))

/-- The bytes of other packages among them that have not been asked for. -/
def refMissing (s : State) (xa xb : Nat) : List (Run × Nat) :=
  (refRanges s xa xb).flatMap fun x =>
    match refRuns s x.1 x.2 with
    | .error _ => []
    | .ok rs => (refChunks rs).filterMap fun y => if peerUp s y.2.2 && (refReq? s y.2.1).isNone then some y.2 else none

/-- `ref.exec` asks for what lies in other packages, waits for it, and then issues; it completes once every package it writes to has answered. The
pages of the runs it reads and writes are cached by their first addresses. -/
def execRefExec (d a b : BitVec 5) (s : State) : Out :=
  let xa := (s.regs.getX a.toNat).toNat
  let xb := (s.regs.getX b.toNat).toNat
  let missing := if s.cc.sys.sv && decide (xa % 64 = 0) && decide (xb % 64 = 0) then refMissing s xa xb else []
  if missing ≠ [] then .next (missing.foldl (fun s x => s.refSend x.2 x.1 false []) s)
  else issuePlain .K (.ok ()) (do
    let (v, s1) ← refExec s xa xb
    let c := s1.cc
    let s2 := s1.putCc { c with mem := { c.mem with refReqs := c.mem.refReqs.filter RefReq.write } }
    .ok { st := s2.putRegs (s2.regs.setX d.toNat (BitVec.ofNat 64 v))
          flight := some (if s2.cc.mem.refReqs.any (fun r => r.flight = (s.cc.cluster .K).flightNo) then .remote else .sync) }) s

end Sys2Proof.Machine
end

