-- ==== Sys2Proof/Machine/Bridge.lean ====
section
/-! DEFINITION. Flits of the mesh and of the bridges between dies: the SECDED of their words, reassembly at a router's input, demotion, and
packets whose data a double error has lost (02 R54; 16 R427, R428). -/

namespace Sys2Proof.Machine
open Sys2Proof

/-- The circuit slot takes scheduled flits; one that is demoted clears CIRC. -/
def clearCirc (f : BitVec 1024) : BitVec 1024 := BitVec.ofNat 1024 (setBits f.toNat 10 10 0)

def Router.slots (r : Router) (input : Nat) : Slots := Map.get {} r.inputs input
def Router.putSlots (r : Router) (input : Nat) (x : Slots) : Router := { r with inputs := Map.set r.inputs input x }

/-- A flit into its reassembly slot (R420): what the slots hold then, and the packet it completes, with whether its data is poisoned. A flit out
of place drops the slot's packet. -/
def Slots.take (x : Slots) (f : BitVec 1024) (bad : Bool) : Slots × Option (List Byte × Bool) :=
  let k := slotOfFlit f
  let held := vget [] x.flits k
  let empty : Slots := { flits := x.flits.setIfInBounds k [], bad := x.bad.filter fun i => i ≠ k }
  if decide (flitPos f = 1 ∨ flitPos f = 3) ≠ held.isEmpty then (empty, none)
  else
    let fs := held ++ [f]
    let worse := bad || x.bad.contains k
    if flitPos f = 2 || flitPos f = 3 then (empty, (wholePacket fs).map fun bs => (bs, worse))
    else ({ flits := x.flits.setIfInBounds k fs, bad := if worse then setIns x.bad k else x.bad }, none)

/-- A contribution whose data is lost: its entry is freed, its destination is left poisoned, and its context ends (02 R65, R66). -/
def State.poisonedTile (s : State) (p : Contrib) : State :=
  if !current s p.src p.sInc p.rInc then s.countStalePacket
  else if s.fab.abortedHere.contains (p.ctx, p.group) then s
  else
    let s1 := match combAt s p with
      | some e => s.dropComb e
      | none => s
    ((s1.leavePoison p.ctx p.dst 64).answer p statusOk).endContext p.ctx

/-- A packet whose data is poisoned for the context it carries (02 R65, R66): a write leaves its lines poisoned, an atomic is not performed, an
answer delivers nothing, and one that carries no context is dropped. On its way to another package an answer goes on as POISON; any other packet
is dropped, and its operation's time runs out. DESIGN CHOICE (log 93). DESIGN CHOICE (log 81). -/
def State.poisonedPacket (s : State) (circ : Bool) (cls : Nat) (bs : List Byte) : State :=
  let lost (a : RemoteResp) : RemoteResp := if a.data = [] then a else { a with status := statusPoison, data := [] }
  match packetOf bs with
  | none => s
  | some (dst, p) =>
    if dst ≠ selfPkg s then
      match p with
      | .response a => s.forward none circ cls a.core dst ((Packet.response (lost a)).payload dst)
      | _ => s
    else match p with
    | .request r => if r.op = 0 then s.arrive none circ cls bs else s.takeRequest { r with op := r.op + 2, cls := cls }
    | .response a => s.takeResponse (lost a)
    | .contrib c _ => s.poisonedTile c
    | _ => s

/-- The router at which a packet leaves the mesh, where the manual says it: that of the slice that a request reaches, and of the bay whose core
an answer is for. -/
def meshExit (s : State) (bs : List Byte) : Option Nat :=
  match packetOf bs with
  | some (dst, .request r) => if dst = selfPkg s && isSlice r.addr then some (bayOfPa r.addr) else none
  | some (dst, .response a) => if dst = selfPkg s then some (bayOfCore a.core) else none
  | _ => none

/-- A flit at a router's input is demoted: the current slot does not connect that input, or where it is injected, none of 256 does
(02 R54; 04 R110). -/
def demotes (r : Router) (slot input : Nat) : Bool := if input = 4 then !everConnects r 4 else !connects r slot input

/-- A packet complete at a router's input, which ordinary traffic reaches by its row and then its column (02 R52): at the router where it
leaves the mesh it acts; at another it goes on. Where the manual does not say which that is, it acts where it comes. -/
def State.meshPacket (s : State) (router input : Nat) (circ : Bool) (cls : Nat) (bs : List Byte) : State :=
  match meshExit s bs with
  | none => s.arrive none circ cls bs
  | some b => if router = b && (circ || onWay router input b) then s.arrive none circ cls bs else s

/-- A flit reaches a router's input, with what SECDED found in each of its words, single errors corrected. DESIGN CHOICE (log 93). -/
def State.meshFlit (s : State) (router input : Nat) (f : BitVec 1024) (found : List Ecc) : State :=
  let r := s.router router
  let demoted := flitCirc f && demotes r (s.sys.pkgCycle.toNat % 256) input
  let g := if demoted then clearCirc f else f
  let r1 := if demoted then r.missed 1 else r
  let (x, whole) := (r1.slots input).take g (found.contains .uncorrectable)
  let s1 := s.putRouter router (r1.putSlots input x)
  if router ≥ Config.bays || !routerPort (router % 72) input || flitClass f = 3 then s
  else match whole with
  | none => s1
  | some (bs, true) => s1.poisonedPacket (flitCirc g) (flitClass f) bs
  | some (bs, false) => s1.meshPacket router input (flitCirc g) (flitClass f) bs

end Sys2Proof.Machine
end

