-- ==== Sys2Proof/Machine/Lanes.lean ====
section
/-! DEFINITION. The lanes' meanings gathered for what issues several of them in one step: the heads of a SYNC line. -/

namespace Sys2Proof.Machine
open Sys2Proof

/-- The meaning of a lane; an event is no lane, and nothing happens. -/
def laneMeaning (i : Instr) (s : State) : Host.Outcome State Fault Refusal :=
  match i with
  | .add d a b => execAdd d a b s
  | .sub d a b => execSub d a b s
  | .and d a b => execAnd d a b s
  | .or d a b => execOr d a b s
  | .xor d a b => execXor d a b s
  | .sll d a b => execSll d a b s
  | .srl d a b => execSrl d a b s
  | .sra d a b => execSra d a b s
  | .slt d a b => execSlt d a b s
  | .sltu d a b => execSltu d a b s
  | .min d a b => execMin d a b s
  | .max d a b => execMax d a b s
  | .minu d a b => execMinu d a b s
  | .maxu d a b => execMaxu d a b s
  | .mul d a b => execMul d a b s
  | .mulh d a b => execMulh d a b s
  | .mulhu d a b => execMulhu d a b s
  | .div d a b => execDiv d a b s
  | .divu d a b => execDivu d a b s
  | .rem d a b => execRem d a b s
  | .remu d a b => execRemu d a b s
  | .clz d a => execClz d a s
  | .addi d a i_ => execAddi d a i_ s
  | .andi d a i_ => execAndi d a i_ s
  | .ori d a i_ => execOri d a i_ s
  | .xori d a i_ => execXori d a i_ s
  | .slli d a i_ => execSlli d a i_ s
  | .srli d a i_ => execSrli d a i_ s
  | .srai d a i_ => execSrai d a i_ s
  | .slti d a i_ => execSlti d a i_ s
  | .sltiu d a i_ => execSltiu d a i_ s
  | .lui d i_ => execLui d i_ s
  | .lla d i_ => execLla d i_ s
  | .lif d i_ => execLif d i_ s
  | .lit d a m n => execLit d a m n s
  | .kld d a i_ => execKld d a i_ s
  | .fadd d a b => execFadd d a b s
  | .fsub d a b => execFsub d a b s
  | .fmul d a b => execFmul d a b s
  | .ffma d a b => execFfma d a b s
  | .fmin d a b => execFmin d a b s
  | .fmax d a b => execFmax d a b s
  | .fcmp d a b p => execFcmp d a b p s
  | .fcvt d a k => execFcvt d a k s
  | .ldB d a i_ => execLdB d a i_ s
  | .ldBu d a i_ => execLdBu d a i_ s
  | .ldH d a i_ => execLdH d a i_ s
  | .ldHu d a i_ => execLdHu d a i_ s
  | .ldW d a i_ => execLdW d a i_ s
  | .ldWu d a i_ => execLdWu d a i_ s
  | .ldD d a i_ => execLdD d a i_ s
  | .stB d a i_ => execStB d a i_ s
  | .stH d a i_ => execStH d a i_ s
  | .stW d a i_ => execStW d a i_ s
  | .stD d a i_ => execStD d a i_ s
  | .ldAcq d a z s_ => execLdAcq d a z s_ s
  | .stRel a b z s_ => execStRel a b z s_ s
  | .bCond k a b o => execBCond k a b o s
  | .brBq s_ q o => execBrBq s_ q o s
  | .jal d i_ => execJal d i_ s
  | .jalr d a i_ => execJalr d a i_ s
  | .ovlCall d a i_ => execOvlCall d a i_ s
  | .ovlRet a => execOvlRet a s
  | .loop a e => execLoop a e s
  | .loopImm h l e => execLoopImm h l e s
  | .fork d a b => execFork d a b s
  | .join => execJoin s
  | .qpush d a => execQpush d a s
  | .qpop d a => execQpop d a s
  | .spawn d a => execSpawn d a s
  | .spawnG d a => execSpawnG d a s
  | .kill a => execKill a s
  | .scopeWait d a => execScopeWait d a s
  | .weirJoin d a => execWeirJoin d a s
  | .weirArrive d a b => execWeirArrive d a b s
  | .weirDrop d a b => execWeirDrop d a b s
  | .weirWait d a b => execWeirWait d a b s
  | .yield => execYield s
  | .halt => execHalt s
  | .trap k => execTrap k s
  | .sret => execSret s
  | .csrr d r => execCsrr d r s
  | .csrw d a r => execCsrw d a r s
  | .csrs d a r => execCsrs d a r s
  | .csrc d a r => execCsrc d a r s
  | .fenceAcq s_ => execFenceAcq s_ s
  | .fenceRel s_ => execFenceRel s_ s
  | .fenceAr s_ => execFenceAr s_ s
  | .fenceSc s_ => execFenceSc s_ s
  | .genFence => execGenFence s
  | .tick d => execTick d s
  | .tickWait a => execTickWait a s
  | .treeOpen a b => execTreeOpen a b s
  | .treeSeal d => execTreeSeal d s
  | .treeNote a b => execTreeNote a b s
  | .refExec d a b => execRefExec d a b s
  | .treeBisect d a b => execTreeBisect d a b s
  | .ldq c t b o => execLdq c t b o s
  | .ldqWb c t b o => execLdqWb c t b o s
  | .ldqS c d a b => execLdqS c d a b s
  | .ldqG c d a t => execLdqG c d a t s
  | .lLdB c t b o => execLLdB c t b o s
  | .lLdBu c t b o => execLLdBu c t b o s
  | .lLdH c t b o => execLLdH c t b o s
  | .lLdHu c t b o => execLLdHu c t b o s
  | .lLdW c t b o => execLLdW c t b o s
  | .lLdWu c t b o => execLLdWu c t b o s
  | .lLdD c t b o => execLLdD c t b o s
  | .rldQ c d a k => execRldQ c d a k s
  | .lCp c d s_ l f => execLCp c d s_ l f s
  | .lCp2d c d s_ l f => execLCp2d c d s_ l f s
  | .lCpPb c s_ => execLCpPb c s_ s
  | .cpOvl c f s_ l w k b p => execCpOvl c f s_ l w k b p s
  | .lColl c d s_ l f => execLColl c d s_ l f s
  | .lPbInv c s_ w => execLPbInv c s_ w s
  | .lAdd c d a b q => execLAdd c d a b q s
  | .lSub c d a b q => execLSub c d a b q s
  | .lMul c d a b q => execLMul c d a b q s
  | .lAddi c d a i_ => execLAddi c d a i_ s
  | .lSlli c d a i_ => execLSlli c d a i_ s
  | .lSrli c d a i_ => execLSrli c d a i_ s
  | .laCmp c a b k => execLaCmp c a b k s
  | .lCueTest d => execLCueTest d s
  | .lCueNop c => execLCueNop c s
  | .lBCond c k o a b => execLBCond c k o a b s
  | .lLoop c e a => execLLoop c e a s
  | .lJoin c => execLJoin c s
  | .stq c t b o => execStq c t b o s
  | .stqWb c t b o => execStqWb c t b o s
  | .stqS c d a b => execStqS c d a b s
  | .stqX c d a t => execStqX c d a t s
  | .sStB c t b o => execSStB c t b o s
  | .sStH c t b o => execSStH c t b o s
  | .sStW c t b o => execSStW c t b o s
  | .sStD c t b o => execSStD c t b o s
  | .rstQ c d a z k => execRstQ c d a z k s
  | .ramo c d a b k o => execRamo c d a b k o s
  | .sCp c d s_ l f => execSCp c d s_ l f s
  | .sCp2d c d s_ l f => execSCp2d c d s_ l f s
  | .sCpPb c s_ => execSCpPb c s_ s
  | .sColl c d s_ l f => execSColl c d s_ l f s
  | .sPbInv c s_ w => execSPbInv c s_ w s
  | .sAdd c d a b q => execSAdd c d a b q s
  | .sSub c d a b q => execSSub c d a b q s
  | .sMul c d a b q => execSMul c d a b q s
  | .sAddi c d a i_ => execSAddi c d a i_ s
  | .sSlli c d a i_ => execSSlli c d a i_ s
  | .sSrli c d a i_ => execSSrli c d a i_ s
  | .amo c d a b o => execAmo c d a b o s
  | .amoG c d a b o => execAmoG c d a b o s
  | .dgrpOpen c d a b => execDgrpOpen c d a b s
  | .dgrpClose c d => execDgrpClose c d s
  | .sCueTest d => execSCueTest d s
  | .sCueNop c => execSCueNop c s
  | .sBCond c k o a b => execSBCond c k o a b s
  | .sLoop c e a => execSLoop c e a s
  | .sJoin c => execSJoin c s
  | .vadd c d a b p t => execVadd c d a b p t s
  | .vsub c d a b p t => execVsub c d a b p t s
  | .vmul c d a b p t => execVmul c d a b p t s
  | .vfma c d a b p t => execVfma c d a b p t s
  | .vmin c d a b p t => execVmin c d a b p t s
  | .vmax c d a b p t => execVmax c d a b p t s
  | .vabs c d a p t => execVabs c d a p t s
  | .vneg c d a p t => execVneg c d a p t s
  | .vand c d a b p t => execVand c d a b p t s
  | .vor c d a b p t => execVor c d a b p t s
  | .vxor c d a b p t => execVxor c d a b p t s
  | .vnot c d a p t => execVnot c d a p t s
  | .vshl c d a b p t => execVshl c d a b p t s
  | .vshr c d a b p t => execVshr c d a b p t s
  | .vsra c d a b p t => execVsra c d a b p t s
  | .vcmpEq c d a b p t => execVcmpEq c d a b p t s
  | .vcmpNe c d a b p t => execVcmpNe c d a b p t s
  | .vcmpLt c d a b p t => execVcmpLt c d a b p t s
  | .vcmpLe c d a b p t => execVcmpLe c d a b p t s
  | .vsel c d a b e t => execVsel c d a b e t s
  | .vmov c d a p t => execVmov c d a p t s
  | .vsplat c d a i_ p t => execVsplat c d a i_ p t s
  | .vfmaQs c d m q p t => execVfmaQs c d m q p t s
  | .vcvt c d a s_ h p t => execVcvt c d a s_ h p t s
  | .vquant c d a k g h => execVquant c d a k g h s
  | .vdequant c d a k g h => execVdequant c d a k g h s
  | .vredAdd c d a p t => execVredAdd c d a p t s
  | .vredMax c d a p t => execVredMax c d a p t s
  | .vredMin c d a p t => execVredMin c d a p t s
  | .vperm c d a b p t => execVperm c d a b p t s
  | .vrot c d a b p t => execVrot c d a b p t s
  | .vbcast c d a b p t => execVbcast c d a b p t s
  | .vpart c d a b p => execVpart c d a b p s
  | .vcount c d b p => execVcount c d b p s
  | .vcompact c d a b p t => execVcompact c d a b p t s
  | .vexpand c d a b p t => execVexpand c d a b p t s
  | .vexp2 c d a p => execVexp2 c d a p s
  | .vlog2 c d a p => execVlog2 c d a p s
  | .vrcp c d a p => execVrcp c d a p s
  | .vrsqrt c d a p => execVrsqrt c d a p s
  | .vpop c d q p t => execVpop c d q p t s
  | .vpush c q a => execVpush c q a s
  | .vany c a p => execVany c a p s
  | .pand c d a b => execPand c d a b s
  | .por c d a b => execPor c d a b s
  | .pxor c d a b => execPxor c d a b s
  | .pnot c d a => execPnot c d a s
  | .cadd c d a b => execCadd c d a b s
  | .csub c d a b => execCsub c d a b s
  | .cmul c d a b => execCmul c d a b s
  | .caddi c d a i_ => execCaddi c d a i_ s
  | .cslli c d a i_ => execCslli c d a i_ s
  | .csrli c d a i_ => execCsrli c d a i_ s
  | .cli c d i_ => execCli c d i_ s
  | .cBCond c k o a b => execCBCond c k o a b s
  | .cLoop c a e => execCLoop c a e s
  | .cJoin c => execCJoin c s
  | .mlease c => execMlease c s
  | .mrel c => execMrel c s
  | .mma c s_ a b i_ j u k => execMma c s_ a b i_ j u k s
  | .mmaV c s_ g b j k f e => execMmaV c s_ g b j k f e s
  | .mzero c s_ => execMzero c s_ s
  | .macc c s_ a b => execMacc c s_ a b s
  | .mdrain c s_ a i_ f r => execMdrain c s_ a i_ f r s
  | .mload c s_ a i_ r => execMload c s_ a i_ r s
  | .mpatch c s_ r v p h => execMpatch c s_ r v p h s
  | .mpeek c s_ r v p h => execMpeek c s_ r v p h s
  | .mstat c d => execMstat c d s
  | _ => .next s

end Sys2Proof.Machine
end

