-- ==== Sys2Proof/Machine/Run.lean ====
section
/-! DEFINITION. Whose turn it is, and what a turn does around a meaning: when a cluster may issue, the decoding of the lane at the head
of its issue queue, the lanes of a SYNC line together, a stop's drain, and the schedule when nothing is on the agenda (06 R149 to
R155, R169; 14 R374). The meanings are handed in, so that this file stands before the dispatch. -/

namespace Sys2Proof.Machine
open Sys2Proof

/-- The meaning of an instruction, as the dispatch gives it. -/
abbrev Meaning := Instr → State → Out

/-! ## Issue -/

/-- A core that runs lanes: it has a task that no kill has reached, it is not ending one, and no cut is being
written or restored. -/
def State.coreRuns (s : State) (n : Nat) : Bool :=
  let y := (s.core n).sys
  (match y.task with
    | some t => !s.dying t.scope
    | none => false)
    && !y.halting && (match y.stop with
      | none => true
      | some st => st.phase = .requested || st.phase = .draining)

/-- A cluster that may issue a lane of its own: it has not stopped and does not wait for a page. K issues nothing behind a `ref.exec` until every
package that it writes to has answered. DEDUCED (log 72). -/
def State.clusterRuns (s : State) (n : Nat) (cl : Cl) : Bool :=
  s.coreRuns n && (s.cluster n cl).stopped.isNone && (s.cluster n cl).stall.isNone && !(cl = .K && (s.cluster n cl).refWaits)

/-- The lane at the head of a cluster's issue queue. -/
def Cluster.head (x : Cluster) : Option Entry :=
  match x.iq with
  | e :: _ => if e.mark.isSome then none else some e
  | [] => none

/-- The state in which a lane's meaning runs: the lane is the current one, and its accesses go through its core's caches. -/
def State.withCur (s : State) (n : Nat) (e : Entry) : State := { s with curCore := n, cur := e, via := .core n }

/-- Decode and run one lane; a word that is no instruction raises ILLEGAL_OP (08 R198), and a lane of S waits for the
registers it names (06 R150). -/
def State.runEntry (ex : Meaning) (n : Nat) (cl : Cl) (e : Entry) (s : State) : Out :=
  match decode cl e.word.toNat with
  | .ok i => if cl = .S && s.awaits n i then .next s else ex i (s.withCur n e)
  | .error r => .next (s.raiseLane n cl .illegalOp (BitVec.ofNat 64 (r.reason * 2 ^ 56 + e.addr.toNat)))

/-- A lane that does not issue on its own: one that opens its cluster's part of a SYNC line, and while the core stops, any lane of one (14 R374). -/
def State.holdsLane (s : State) (n : Nat) (e : Entry) : Bool := e.sync || (e.later && (s.core n).sys.stop.isSome)

/-- The head lane of a cluster issues, if it can. -/
def State.runHead (ex : Meaning) (n : Nat) (cl : Cl) (s : State) : Out :=
  if !s.clusterRuns n cl then .next s
  else match (s.cluster n cl).head with
  | none => .next s
  | some e => if s.holdsLane n e then .next s else s.runEntry ex n cl e

/-- A cluster's turn: with nothing queued it is served by fetch first. -/
def State.runLane (ex : Meaning) (n : Nat) (cl : Cl) (s : State) : Out :=
  if (s.cluster n cl).iq.isEmpty then
  (s.fetch n cl).runHead ex n cl
  else s.runHead ex n cl

/-- A lane has issued, or its cluster has stopped on it. -/
def issuedIn (s s1 : State) (n : Nat) (cl : Cl) : Bool := decide ((s1.cluster n cl).flightNo ≠ (s.cluster n cl).flightNo)
def stoppedIn (s s1 : State) (n : Nat) (cl : Cl) : Bool := (s.cluster n cl).stopped.isNone && (s1.cluster n cl).stopped.isSome

/-! ## SYNC lines (06 R152, R171) -/

/-- The clusters whose head lane opens their part of SYNC line k. -/
def State.syncHeads (s : State) (n k : Nat) : List (Cl × Entry) :=
  allCl.filterMap fun cl => ((s.cluster n cl).head).bind fun e => if e.sync && e.line = k then some (cl, e) else none

/-- The lowest SYNC line that stands at a head. -/
def State.syncLine (s : State) (n : Nat) : Option Nat :=
  allCl.foldl (fun a cl =>
    match (s.cluster n cl).head with
    | some e => if e.sync then some (min (a.getD e.line) e.line) else a
    | none => a) none

/-- The lanes of a cluster that wait for issue. -/
def Cluster.lanes (x : Cluster) : List Entry := x.iq.filter fun e => e.mark.isNone

/-- SYNC line k is met: no cluster holds a lane routed before it, and each cluster with a lane in it has its first there at its head. -/
def State.syncMet (s : State) (n k : Nat) : Bool :=
  allCl.all fun cl =>
    let x := s.cluster n cl
    x.lanes.all (fun e => decide (k ≤ e.line))
      && (!x.lanes.any (fun e => decide (e.line = k)) || (x.head.map fun e => e.sync && decide (e.line = k)).getD false)

/-- Run each lane from the one state before the line, and report how it went. -/
def State.syncTrials (ex : Meaning) (n : Nat) (s : State) : List (Cl × Entry) → List (Cl × Out)
  | [] => []
  | (cl, e) :: rest => (cl, s.runEntry ex n cl e) :: s.syncTrials ex n rest

def State.syncAll (ex : Meaning) (n : Nat) : List (Cl × Entry) → State → Out
  | [], s => .next s
  | (cl, e) :: rest, s =>
    match s.runEntry ex n cl e with
    | .next s1 => State.syncAll ex n rest s1
    | r => r

def trialIssued (s : State) (n : Nat) (p : Cl × Out) : Bool :=
  match p.2 with
  | .next s1 => issuedIn s s1 n p.1
  | _ => true

def trialStopped (s : State) (n : Nat) (p : Cl × Out) : Bool :=
  match p.2 with
  | .next s1 => stoppedIn s s1 n p.1
  | _ => false

/-- What a line that cannot issue yet waits for is asked for: its pages and slices. -/
def State.syncDelays (ex : Meaning) (n : Nat) : List (Cl × Entry) → State → State
  | [], s => s
  | (cl, e) :: rest, s =>
    match s.runEntry ex n cl e with
    | .next s1 => State.syncDelays ex n rest (if issuedIn s s1 n cl then s else s1)
    | _ => State.syncDelays ex n rest s

/-- The first lanes of a SYNC line in one cycle: all of them, or none; a lane that would trap stops its own cluster alone. None issues once
the core is to stop (R171; 14 R374). -/
def State.runSync (ex : Meaning) (n : Nat) (s : State) : Out :=
  match s.syncLine n with
  | none => .next s
  | some k =>
    let hs := s.syncHeads n k
    let ts := s.syncTrials ex n hs
    if (s.core n).sys.stop.isSome || !s.syncMet n k || !hs.all (fun p => s.clusterRuns n p.1) then .next s
    else match ts.find? (trialStopped s n) with
    | some (_, r) => r
    | none => if ts.all (trialIssued s n) then s.syncAll ex n hs else .next (s.syncDelays ex n hs)

/-- SYNC_LINE_ISSUE. -/
def execSyncLineIssue (core : Nat) (s : State) : Out := s.runSync laneMeaning core

/-! ## The drain of a stop (14 R374, R375) -/

/-- A stream is done with: its commands are accepted, or stay to be saved unstarted. -/
def Core.streamSettled (c : Core) (cl : Cl) : Bool := decide (c.stream cl = []) || c.streamStays cl

/-- A report of the core's task is on its way to it. -/
def Core.reportDue (c : Core) : Bool := c.mem.reports.any fun r => c.runs r.who

/-- What has issued has completed, but for the commands that stay in their streams, and no report of it is on its way. -/
def State.settledCore (s : State) (n : Nat) : Bool :=
  let c := s.core n
  let stay := (c.mem.streamL ++ c.mem.streamS).map fun k => (k.cl, k.flight)
  allCl.all (fun cl => (c.cluster cl).flights.all fun f => stay.contains (cl, f.no)) && c.mem.remote.all RemoteOp.dead && decide (c.cmds = [])
    && c.streamSettled .L && c.streamSettled .S && !c.reportDue && !(s.bay (bayOfCore n)).jobs.any (fun j => j.core = some n)

/-- One lane of a draining core that can still issue, or that stops its cluster. -/
def State.drainLane (ex : Meaning) (n : Nat) (s : State) : List Cl → Option State
  | [] => none
  | cl :: rest =>
    match s.runHead ex n cl with
    | .next s1 => if issuedIn s s1 n cl || stoppedIn s s1 n cl then some s1 else s.drainLane ex n rest
    | _ => s.drainLane ex n rest

def Core.setPhase (c : Core) (p : StopPhase) : Core :=
  match c.sys.stop with
  | some st => { c with sys := { c.sys with stop := some { st with phase := p } } }
  | none => c

/-- CUT_WRITE comes only once nothing more can issue and what has issued has completed. -/
def State.runCut (ex : Meaning) (n : Nat) (s : State) : Out :=
  match (s.core n).sys.stop with
  | none => .next s
  | some st =>
    if st.phase ≠ .draining then execCutWrite n s
    else match s.drainLane ex n allCl with
    | some s1 => .next s1
    | none => if s.settledCore n then execCutWrite n (s.putCore n ((s.core n).setPhase .drained)) else .next s

/-! ## A turn -/

def State.runEvent (ex : Meaning) (e : Instr) (s : State) : Out :=
  match e with
  | .cutWrite n => s.runCut ex n
  | _ => ex e s

def State.runAct (ex : Meaning) (s : State) : Act → Out
  | .lane n cl => s.runLane ex n cl
  | .sync n => s.runSync ex n
  | .event e => s.runEvent ex e
  | .damage d => .next (s.withMem (s.mem.damage d))
  | .mesh router input f found => .next (s.meshFlit router input f found)
  | .slot key load => .next (s.setKeySlot key load)
  | .job bay seq pick => .next (s.stepJob bay seq pick)
  | .mgmt pa len store => .next (s.mgmtAccess pa len store)
  | .cell n row col v => .next (s.wrongCell n row col v)
  | .array n pick => .next (s.arrayRead n pick)
  | .bar link offset value => .next (s.barAccess link offset value)

/-- The state in which a turn runs: its cycles passed, and the model's own counters advanced. DESIGN CHOICE (log 68). -/
def State.tickTo (s : State) (dt : Nat) : State :=
  { s.sampleQuiet with
    agenda := s.agenda.tail, turn := if s.agenda.isEmpty then s.turn + 1 else s.turn, free := s.free + 1, via := .none, blocked := none,
    sys := { s.sys with pkgCycle := s.sys.pkgCycle + BitVec.ofNat 64 dt } }

/-! ## A word placed where the next step fetches it -/

def taskZero : Task :=
  { ctx := 0, tid := 0, scope := 0, graph := 0, node := none, nest := none, owner := none, level := 0, ovl := 0, ovlLen := 32,
    bank := none, entry := 4, arg := 0, index := [], det := false, tt := false, audit := false, lcores := 0, manifest := 0, walk := 0,
    nodeId := 0, prio := 0 }

/-- A frame of one line: the word as lane 1, of the kind of cluster cl. -/
def oneLine (f : Frame) (ctx : W16) (cl : Cl) (w : Nat) : Frame :=
  { f with lanes := [(0, BitVec.ofNat 32 ((cl.code + 1) * 16)), (1, BitVec.ofNat 32 w)], pool := [], len := 32, tag := ctx,
           loading := 0, empty := false }

/-- Core 0 about to fetch a word for cluster cl: it has a task, joint mode, nothing queued, and no stop. -/
def Core.placed (c : Core) (cl : Cl) (w : Nat) : Core :=
  let t := c.sys.task.getD taskZero
  let x := { c.k with iq := [], fpc := 4, jumped := false, xfers := [], goto := none, hold := false, joined := false, stopped := none, stall := none }
  let y := { c.cluster cl with iq := [], stopped := none, stall := none }
  { (({ c with k := x }).putCluster cl (if cl = Cl.K then x else y)) with
    frame0 := oneLine c.frame0 t.ctx cl w
    sys := { c.sys with task := some t, apart := false, stop := none, halting := false } }

def State.place (s : State) (cl : Cl) (w : Nat) : State :=
  { s.putCore 0 ((s.core 0).placed cl w) with agenda := [(0, .lane 0 cl)] }

/-- DESIGN CHOICE (log 3). -/
def State.placeWord (s : State) (w : Nat) : State :=
  match decodeFirst w tableOrder with
  | some (cl, _) => s.place cl w
  | none => s.place .K w

end Sys2Proof.Machine
end

