-- ==== Sys2Proof/Machine/Dispatch.lean ====
section
/-! DEFINITION. One arm for each constructor of `Instr`: a direct call of its meaning. -/

namespace Sys2Proof.Machine
open Sys2Proof

def exec (i : Instr) (s : State) : Host.Outcome State Fault Refusal :=
  match i with
  | .add d a b => Sys2Proof.Machine.execAdd d a b s
  | .sub d a b => Sys2Proof.Machine.execSub d a b s
  | .and d a b => Sys2Proof.Machine.execAnd d a b s
  | .or d a b => Sys2Proof.Machine.execOr d a b s
  | .xor d a b => Sys2Proof.Machine.execXor d a b s
  | .sll d a b => Sys2Proof.Machine.execSll d a b s
  | .srl d a b => Sys2Proof.Machine.execSrl d a b s
  | .sra d a b => Sys2Proof.Machine.execSra d a b s
  | .slt d a b => Sys2Proof.Machine.execSlt d a b s
  | .sltu d a b => Sys2Proof.Machine.execSltu d a b s
  | .min d a b => Sys2Proof.Machine.execMin d a b s
  | .max d a b => Sys2Proof.Machine.execMax d a b s
  | .minu d a b => Sys2Proof.Machine.execMinu d a b s
  | .maxu d a b => Sys2Proof.Machine.execMaxu d a b s
  | .mul d a b => Sys2Proof.Machine.execMul d a b s
  | .mulh d a b => Sys2Proof.Machine.execMulh d a b s
  | .mulhu d a b => Sys2Proof.Machine.execMulhu d a b s
  | .div d a b => Sys2Proof.Machine.execDiv d a b s
  | .divu d a b => Sys2Proof.Machine.execDivu d a b s
  | .rem d a b => Sys2Proof.Machine.execRem d a b s
  | .remu d a b => Sys2Proof.Machine.execRemu d a b s
  | .clz d a => Sys2Proof.Machine.execClz d a s
  | .addi d a i_ => Sys2Proof.Machine.execAddi d a i_ s
  | .andi d a i_ => Sys2Proof.Machine.execAndi d a i_ s
  | .ori d a i_ => Sys2Proof.Machine.execOri d a i_ s
  | .xori d a i_ => Sys2Proof.Machine.execXori d a i_ s
  | .slli d a i_ => Sys2Proof.Machine.execSlli d a i_ s
  | .srli d a i_ => Sys2Proof.Machine.execSrli d a i_ s
  | .srai d a i_ => Sys2Proof.Machine.execSrai d a i_ s
  | .slti d a i_ => Sys2Proof.Machine.execSlti d a i_ s
  | .sltiu d a i_ => Sys2Proof.Machine.execSltiu d a i_ s
  | .lui d i_ => Sys2Proof.Machine.execLui d i_ s
  | .lla d i_ => Sys2Proof.Machine.execLla d i_ s
  | .lif d i_ => Sys2Proof.Machine.execLif d i_ s
  | .lit d a m n => Sys2Proof.Machine.execLit d a m n s
  | .kld d a i_ => Sys2Proof.Machine.execKld d a i_ s
  | .fadd d a b => Sys2Proof.Machine.execFadd d a b s
  | .fsub d a b => Sys2Proof.Machine.execFsub d a b s
  | .fmul d a b => Sys2Proof.Machine.execFmul d a b s
  | .ffma d a b => Sys2Proof.Machine.execFfma d a b s
  | .fmin d a b => Sys2Proof.Machine.execFmin d a b s
  | .fmax d a b => Sys2Proof.Machine.execFmax d a b s
  | .fcmp d a b p => Sys2Proof.Machine.execFcmp d a b p s
  | .fcvt d a k => Sys2Proof.Machine.execFcvt d a k s
  | .ldB d a i_ => Sys2Proof.Machine.execLdB d a i_ s
  | .ldBu d a i_ => Sys2Proof.Machine.execLdBu d a i_ s
  | .ldH d a i_ => Sys2Proof.Machine.execLdH d a i_ s
  | .ldHu d a i_ => Sys2Proof.Machine.execLdHu d a i_ s
  | .ldW d a i_ => Sys2Proof.Machine.execLdW d a i_ s
  | .ldWu d a i_ => Sys2Proof.Machine.execLdWu d a i_ s
  | .ldD d a i_ => Sys2Proof.Machine.execLdD d a i_ s
  | .stB d a i_ => Sys2Proof.Machine.execStB d a i_ s
  | .stH d a i_ => Sys2Proof.Machine.execStH d a i_ s
  | .stW d a i_ => Sys2Proof.Machine.execStW d a i_ s
  | .stD d a i_ => Sys2Proof.Machine.execStD d a i_ s
  | .ldAcq d a z s_ => Sys2Proof.Machine.execLdAcq d a z s_ s
  | .stRel a b z s_ => Sys2Proof.Machine.execStRel a b z s_ s
  | .bCond k a b o => Sys2Proof.Machine.execBCond k a b o s
  | .brBq s_ q o => Sys2Proof.Machine.execBrBq s_ q o s
  | .jal d i_ => Sys2Proof.Machine.execJal d i_ s
  | .jalr d a i_ => Sys2Proof.Machine.execJalr d a i_ s
  | .ovlCall d a i_ => Sys2Proof.Machine.execOvlCall d a i_ s
  | .ovlRet a => Sys2Proof.Machine.execOvlRet a s
  | .loop a e => Sys2Proof.Machine.execLoop a e s
  | .loopImm h l e => Sys2Proof.Machine.execLoopImm h l e s
  | .fork d a b => Sys2Proof.Machine.execFork d a b s
  | .join => Sys2Proof.Machine.execJoin s
  | .qpush d a => Sys2Proof.Machine.execQpush d a s
  | .qpop d a => Sys2Proof.Machine.execQpop d a s
  | .spawn d a => Sys2Proof.Machine.execSpawn d a s
  | .spawnG d a => Sys2Proof.Machine.execSpawnG d a s
  | .kill a => Sys2Proof.Machine.execKill a s
  | .scopeWait d a => Sys2Proof.Machine.execScopeWait d a s
  | .weirJoin d a => Sys2Proof.Machine.execWeirJoin d a s
  | .weirArrive d a b => Sys2Proof.Machine.execWeirArrive d a b s
  | .weirDrop d a b => Sys2Proof.Machine.execWeirDrop d a b s
  | .weirWait d a b => Sys2Proof.Machine.execWeirWait d a b s
  | .yield => Sys2Proof.Machine.execYield s
  | .halt => Sys2Proof.Machine.execHalt s
  | .trap k => Sys2Proof.Machine.execTrap k s
  | .sret => Sys2Proof.Machine.execSret s
  | .csrr d r => Sys2Proof.Machine.execCsrr d r s
  | .csrw d a r => Sys2Proof.Machine.execCsrw d a r s
  | .csrs d a r => Sys2Proof.Machine.execCsrs d a r s
  | .csrc d a r => Sys2Proof.Machine.execCsrc d a r s
  | .fenceAcq s_ => Sys2Proof.Machine.execFenceAcq s_ s
  | .fenceRel s_ => Sys2Proof.Machine.execFenceRel s_ s
  | .fenceAr s_ => Sys2Proof.Machine.execFenceAr s_ s
  | .fenceSc s_ => Sys2Proof.Machine.execFenceSc s_ s
  | .genFence => Sys2Proof.Machine.execGenFence s
  | .tick d => Sys2Proof.Machine.execTick d s
  | .tickWait a => Sys2Proof.Machine.execTickWait a s
  | .treeOpen a b => Sys2Proof.Machine.execTreeOpen a b s
  | .treeSeal d => Sys2Proof.Machine.execTreeSeal d s
  | .treeNote a b => Sys2Proof.Machine.execTreeNote a b s
  | .refExec d a b => Sys2Proof.Machine.execRefExec d a b s
  | .treeBisect d a b => Sys2Proof.Machine.execTreeBisect d a b s
  | .ldq c t b o => Sys2Proof.Machine.execLdq c t b o s
  | .ldqWb c t b o => Sys2Proof.Machine.execLdqWb c t b o s
  | .ldqS c d a b => Sys2Proof.Machine.execLdqS c d a b s
  | .ldqG c d a t => Sys2Proof.Machine.execLdqG c d a t s
  | .lLdB c t b o => Sys2Proof.Machine.execLLdB c t b o s
  | .lLdBu c t b o => Sys2Proof.Machine.execLLdBu c t b o s
  | .lLdH c t b o => Sys2Proof.Machine.execLLdH c t b o s
  | .lLdHu c t b o => Sys2Proof.Machine.execLLdHu c t b o s
  | .lLdW c t b o => Sys2Proof.Machine.execLLdW c t b o s
  | .lLdWu c t b o => Sys2Proof.Machine.execLLdWu c t b o s
  | .lLdD c t b o => Sys2Proof.Machine.execLLdD c t b o s
  | .rldQ c d a k => Sys2Proof.Machine.execRldQ c d a k s
  | .lCp c d s_ l f => Sys2Proof.Machine.execLCp c d s_ l f s
  | .lCp2d c d s_ l f => Sys2Proof.Machine.execLCp2d c d s_ l f s
  | .lCpPb c s_ => Sys2Proof.Machine.execLCpPb c s_ s
  | .cpOvl c f s_ l w k b p => Sys2Proof.Machine.execCpOvl c f s_ l w k b p s
  | .lColl c d s_ l f => Sys2Proof.Machine.execLColl c d s_ l f s
  | .lPbInv c s_ w => Sys2Proof.Machine.execLPbInv c s_ w s
  | .lAdd c d a b q => Sys2Proof.Machine.execLAdd c d a b q s
  | .lSub c d a b q => Sys2Proof.Machine.execLSub c d a b q s
  | .lMul c d a b q => Sys2Proof.Machine.execLMul c d a b q s
  | .lAddi c d a i_ => Sys2Proof.Machine.execLAddi c d a i_ s
  | .lSlli c d a i_ => Sys2Proof.Machine.execLSlli c d a i_ s
  | .lSrli c d a i_ => Sys2Proof.Machine.execLSrli c d a i_ s
  | .laCmp c a b k => Sys2Proof.Machine.execLaCmp c a b k s
  | .lCueTest d => Sys2Proof.Machine.execLCueTest d s
  | .lCueNop c => Sys2Proof.Machine.execLCueNop c s
  | .lBCond c k o a b => Sys2Proof.Machine.execLBCond c k o a b s
  | .lLoop c e a => Sys2Proof.Machine.execLLoop c e a s
  | .lJoin c => Sys2Proof.Machine.execLJoin c s
  | .stq c t b o => Sys2Proof.Machine.execStq c t b o s
  | .stqWb c t b o => Sys2Proof.Machine.execStqWb c t b o s
  | .stqS c d a b => Sys2Proof.Machine.execStqS c d a b s
  | .stqX c d a t => Sys2Proof.Machine.execStqX c d a t s
  | .sStB c t b o => Sys2Proof.Machine.execSStB c t b o s
  | .sStH c t b o => Sys2Proof.Machine.execSStH c t b o s
  | .sStW c t b o => Sys2Proof.Machine.execSStW c t b o s
  | .sStD c t b o => Sys2Proof.Machine.execSStD c t b o s
  | .rstQ c d a z k => Sys2Proof.Machine.execRstQ c d a z k s
  | .ramo c d a b k o => Sys2Proof.Machine.execRamo c d a b k o s
  | .sCp c d s_ l f => Sys2Proof.Machine.execSCp c d s_ l f s
  | .sCp2d c d s_ l f => Sys2Proof.Machine.execSCp2d c d s_ l f s
  | .sCpPb c s_ => Sys2Proof.Machine.execSCpPb c s_ s
  | .sColl c d s_ l f => Sys2Proof.Machine.execSColl c d s_ l f s
  | .sPbInv c s_ w => Sys2Proof.Machine.execSPbInv c s_ w s
  | .sAdd c d a b q => Sys2Proof.Machine.execSAdd c d a b q s
  | .sSub c d a b q => Sys2Proof.Machine.execSSub c d a b q s
  | .sMul c d a b q => Sys2Proof.Machine.execSMul c d a b q s
  | .sAddi c d a i_ => Sys2Proof.Machine.execSAddi c d a i_ s
  | .sSlli c d a i_ => Sys2Proof.Machine.execSSlli c d a i_ s
  | .sSrli c d a i_ => Sys2Proof.Machine.execSSrli c d a i_ s
  | .amo c d a b o => Sys2Proof.Machine.execAmo c d a b o s
  | .amoG c d a b o => Sys2Proof.Machine.execAmoG c d a b o s
  | .dgrpOpen c d a b => Sys2Proof.Machine.execDgrpOpen c d a b s
  | .dgrpClose c d => Sys2Proof.Machine.execDgrpClose c d s
  | .sCueTest d => Sys2Proof.Machine.execSCueTest d s
  | .sCueNop c => Sys2Proof.Machine.execSCueNop c s
  | .sBCond c k o a b => Sys2Proof.Machine.execSBCond c k o a b s
  | .sLoop c e a => Sys2Proof.Machine.execSLoop c e a s
  | .sJoin c => Sys2Proof.Machine.execSJoin c s
  | .vadd c d a b p t => Sys2Proof.Machine.execVadd c d a b p t s
  | .vsub c d a b p t => Sys2Proof.Machine.execVsub c d a b p t s
  | .vmul c d a b p t => Sys2Proof.Machine.execVmul c d a b p t s
  | .vfma c d a b p t => Sys2Proof.Machine.execVfma c d a b p t s
  | .vmin c d a b p t => Sys2Proof.Machine.execVmin c d a b p t s
  | .vmax c d a b p t => Sys2Proof.Machine.execVmax c d a b p t s
  | .vabs c d a p t => Sys2Proof.Machine.execVabs c d a p t s
  | .vneg c d a p t => Sys2Proof.Machine.execVneg c d a p t s
  | .vand c d a b p t => Sys2Proof.Machine.execVand c d a b p t s
  | .vor c d a b p t => Sys2Proof.Machine.execVor c d a b p t s
  | .vxor c d a b p t => Sys2Proof.Machine.execVxor c d a b p t s
  | .vnot c d a p t => Sys2Proof.Machine.execVnot c d a p t s
  | .vshl c d a b p t => Sys2Proof.Machine.execVshl c d a b p t s
  | .vshr c d a b p t => Sys2Proof.Machine.execVshr c d a b p t s
  | .vsra c d a b p t => Sys2Proof.Machine.execVsra c d a b p t s
  | .vcmpEq c d a b p t => Sys2Proof.Machine.execVcmpEq c d a b p t s
  | .vcmpNe c d a b p t => Sys2Proof.Machine.execVcmpNe c d a b p t s
  | .vcmpLt c d a b p t => Sys2Proof.Machine.execVcmpLt c d a b p t s
  | .vcmpLe c d a b p t => Sys2Proof.Machine.execVcmpLe c d a b p t s
  | .vsel c d a b e t => Sys2Proof.Machine.execVsel c d a b e t s
  | .vmov c d a p t => Sys2Proof.Machine.execVmov c d a p t s
  | .vsplat c d a i_ p t => Sys2Proof.Machine.execVsplat c d a i_ p t s
  | .vfmaQs c d m q p t => Sys2Proof.Machine.execVfmaQs c d m q p t s
  | .vcvt c d a s_ h p t => Sys2Proof.Machine.execVcvt c d a s_ h p t s
  | .vquant c d a k g h => Sys2Proof.Machine.execVquant c d a k g h s
  | .vdequant c d a k g h => Sys2Proof.Machine.execVdequant c d a k g h s
  | .vredAdd c d a p t => Sys2Proof.Machine.execVredAdd c d a p t s
  | .vredMax c d a p t => Sys2Proof.Machine.execVredMax c d a p t s
  | .vredMin c d a p t => Sys2Proof.Machine.execVredMin c d a p t s
  | .vperm c d a b p t => Sys2Proof.Machine.execVperm c d a b p t s
  | .vrot c d a b p t => Sys2Proof.Machine.execVrot c d a b p t s
  | .vbcast c d a b p t => Sys2Proof.Machine.execVbcast c d a b p t s
  | .vpart c d a b p => Sys2Proof.Machine.execVpart c d a b p s
  | .vcount c d b p => Sys2Proof.Machine.execVcount c d b p s
  | .vcompact c d a b p t => Sys2Proof.Machine.execVcompact c d a b p t s
  | .vexpand c d a b p t => Sys2Proof.Machine.execVexpand c d a b p t s
  | .vexp2 c d a p => Sys2Proof.Machine.execVexp2 c d a p s
  | .vlog2 c d a p => Sys2Proof.Machine.execVlog2 c d a p s
  | .vrcp c d a p => Sys2Proof.Machine.execVrcp c d a p s
  | .vrsqrt c d a p => Sys2Proof.Machine.execVrsqrt c d a p s
  | .vpop c d q p t => Sys2Proof.Machine.execVpop c d q p t s
  | .vpush c q a => Sys2Proof.Machine.execVpush c q a s
  | .vany c a p => Sys2Proof.Machine.execVany c a p s
  | .pand c d a b => Sys2Proof.Machine.execPand c d a b s
  | .por c d a b => Sys2Proof.Machine.execPor c d a b s
  | .pxor c d a b => Sys2Proof.Machine.execPxor c d a b s
  | .pnot c d a => Sys2Proof.Machine.execPnot c d a s
  | .cadd c d a b => Sys2Proof.Machine.execCadd c d a b s
  | .csub c d a b => Sys2Proof.Machine.execCsub c d a b s
  | .cmul c d a b => Sys2Proof.Machine.execCmul c d a b s
  | .caddi c d a i_ => Sys2Proof.Machine.execCaddi c d a i_ s
  | .cslli c d a i_ => Sys2Proof.Machine.execCslli c d a i_ s
  | .csrli c d a i_ => Sys2Proof.Machine.execCsrli c d a i_ s
  | .cli c d i_ => Sys2Proof.Machine.execCli c d i_ s
  | .cBCond c k o a b => Sys2Proof.Machine.execCBCond c k o a b s
  | .cLoop c a e => Sys2Proof.Machine.execCLoop c a e s
  | .cJoin c => Sys2Proof.Machine.execCJoin c s
  | .mlease c => Sys2Proof.Machine.execMlease c s
  | .mrel c => Sys2Proof.Machine.execMrel c s
  | .mma c s_ a b i_ j u k => Sys2Proof.Machine.execMma c s_ a b i_ j u k s
  | .mmaV c s_ g b j k f e => Sys2Proof.Machine.execMmaV c s_ g b j k f e s
  | .mzero c s_ => Sys2Proof.Machine.execMzero c s_ s
  | .macc c s_ a b => Sys2Proof.Machine.execMacc c s_ a b s
  | .mdrain c s_ a i_ f r => Sys2Proof.Machine.execMdrain c s_ a i_ f r s
  | .mload c s_ a i_ r => Sys2Proof.Machine.execMload c s_ a i_ r s
  | .mpatch c s_ r v p h => Sys2Proof.Machine.execMpatch c s_ r v p h s
  | .mpeek c s_ r v p h => Sys2Proof.Machine.execMpeek c s_ r v p h s
  | .mstat c d => Sys2Proof.Machine.execMstat c d s
  | .fetchLine core cl => Sys2Proof.Machine.execFetchLine core cl s
  | .syncLineIssue core => Sys2Proof.Machine.execSyncLineIssue core s
  | .laneComplete core cl => Sys2Proof.Machine.execLaneComplete core cl s
  | .taskStart core => Sys2Proof.Machine.execTaskStart core s
  | .taskRetire core => Sys2Proof.Machine.execTaskRetire core s
  | .leaseBoundReached bay => Sys2Proof.Machine.execLeaseBoundReached bay s
  | .leaseRearbitration bay => Sys2Proof.Machine.execLeaseRearbitration bay s
  | .matrixCommandComplete core differ => Sys2Proof.Machine.execMatrixCommandComplete core differ s
  | .jobAccept bay => Sys2Proof.Machine.execJobAccept bay s
  | .jobComplete bay seq => Sys2Proof.Machine.execJobComplete bay seq s
  | .jobFail bay seq how => Sys2Proof.Machine.execJobFail bay seq how s
  | .failureReport core cl => Sys2Proof.Machine.execFailureReport core cl s
  | .sluiceRefill core q => Sys2Proof.Machine.execSluiceRefill core q s
  | .dgrpOpenTake core unit => Sys2Proof.Machine.execDgrpOpenTake core unit s
  | .dgrpUpdateArrive core => Sys2Proof.Machine.execDgrpUpdateArrive core s
  | .dgrpUpdateResend core => Sys2Proof.Machine.execDgrpUpdateResend core s
  | .dgrpCloseArrive core unit => Sys2Proof.Machine.execDgrpCloseArrive core unit s
  | .remoteRequest req => Sys2Proof.Machine.execRemoteRequest req s
  | .remoteResponse resp => Sys2Proof.Machine.execRemoteResponse resp s
  | .remoteTimeout core tag => Sys2Proof.Machine.execRemoteTimeout core tag s
  | .peerStateUpdate pkg state inc => Sys2Proof.Machine.execPeerStateUpdate pkg state inc s
  | .dieClockBeat die dst => Sys2Proof.Machine.execDieClockBeat die dst s
  | .crossDieApply die src => Sys2Proof.Machine.execCrossDieApply die src s
  | .contribution p => Sys2Proof.Machine.execContribution p s
  | .flaggedTile p => Sys2Proof.Machine.execFlaggedTile p s
  | .collectiveAbort src ctx group mask => Sys2Proof.Machine.execCollectiveAbort src ctx group mask s
  | .abortAck src ctx group => Sys2Proof.Machine.execAbortAck src ctx group s
  | .flitReceive port flit parity => Sys2Proof.Machine.execFlitReceive port flit parity s
  | .linkAck port seq => Sys2Proof.Machine.execLinkAck port seq s
  | .linkParityRequest port seq round => Sys2Proof.Machine.execLinkParityRequest port seq round s
  | .linkParityAnswer port seq round symbols => Sys2Proof.Machine.execLinkParityAnswer port seq round symbols s
  | .linkReplayRequest port seq => Sys2Proof.Machine.execLinkReplayRequest port seq s
  | .parityRequestTimeout port => Sys2Proof.Machine.execParityRequestTimeout port s
  | .ackIdleTimeout port => Sys2Proof.Machine.execAckIdleTimeout port s
  | .bulkFloorFlit port => Sys2Proof.Machine.execBulkFloorFlit port s
  | .laneLockLoss port => Sys2Proof.Machine.execLaneLockLoss port s
  | .linkTrainingComplete port inc => Sys2Proof.Machine.execLinkTrainingComplete port inc s
  | .portDown port => Sys2Proof.Machine.execPortDown port s
  | .uePacketReceive endpoint peer tag payload last => Sys2Proof.Machine.execUePacketReceive endpoint peer tag payload last s
  | .ueMessageComplete endpoint recv slot status => Sys2Proof.Machine.execUeMessageComplete endpoint recv slot status s
  | .scopeCreate die => Sys2Proof.Machine.execScopeCreate die s
  | .taskDispatch die => Sys2Proof.Machine.execTaskDispatch die s
  | .nodeSlotAssign die => Sys2Proof.Machine.execNodeSlotAssign die s
  | .killPoint core => Sys2Proof.Machine.execKillPoint core s
  | .killForward scope ctx => Sys2Proof.Machine.execKillForward scope ctx s
  | .curtainWrite scope => Sys2Proof.Machine.execCurtainWrite scope s
  | .agePromotion graph node => Sys2Proof.Machine.execAgePromotion graph node s
  | .nodeReleaseTime graph node => Sys2Proof.Machine.execNodeReleaseTime graph node s
  | .deadlineStall => Sys2Proof.Machine.execDeadlineStall s
  | .frameTick => Sys2Proof.Machine.execFrameTick s
  | .autoPark die => Sys2Proof.Machine.execAutoPark die s
  | .graphParked graph => Sys2Proof.Machine.execGraphParked graph s
  | .autoUnpark die => Sys2Proof.Machine.execAutoUnpark die s
  | .parkEscalation core => Sys2Proof.Machine.execParkEscalation core s
  | .runLimit core => Sys2Proof.Machine.execRunLimit core s
  | .cbLaunch die arg => Sys2Proof.Machine.execCbLaunch die arg s
  | .cbResume die arg => Sys2Proof.Machine.execCbResume die arg s
  | .cbPark die arg => Sys2Proof.Machine.execCbPark die arg s
  | .cbUnpark die arg => Sys2Proof.Machine.execCbUnpark die arg s
  | .cbKill die arg => Sys2Proof.Machine.execCbKill die arg s
  | .coreStop core => Sys2Proof.Machine.execCoreStop core s
  | .cutWrite core => Sys2Proof.Machine.execCutWrite core s
  | .handlerImageLoaded core => Sys2Proof.Machine.execHandlerImageLoaded core s
  | .frameReloadComplete core => Sys2Proof.Machine.execFrameReloadComplete core s
  | .migrationReply status => Sys2Proof.Machine.execMigrationReply status s
  | .migrationFlipComplete => Sys2Proof.Machine.execMigrationFlipComplete s
  | .migrationTimeout => Sys2Proof.Machine.execMigrationTimeout s
  | .pageReclaim seq ctx va sz => Sys2Proof.Machine.execPageReclaim seq ctx va sz s
  | .pageReclaimComplete => Sys2Proof.Machine.execPageReclaimComplete s
  | .xinvPage ctx vpn => Sys2Proof.Machine.execXinvPage ctx vpn s
  | .xinvContext ctx => Sys2Proof.Machine.execXinvContext ctx s
  | .xinvAll => Sys2Proof.Machine.execXinvAll s
  | .xinvKey key => Sys2Proof.Machine.execXinvKey key s
  | .xinvAccept => Sys2Proof.Machine.execXinvAccept s
  | .xinvComplete => Sys2Proof.Machine.execXinvComplete s
  | .tagSweep die ctx => Sys2Proof.Machine.execTagSweep die ctx s
  | .tagSweepAccept die => Sys2Proof.Machine.execTagSweepAccept die s
  | .tagSweepComplete die => Sys2Proof.Machine.execTagSweepComplete die s
  | .slotTableSwap die => Sys2Proof.Machine.execSlotTableSwap die s
  | .scrubVisit unit found => Sys2Proof.Machine.execScrubVisit unit found s
  | .scrubForced bay bank found => Sys2Proof.Machine.execScrubForced bay bank found s
  | .patrolScrub pa found => Sys2Proof.Machine.execPatrolScrub pa found s
  | .sliceWake bay => Sys2Proof.Machine.execSliceWake bay s
  | .powerState seq target die bay state => Sys2Proof.Machine.execPowerState seq target die bay state s
  | .selfRefreshEntry => Sys2Proof.Machine.execSelfRefreshEntry s
  | .selfRefreshExit => Sys2Proof.Machine.execSelfRefreshExit s
  | .leafAppend core cl => Sys2Proof.Machine.execLeafAppend core cl s
  | .signatureBatch die => Sys2Proof.Machine.execSignatureBatch die s
  | .doorbell seq => Sys2Proof.Machine.execDoorbell seq s
  | .ringRestart up value => Sys2Proof.Machine.execRingRestart up value s
  | .endpointCreate seq ctx logSend logRecv sendVa recvVa peerVa peers => Sys2Proof.Machine.execEndpointCreate seq ctx logSend logRecv sendVa recvVa peerVa peers s
  | .endpointDestroy seq ctx id => Sys2Proof.Machine.execEndpointDestroy seq ctx id s
  | .signatureRingSet seq ring log consumed => Sys2Proof.Machine.execSignatureRingSet seq ring log consumed s
  | .debugStop seq core => Sys2Proof.Machine.execDebugStop seq core s
  | .hostLaunch seq ctx va die => Sys2Proof.Machine.execHostLaunch seq ctx va die s
  | .hostResume seq ctx va die => Sys2Proof.Machine.execHostResume seq ctx va die s
  | .hostKill seq ctx scope => Sys2Proof.Machine.execHostKill seq ctx scope s
  | .callbackAcknowledge seq ctx va node => Sys2Proof.Machine.execCallbackAcknowledge seq ctx va node s
  | .ringRequestMalformed seq op => Sys2Proof.Machine.execRingRequestMalformed seq op s
  | .hostPcieAccess link write pa data => Sys2Proof.Machine.execHostPcieAccess link write pa data s
  | .packageReset passed image => Sys2Proof.Machine.execPackageReset passed image s
  | .qcfgWrite core q value => Sys2Proof.Machine.execQcfgWrite core q value s
  | .loopCsrWrite core level value => Sys2Proof.Machine.execLoopCsrWrite core level value s
  | .registerWrite pa size value => Sys2Proof.Machine.execRegisterWrite pa size value s
  | .flitBoundary port => Sys2Proof.Machine.execFlitBoundary port s
  | .circuitInjectionTimeout bay => Sys2Proof.Machine.execCircuitInjectionTimeout bay s
  | .pcieLinkStateChange up => Sys2Proof.Machine.execPcieLinkStateChange up s
  | .uePacketAcknowledge endpoint packet => Sys2Proof.Machine.execUePacketAcknowledge endpoint packet s
  | .spdmRequest msg => Sys2Proof.Machine.execSpdmRequest msg s
  | .powerTransitionComplete target unit => Sys2Proof.Machine.execPowerTransitionComplete target unit s

end Sys2Proof.Machine
end

