-- ==== Sys2Proof/Machine/Schedule.lean ====
section
/-! DEFINITION. The schedule with an empty agenda. The manual fixes no order among clusters, engines and controllers (06 R150): the
model gives each that may have work its turn, and what comes from outside the package comes by the agenda. -/

namespace Sys2Proof.Machine
open Sys2Proof

abbrev Turn := State → Out

/-- A core's clusters, its stop, its task, and the units beside it. -/
def coreTurns (ex : Meaning) (n : Nat) (c : Core) : List Turn :=
  allCl.map (fun cl s => s.runLane ex n cl)
    ++ [fun s => s.runSync ex n]
    ++ allCl.map (fun cl => execLaneComplete n cl)
    ++ [execCoreStop n, fun s => s.runCut ex n, execHandlerImageLoaded n, execFrameReloadComplete n, execTaskStart n, execTaskRetire n,
        execKillPoint n, execRefTimeout n, execResend n, execRunLimit n, execParkEscalation n, execMatrixCommandComplete n none]
    ++ allCl.map (fun cl => execFailureReport n cl)
    ++ allCl.map (fun cl => execLeafAppend n cl)
    ++ (List.range 16).map (fun q => execSluiceRefill n q)
    ++ c.mem.opens.flatMap (fun o => o.waiting.map fun u => execDgrpOpenTake n u)
    ++ [execDgrpUpdateArrive n, execDgrpUpdateResend n]
    ++ c.mem.closes.flatMap (fun o => o.waiting.map fun u => execDgrpCloseArrive n u)
    ++ c.mem.remote.map fun r => execRemoteTimeout n r.tag

/-- A bay's array, its copy engine, and its power. -/
def bayTurns (b : Nat) (y : Bay) : List Turn :=
  [execLeaseBoundReached b, execLeaseRearbitration b, execJobAccept b, execSliceWake b, execPowerTransitionComplete 0 b,
      execPowerTransitionComplete 1 b]
    ++ y.jobs.map (fun j => execJobComplete b j.seq)
    ++ y.jobs.map (fun j => fun s => .next (s.stepJob b j.seq (Config.choice s.free)))
    ++ y.jobs.flatMap (fun j => if j.started && j.circuit then (flitBays b (j.reads.flatMap Region.runs)).map execCircuitInjectionTimeout else [])
    ++ y.jobs.flatMap fun j => j.reqs.map fun r => execJobFail b j.seq (.timeout r.home r.va)

/-- A die's callboard, its sweeps, its log's signatures, its clock. -/
def dieTurns (d : Nat) : List Turn :=
  [execScopeCreate d, execNodeSlotAssign d, execTaskDispatch d, fun s => .next (s.runHeadCmd d), execAutoPark d, execAutoUnpark d,
      execTagSweepAccept d, execTagSweepComplete d, execSignatureBatch d, execPowerTransitionComplete 2 d]
    ++ (List.range 4).map (fun e => execCrossDieApply d e)
    ++ (List.range 4).map fun e => execDieClockBeat d e

def portTurns (p : Nat) : List Turn :=
  [execFlitBoundary p, execBulkFloorFlit p, execAckIdleTimeout p, execParityRequestTimeout p, execPortDown p]

/-- The messages of an endpoint. -/
def endpointTurns (e : Nat) (x : Endpoint) : List Turn :=
  x.descs.flatMap fun d => [execUeMessageComplete e d.recv d.slot 0, execUeMessageComplete e d.recv d.slot 3]

def graphTurns (g : Nat) (x : Graph) : List Turn :=
  execGraphParked g :: x.nodes.flatMap fun (n : Nat × NodeSt) => [execAgePromotion g n.1, execNodeReleaseTime g n.1]

def scopeTurns (i : Nat) (x : Scope) : List Turn :=
  if x.killing && !x.written then [execKillForward (BitVec.ofNat 16 i) x.ctx, execCurtainWrite (BitVec.ofNat 16 i)] else []

/-- The package's own: FRAME, translation, and the host rings. -/
def packageTurns : List Turn :=
  [execFrameTick, execDeadlineStall, execXinvAccept, execXinvComplete, execMigrationFlipComplete, execPageReclaimComplete,
    execPeersFallen, execTryKept, fun s => .next (State.serveRing 1 s)]

/-- The bays that may have work: those that hold something, and the bay of every core that does. -/
def State.liveBays (s : State) : List Nat :=
  s.cores.foldl (fun l c => if l.contains (bayOfCore c.1) then l else l ++ [bayOfCore c.1]) (s.bays.map fun b => b.1)

/-- Everything that may have a turn now. -/
def turns (ex : Meaning) (s : State) : List Turn :=
  packageTurns
    ++ s.cores.flatMap (fun c => coreTurns ex c.1 c.2)
    ++ s.liveBays.flatMap (fun b => bayTurns b (s.bay b))
    ++ (List.range 4).flatMap dieTurns
    ++ s.fab.ports.flatMap (fun p => portTurns p.1)
    ++ s.fab.endpoints.flatMap (fun e => endpointTurns e.1 e.2)
    ++ s.graphs.flatMap (fun g => graphTurns g.1 g.2)
    ++ s.scopes.flatMap fun x => scopeTurns x.1 x.2

/-- In a cycle of slot 0 the armed routers of every die swap their tables (02 R56). -/
def State.swapAll (s : State) : State := (List.range 4).foldl State.swapSlots s

/-- The schedule's turn. Right after reset it is the ROM's; a package whose ROM gave up has none (17 R438, R439).
DESIGN CHOICE (log 4). -/
def State.autoTurn (ex : Meaning) (s : State) : Out :=
  if !s.host.booted then (if s.host.bootCount = 0 then execPackageReset Config.bootPassed Config.bootImage s else .next s)
  else
    let s1 := s.swapAll
    let ts := turns ex s1
    (ts.getD (s1.turn % ts.length) Host.Outcome.next) s1

end Sys2Proof.Machine
end

