-- ==== Sys2Proof/Machine/Step.lean ====
section
/-! DEFINITION. One step of the package: the next turn. -/

namespace Sys2Proof.Machine
open Sys2Proof

/-- The agenda's head, or with an empty agenda the schedule's choice. -/
def step (s : State) : Host.Outcome State Fault Refusal :=
  match s.agenda with
  | (dt, a) :: _ => (s.tickTo dt).runAct exec a
  | [] => (s.tickTo 1).autoTurn exec

/-- The word as the one lane of the line core 0 fetches next, of the kind whose map reads it (08 R195, R209). -/
def State.withFetchWord (s : State) (nbits w : Nat) : State := if nbits = 32 then s.placeWord (w % 2 ^ 32) else s

end Sys2Proof.Machine
end

