-- ==== Sys2Proof/Safety.lean ====
section
/-! DEFINITION. What counts as a safe run: no step of it faults or is refused, and every state of it is well formed. -/

namespace Sys2Proof.Machine
open Sys2Proof

/-- The form every state keeps: memory lists rising addresses and no byte that reads as an unlisted one does. -/
def State.Inv (s : State) : Prop := s.mem.wf = true

/-- k steps that each answer a state. -/
def SafeRun (k : Nat) (s : State) : Prop := ∃ t, Host.Core.run Sys2Proof.core k s = .next t

end Sys2Proof.Machine
end

