-- ==== Sys2Proof/Certificates/Slice0/Obligations.lean ====
section
/-! DEFINITION. What the provers are asked: the rules of the manual as statements about `exec`, `step` and the decoder. The first part
names what the statements share; the statements follow, family by family in the table's order. -/

namespace Sys2Proof.Claim
open Sys2Proof Sys2Proof.Machine

/-! ## What the statements share -/

/-- Everything outside the current core: memory with its tags, keys and poison, and every other unit of the package. -/
def Outside (s t : State) : Prop :=
  t.mem = s.mem ∧ t.bays = s.bays ∧ t.dies = s.dies ∧ t.routers = s.routers ∧ t.units = s.units ∧ t.scopes = s.scopes ∧
    t.nests = s.nests ∧ t.graphs = s.graphs ∧ t.sys = s.sys ∧ t.fab = s.fab ∧ t.host = s.host ∧ t.agenda = s.agenda ∧
    t.curCore = s.curCore ∧ ∀ n, n ≠ s.curCore → t.core n = s.core n

/-- What of the current core a lane on its registers alone leaves: control and exception registers, accumulator slots, lease, instruction
frames, and the memory-side work in hand. -/
def CoreKept (s t : State) : Prop :=
  t.cc.csr = s.cc.csr ∧ t.cc.acc = s.cc.acc ∧ t.cc.lease = s.cc.lease ∧ t.cc.leaseFlights = s.cc.leaseFlights ∧
    t.cc.cmds = s.cc.cmds ∧ t.cc.frame0 = s.cc.frame0 ∧ t.cc.frame1 = s.cc.frame1 ∧ t.cc.mem = s.cc.mem

/-- The lane has left its issue queue and has its numbers: the issue sequence number counts it unless a handler runs (06 R148; 14 R379),
and SKIPW is spent. -/
def Numbered (s t : State) (cl : Cl) : Prop :=
  (t.cluster s.curCore cl).iseq = (s.cluster s.curCore cl).iseq + (if s.cc.sys.sv then 0 else 1) ∧
    (t.cluster s.curCore cl).flightNo = (s.cluster s.curCore cl).flightNo + 1 ∧ (t.cluster s.curCore cl).skipw = false ∧
    (cl ≠ .S → (t.cluster s.curCore cl).iq = (s.cluster s.curCore cl).iq.tail)

/-- The lane issues and is complete; the register files become r, and nothing else of the package changes but the lane's own queue
place and numbers. -/
def Done (i : Instr) (s : State) (cl : Cl) (r : Regs) : Prop :=
  ∃ t, exec i s = .next t ∧ t.regs = r ∧ Outside s t ∧ CoreKept s t ∧ t.cc.queues = s.cc.queues ∧ t.cc.cues = s.cc.cues ∧
    Numbered s t cl ∧ (t.cluster s.curCore cl).flights = (s.cluster s.curCore cl).flights

/-- A place for one more entry of a queue: on chip, or in its ring, whose slice is ON (06 R161; 02 R70). -/
def Room (s : State) (q : Nat) : Prop :=
  s.cc.room q 1 = some true ∧ ((s.cc.queue q).spills q = true → awake s ((s.cc.queue q).ringPa (s.cc.queue q).tail) = .ok ())

/-- The slice of a bay's unit is ON, and is not leaving it (02 R70). -/
def SliceOn (s : State) (u : Nat) : Prop := u < 288 → (s.bay u).power = .on ∧ (s.bay u).target = none

/-- No step of the sequencer is held up, and none has to be told of a refused page (01 R40, R41; 02 R70). -/
def Unheld (s : State) : Prop := s.blocked = none ∧ s.sys.refused = []

/-- X[d] as K's lanes read it, and the files with X[d] written. -/
def xr (s : State) (a : BitVec 5) : W64 := s.regs.getX a.toNat
def withX (s : State) (d : BitVec 5) (v : W64) : Regs := s.regs.setX d.toNat v

end Sys2Proof.Claim

section
open Sys2Proof Sys2Proof.Machine Sys2Proof.Claim

/-! ## K: integers (09 R228 to R232) -/

/-- 09 R228: every result of the register group, for all operands; the quotients truncate toward zero, saturate, and give the bound of
the dividend's sign by a zero divisor. Nothing but X[xd] changes.

09 R229: every result of the immediate group, the immediate sign-extended. -/
def Obligations.IntegerArithmetic : Prop :=
  (
  ∀ (s : State) (d a b : BitVec 5),
    let x := xr s a
    let y := xr s b
    Done (.add d a b) s .K (withX s d (x + y)) ∧
    Done (.sub d a b) s .K (withX s d (x - y)) ∧
    Done (.and d a b) s .K (withX s d (x &&& y)) ∧
    Done (.or d a b) s .K (withX s d (x ||| y)) ∧
    Done (.xor d a b) s .K (withX s d (x ^^^ y)) ∧
    Done (.sll d a b) s .K (withX s d (x <<< (y.toNat % 64))) ∧
    Done (.srl d a b) s .K (withX s d (x >>> (y.toNat % 64))) ∧
    Done (.sra d a b) s .K (withX s d (x.sshiftRight (y.toNat % 64))) ∧
    Done (.slt d a b) s .K (withX s d (if x.slt y then 1 else 0)) ∧
    Done (.sltu d a b) s .K (withX s d (if x.ult y then 1 else 0)) ∧
    Done (.min d a b) s .K (withX s d (BitVec.ofInt 64 (min x.toInt y.toInt))) ∧
    Done (.max d a b) s .K (withX s d (BitVec.ofInt 64 (max x.toInt y.toInt))) ∧
    Done (.minu d a b) s .K (withX s d (BitVec.ofNat 64 (min x.toNat y.toNat))) ∧
    Done (.maxu d a b) s .K (withX s d (BitVec.ofNat 64 (max x.toNat y.toNat))) ∧
    Done (.mul d a b) s .K (withX s d (x * y)) ∧
    Done (.mulh d a b) s .K (withX s d (BitVec.ofInt 64 (x.toInt * y.toInt / 2 ^ 64))) ∧
    Done (.mulhu d a b) s .K (withX s d (BitVec.ofNat 64 (x.toNat * y.toNat / 2 ^ 64))) ∧
    Done (.div d a b) s .K (withX s d (
      if y = 0 then (if x.slt 0 then 0x8000000000000000 else 0x7FFFFFFFFFFFFFFF)
      else if x = 0x8000000000000000 ∧ y = 0xFFFFFFFFFFFFFFFF then 0x7FFFFFFFFFFFFFFF
      else BitVec.ofInt 64 (Int.tdiv x.toInt y.toInt))) ∧
    Done (.divu d a b) s .K (withX s d (if y = 0 then 0xFFFFFFFFFFFFFFFF else BitVec.ofNat 64 (x.toNat / y.toNat))) ∧
    Done (.rem d a b) s .K (withX s d (if y = 0 then 0 else BitVec.ofInt 64 (Int.tmod x.toInt y.toInt))) ∧
    Done (.remu d a b) s .K (withX s d (if y = 0 then 0 else BitVec.ofNat 64 (x.toNat % y.toNat))) ∧
    ∃ n, Done (.clz d a) s .K (withX s d (BitVec.ofNat 64 n)) ∧ n ≤ 64 ∧ x.toNat < 2 ^ (64 - n) ∧ (n < 64 → 2 ^ (63 - n) ≤ x.toNat)) ∧
  (
  ∀ (s : State) (d a : BitVec 5) (i : BitVec 15) (n : BitVec 6),
    let x := xr s a
    let v : W64 := i.signExtend 64
    Done (.addi d a i) s .K (withX s d (x + v)) ∧
    Done (.andi d a i) s .K (withX s d (x &&& v)) ∧
    Done (.ori d a i) s .K (withX s d (x ||| v)) ∧
    Done (.xori d a i) s .K (withX s d (x ^^^ v)) ∧
    Done (.slli d a n) s .K (withX s d (x <<< n.toNat)) ∧
    Done (.srli d a n) s .K (withX s d (x >>> n.toNat)) ∧
    Done (.srai d a n) s .K (withX s d (x.sshiftRight n.toNat)) ∧
    Done (.slti d a i) s .K (withX s d (if x.slt v then 1 else 0)) ∧
    Done (.sltiu d a i) s .K (withX s d (if x.ult v then 1 else 0)))

/-- 09 R230 to R232: constants. `lla` gives the lane address itself; `lit` reads the literal that fetch attached, and raises ILLEGAL_OP
with reason 0x18 where there is none (08 R199); `kld` reads a word of the constant bank, zero where it holds another context's image,
and a poisoned word of its own image is logged and ends the context instead (02 R65, R69). -/
def Obligations.ConstantsAndLiterals : Prop :=
  ∀ (s : State) (d a : BitVec 5) (i : BitVec 20) (k : BitVec 15) (m : BitVec 2) (n : BitVec 4),
    Done (.lui d i) s .K (withX s d ((i ++ (0 : BitVec 12)).signExtend 64)) ∧
    Done (.lif d i) s .K (withX s d ((i ++ (0 : BitVec 12)).setWidth 64)) ∧
    Done (.lla d i) s .K (withX s d (BitVec.ofNat 64 ((s.cur.addr.toNat + 4 * i.toInt) % 0x20000).toNat)) ∧
    (∀ l : W32, s.cur.lit = some l →
      Done (.lit d a m n) s .K (withX s d (
        if m = 0 then l.signExtend 64 else if m = 1 then l.setWidth 64 else l ++ (xr s a).extractLsb' 0 32))) ∧
    (s.cur.lit = none → exec (.lit d a m n) s =
      .next (s.raiseLane s.curCore .K .illegalOp (BitVec.ofNat 64 (0x18 * 2 ^ 56 + s.cur.addr.toNat)))) ∧
    let index := (xr s a + k.signExtend 64).toNat % 256
    (¬(s.cc.mem.bankTag = s.cc.ctx ∧ index ∈ s.cc.mem.bankPoison) →
      Done (.kld d a k) s .K (withX s d (if s.cc.mem.bankTag = s.cc.ctx then (Map.get 0 s.cc.mem.bank index).setWidth 64 else 0))) ∧
    (s.cc.mem.bankTag = s.cc.ctx → index ∈ s.cc.mem.bankPoison → exec (.kld d a k) s = .next (s.unitMet s.curCore s.cc.ctx 6 index))

/-! ## K: floats, memory and queues (09 R233 to R237, R245) -/

namespace Sys2Proof.Claim
open Sys2Proof Sys2Proof.Machine

/-- The low 32 bits of a register as an exact value (07 R173). -/
def fv (x : W64) : FV := F32.decode (x.toNat % 2 ^ 32)

/-- Everything outside the current core but memory and the cached translations. -/
def Around (s t : State) : Prop :=
  t.bays = s.bays ∧ t.dies = s.dies ∧ t.routers = s.routers ∧ t.units = s.units ∧ t.scopes = s.scopes ∧ t.nests = s.nests ∧
    t.graphs = s.graphs ∧ { t.sys with tlb1 := s.sys.tlb1, tlb2 := s.sys.tlb2, walked := s.sys.walked } = s.sys ∧ t.fab = s.fab ∧ t.host = s.host ∧ t.agenda = s.agenda ∧
    t.curCore = s.curCore ∧ ∀ n, n ≠ s.curCore → t.core n = s.core n

/-- The lane has issued and is in flight until its access is performed. -/
def InFlight (s t : State) (cl : Cl) (w : Option (W64 × List Nat)) : Prop :=
  (t.cluster s.curCore cl).flights = (s.cluster s.curCore cl).flights ++
    [{ no := (s.cluster s.curCore cl).flightNo, iseq := (s.cluster s.curCore cl).iseq, kind := .sync, watch := w }]

/-- An aligned access of n bytes at va that meets no fault, no device and nothing that delays it: its page is p (01 R35), and the bytes
there read as bs. -/
def Reads (s : State) (cl : Cl) (va n : Nat) (p : Place) (bs : List Byte) : Prop :=
  va % n = 0 ∧ translate s s.cc.ctx s.cc.sys.sv (.load n) anyFmt va = .ok p ∧ p.mt ≠ 5 ∧
    watchRead s s.curCore cl (agentOf cl) [(va, n)] = .ok () ∧ awake s p.pa = .ok () ∧ s.mem.read s.cc.ctx p.key p.pa n = some bs

def Writes (s : State) (va n : Nat) (p : Place) : Prop :=
  va % n = 0 ∧ translate s s.cc.ctx s.cc.sys.sv (.store n) anyFmt va = .ok p ∧ p.mt ≠ 5 ∧ awake s p.pa = .ok () ∧
    s.mem.writeBlocked s.cc.ctx p.pa n = false

/-- A load's whole effect: the register files become r; memory, and everything else but cached translations, is as before. -/
def Loaded (i : Instr) (s : State) (cl : Cl) (r : Regs) : Prop :=
  ∃ t, exec i s = .next t ∧ t.regs = r ∧ t.mem = s.mem ∧ Around s t ∧ CoreKept s t ∧ t.cc.queues = s.cc.queues ∧ t.cc.cues = s.cc.cues ∧
    Numbered s t cl ∧ InFlight s t cl none

/-- Outside the stored bytes every byte reads as before; the rest of their line too, unless a slice line of another context is taken over
(02 R61) or a unit changes its key (01 R24). -/
def StoresAt (s t : State) (p : Place) (bs : List Byte) : Prop :=
  t.mem = s.mem.write s.cc.ctx p.key p.pa bs ∧ (∀ a, lineOf a ≠ lineOf p.pa → t.mem.byte a = s.mem.byte a) ∧
    ((isSlice p.pa = true ∧ s.mem.meets s.cc.ctx p.pa ≠ .foreign) ∨ (isSlice p.pa = false ∧ Map.get 0 s.mem.keyOf (lineOf p.pa) = s.mem.slotKey p.key) →
      ∀ a, a < p.pa ∨ p.pa + bs.length ≤ a → t.mem.byte a = s.mem.byte a)

/-- A store's whole effect. -/
def Stored (i : Instr) (s : State) (cl : Cl) (va : Nat) (p : Place) (bs : List Byte) : Prop :=
  ∃ t, exec i s = .next t ∧ t.regs = s.regs ∧ StoresAt s t p bs ∧ Around s t ∧ CoreKept s t ∧ t.cc.queues = s.cc.queues ∧
    t.cc.cues = s.cc.cues ∧ Numbered s t cl ∧ InFlight s t cl (watchWrite s s.curCore cl (agentOf cl) [(va, bs.length)])

/-- Trunc64(X[xa] + SignExtend(imm15) × n). -/
def kVa (s : State) (a : BitVec 5) (i : BitVec 15) (n : W64) : Nat := (xr s a + i.signExtend 64 * n).toNat

/-- The bytes of a number, least significant first. -/
def numberOf (bs : List Byte) : Nat := bs.foldr (fun b a => b.toNat + 256 * a) 0

/-- A cause raised on the current lane's cluster: the lane does not issue, and the core's stop begins (14 R374). -/
def Raises (i : Instr) (s : State) (cl : Cl) (c : Cause) (info : W64) : Prop := exec i s = .next (s.raiseLane s.curCore cl c info)

end Sys2Proof.Claim

/-- 09 R233 to R235: scalar FP32. Every operation is exact and then rounded once to nearest even; the result stands in bits [31:0] and
the rest of xd is zero. The comparisons are false on a NaN, but for `un`; conversions to integers clamp.

07 R173 to R175: what a format holds it rounds to itself, zeros with their signs, and every NaN to the canonical one; ∞ − ∞ and
0 × ∞ are NaN, −0 + −0 is −0, and an exact sum of zero of other terms is +0. -/
def Obligations.ScalarFloatArithmetic : Prop :=
  (
  ∀ (s : State) (d a b : BitVec 5),
    let x := fv (xr s a)
    let y := fv (xr s b)
    let w : Nat → W64 := fun r => BitVec.ofNat 64 r
    Done (.fadd d a b) s .K (withX s d (w (F32.round (x.add y)))) ∧
    Done (.fsub d a b) s .K (withX s d (w (F32.round (x.add y.neg)))) ∧
    Done (.fmul d a b) s .K (withX s d (w (F32.round (x.mul y)))) ∧
    Done (.ffma d a b) s .K (withX s d (w (F32.round ((x.mul y).add (fv (xr s d)))))) ∧
    Done (.fmin d a b) s .K (withX s d (w (F32.round (x.min y)))) ∧
    Done (.fmax d a b) s .K (withX s d (w (F32.round (x.max y)))) ∧
    Done (.fcmp d a b 0) s .K (withX s d (if !x.isNan && !y.isNan && !x.lt y && !y.lt x then 1 else 0)) ∧
    Done (.fcmp d a b 1) s .K (withX s d (if x.lt y then 1 else 0)) ∧
    Done (.fcmp d a b 2) s .K (withX s d (if !x.isNan && !y.isNan && !y.lt x then 1 else 0)) ∧
    Done (.fcmp d a b 3) s .K (withX s d (if x.isNan || y.isNan then 1 else 0)) ∧
    Done (.fcvt d a 0) s .K (withX s d (BitVec.ofInt 64 (x.toInt 32))) ∧
    Done (.fcvt d a 1) s .K (withX s d (w (F32.round (FV.ofInt ((xr s a).setWidth 32).toInt)))) ∧
    Done (.fcvt d a 2) s .K (withX s d (BitVec.ofInt 64 (x.toInt 64))) ∧
    Done (.fcvt d a 3) s .K (withX s d (w (F32.round (FV.ofInt (xr s a).toInt)))) ∧
    Done (.fcvt d a 4) s .K (withX s d (w (FBf16.round x))) ∧
    Done (.fcvt d a 5) s .K (withX s d (w (F32.round (FBf16.decode ((xr s a).toNat % 2 ^ 16))))) ∧
    Done (.fcvt d a 6) s .K (withX s d (w (F16.round x))) ∧
    Done (.fcvt d a 7) s .K (withX s d (w (F32.round (F16.decode ((xr s a).toNat % 2 ^ 16)))))) ∧
  (
  (∀ f : FFmt, f = F32 ∨ f = FBf16 ∨ f = F16 → ∀ x < 2 ^ f.width, f.round (f.decode x) = if f.decode x = .nan then f.nan else x) ∧
  (∀ b, (FV.inf b).add (.inf (!b)) = .nan) ∧
  (∀ b n e, (FV.inf b).mul (.fin n 0 e) = .nan ∧ (FV.fin n 0 e).mul (.inf b) = .nan) ∧
  (∀ e f, F32.round ((FV.fin true 0 e).add (.fin true 0 f)) = 0x80000000) ∧
  (∀ n m e, F32.round ((FV.fin n m e).add (.fin (!n) m e)) = 0) ∧
  (∀ n k m e f, F32.round ((FV.fin n 0 e).mul (.fin k m f)) = if n = k then 0 else 0x80000000) ∧
  F32.nan = 0x7FC00000 ∧ FBf16.nan = 0x7FC0 ∧ F16.nan = 0x7E00)

/-- 09 R236, R237: scalar loads, and the acquire loads. The address is the base plus the offset in units of the access; the bytes come
least significant first, sign-extended by the signed forms and zero-extended by the others.

09 R236, R237: scalar stores, and the release stores: the low n bytes of the register, least significant first, at the address that
the base and the offset give, and nowhere else.

09 R236: a scalar access of K whose address is no multiple of its size raises ALIGN with the address in TRAPINFO[55:0], and does
nothing else. -/
def Obligations.ScalarMemory : Prop :=
  (
  ∀ (s : State) (d a : BitVec 5) (i : BitVec 15) (sc : BitVec 4) (p : Place) (bs : List Byte),
    (Reads s .K (kVa s a i 1) 1 p bs →
      Loaded (.ldB d a i) s .K (withX s d ((BitVec.ofNat 8 (numberOf bs)).signExtend 64)) ∧
      Loaded (.ldBu d a i) s .K (withX s d (BitVec.ofNat 64 (numberOf bs)))) ∧
    (Reads s .K (kVa s a i 2) 2 p bs →
      Loaded (.ldH d a i) s .K (withX s d ((BitVec.ofNat 16 (numberOf bs)).signExtend 64)) ∧
      Loaded (.ldHu d a i) s .K (withX s d (BitVec.ofNat 64 (numberOf bs)))) ∧
    (Reads s .K (kVa s a i 4) 4 p bs →
      Loaded (.ldW d a i) s .K (withX s d ((BitVec.ofNat 32 (numberOf bs)).signExtend 64)) ∧
      Loaded (.ldWu d a i) s .K (withX s d (BitVec.ofNat 64 (numberOf bs)))) ∧
    (Reads s .K (kVa s a i 8) 8 p bs → Loaded (.ldD d a i) s .K (withX s d (BitVec.ofNat 64 (numberOf bs)))) ∧
    (Reads s .K (xr s a).toNat 4 p bs → Loaded (.ldAcq d a 0 sc) s .K (withX s d (BitVec.ofNat 64 (numberOf bs)))) ∧
    (Reads s .K (xr s a).toNat 8 p bs → Loaded (.ldAcq d a 1 sc) s .K (withX s d (BitVec.ofNat 64 (numberOf bs))))) ∧
  (
  ∀ (s : State) (d a : BitVec 5) (i : BitVec 15) (sc : BitVec 4) (p : Place),
    let low : Nat → List Byte := fun n => (List.range n).map fun j => (xr s d).extractLsb' (8 * j) 8
    (Writes s (kVa s a i 1) 1 p → Stored (.stB d a i) s .K (kVa s a i 1) p (low 1)) ∧
    (Writes s (kVa s a i 2) 2 p → Stored (.stH d a i) s .K (kVa s a i 2) p (low 2)) ∧
    (Writes s (kVa s a i 4) 4 p → Stored (.stW d a i) s .K (kVa s a i 4) p (low 4)) ∧
    (Writes s (kVa s a i 8) 8 p → Stored (.stD d a i) s .K (kVa s a i 8) p (low 8)) ∧
    (Writes s (xr s a).toNat 4 p → Stored (.stRel a d 0 sc) s .K (xr s a).toNat p (low 4)) ∧
    (Writes s (xr s a).toNat 8 p → Stored (.stRel a d 1 sc) s .K (xr s a).toNat p (low 8))) ∧
  (
  ∀ (s : State) (d a : BitVec 5) (i : BitVec 15) (sc : BitVec 4),
    let traps := fun (j : Instr) (va : Nat) => Raises j s .K .align (BitVec.ofNat 64 (va % 2 ^ 56))
    (kVa s a i 2 % 2 ≠ 0 → traps (.ldH d a i) (kVa s a i 2) ∧ traps (.ldHu d a i) (kVa s a i 2) ∧ traps (.stH d a i) (kVa s a i 2)) ∧
    (kVa s a i 4 % 4 ≠ 0 → traps (.ldW d a i) (kVa s a i 4) ∧ traps (.ldWu d a i) (kVa s a i 4) ∧ traps (.stW d a i) (kVa s a i 4)) ∧
    (kVa s a i 8 % 8 ≠ 0 → traps (.ldD d a i) (kVa s a i 8) ∧ traps (.stD d a i) (kVa s a i 8)) ∧
    ((xr s a).toNat % 4 ≠ 0 → traps (.ldAcq d a 0 sc) (xr s a).toNat ∧ traps (.stRel a d 0 sc) (xr s a).toNat) ∧
    ((xr s a).toNat % 8 ≠ 0 → traps (.ldAcq d a 1 sc) (xr s a).toNat ∧ traps (.stRel a d 1 sc) (xr s a).toNat))

/-- Memory: bytes written are read back by the same context under the same key, wherever the write meets nothing that blocks it. -/
def Obligations.WrittenBytesReadBack : Prop :=
  ∀ (m : Memory) (ctx : W16) (key pa : Nat) (bs : List Byte), m.wf = true → (m.keyOf.map Prod.fst).Nodup →
    (∀ u ∈ linesOf pa bs.length, m.meets ctx u = .own) → (m.write ctx key pa bs).read ctx key pa bs.length = some bs

/-! ## K: control flow (09 R238 to R244; 06 R153 to R155) -/

namespace Sys2Proof.Claim
open Sys2Proof Sys2Proof.Machine

/-- Fetch is to go on in the line of a lane, behind one that has written a LOOP register. -/
def LineLeft (x : Cluster) (a : LaneAddr) : Prop :=
  x.fpc.toNat / 32 = a.toNat / 32 ∧ a < x.fpc ∧ ∃ b, x.xfers.getLast? = some b ∧ a < b ∧ b < x.fpc

/-- What a lane that may send fetch elsewhere does to the stream `own`: if fetch still waits for this lane, it goes to the target, once what is
left of the line is routed, or no longer waits for it; a lane that follows a taken transfer of its line changes nothing (08 R197). -/
def Steers (s t : State) (own : Cl) (target : Option LaneAddr) : Prop :=
  let x := s.cluster s.curCore own
  let y := t.cluster s.curCore own
  if x.xline = s.cur.line ∧ s.cur.addr ∈ x.xfers then
    match target with
    | some a => y.xfers = [] ∧ (LineLeft x s.cur.addr → y.goto = some a ∧ y.fpc = x.fpc ∧ y.jumped = x.jumped) ∧
        (¬LineLeft x s.cur.addr → y.goto = x.goto ∧ y.fpc = a ∧ y.jumped = true)
    | none => y.fpc = x.fpc ∧ y.jumped = x.jumped ∧ y.goto = x.goto ∧ y.xfers = x.xfers.filter (fun a => decide (a ≠ s.cur.addr))
  else y.fpc = x.fpc ∧ y.jumped = x.jumped ∧ y.goto = x.goto ∧ y.xfers = x.xfers

/-- A lane that acts on registers and fetch alone. -/
def Went (i : Instr) (s : State) (cl : Cl) (r : Regs) (target : Option LaneAddr) : Prop :=
  ∃ t, exec i s = .next t ∧ t.regs = r ∧ Steers s t (s.streamOf cl) target ∧ Outside s t ∧ CoreKept s t ∧ t.cc.queues = s.cc.queues ∧
    t.cc.cues = s.cc.cues ∧ Numbered s t cl ∧ (t.cluster s.curCore cl).flights = (s.cluster s.curCore cl).flights ∧
    (t.cluster s.curCore (s.streamOf cl)).loop0 = (s.cluster s.curCore (s.streamOf cl)).loop0 ∧
    (t.cluster s.curCore (s.streamOf cl)).loop1 = (s.cluster s.curCore (s.streamOf cl)).loop1

/-- The branch condition codes (08 R207). -/
def holds (k : Nat) (x y : W64) : Bool :=
  if k = 0 then decide (x = y) else if k = 1 then decide (x ≠ y) else if k = 2 then x.slt y else if k = 3 then !x.slt y
  else if k = 4 then x.ult y else !x.ult y

/-- NextLane(a): lane 0 of a line holds its header and is passed over (08 R196). -/
def laneAfter (a : LaneAddr) : LaneAddr := if a % 32 = 28 then a + 8 else a + 4

/-- The link word: the lane after, and the fill count of the lane's own frame (09 R240). -/
def linkOf (s : State) : W64 :=
  (0 : BitVec 32) ++ (if s.cur.addr.toNat < 0x10000 then s.cc.frame0.fills else s.cc.frame1.fills) ++ laneAfter s.cur.addr

def fillsAt (s : State) (t : W64) : BitVec 15 := if t.getLsbD 16 then s.cc.frame1.fills else s.cc.frame0.fills

/-- A loop word as the LOOP registers lay it out: A, END and START in lanes, COUNT (09 R256). -/
def loopReg (start last : LaneAddr) (count : BitVec 32) : W64 :=
  (1 : BitVec 1) ++ (0 : BitVec 1) ++ last.extractLsb' 2 15 ++ start.extractLsb' 2 15 ++ count

end Sys2Proof.Claim

/-- 09 R238 to R241: branches, jumps, calls and returns. A branch whose condition holds goes to a + 4 × off12 modulo the instruction
memory; `br.bq`, resolved at fetch, does nothing further; the jumps write the link word, also where xa is xd; a link word whose fill
count is not its frame's raises ILLEGAL_OP with reason 0x15, and a bad address ALIGN.

09 R242; 10 R290; 11 R317: `loop`. START is lane 1 of the next line, END a + 4 × off; level 0 is set, or level 1 where level 0 is active; a count
of zero sends fetch past END, as a transfer (the model's choice, log 104); an END before START or at lane 0 of a line, and a third level, raise
ILLEGAL_OP with reason 0x11. The count of a register saturates at 2^32 − 1. -/
def Obligations.TransfersAndLoops : Prop :=
  (
  ∀ (s : State) (d a b : BitVec 5) (k : BitVec 3) (o : BitVec 12) (i : BitVec 20) (j : BitVec 15) (z q : BitVec 1),
    let here := s.cur.addr
    let x := xr s a
    let t := x + 4 * j.signExtend 64
    let illegal : W64 := BitVec.ofNat 64 (0x15 * 2 ^ 56 + here.toNat)
    Went (.bCond k a b o) s .K s.regs (if holds k.toNat x (xr s b) then some (here + 4 * o.signExtend 17) else none) ∧
    Done (.brBq z q o) s .K s.regs ∧
    Went (.jal d i) s .K (withX s d (linkOf s)) (some (here + 4 * i.setWidth 17)) ∧
    (if t.extractLsb' 32 32 ≠ 0 ∨ t.extractLsb' 0 2 ≠ 0 then Raises (.jalr d a j) s .K .align t
      else if t.extractLsb' 17 15 ≠ 0 ∧ t.extractLsb' 17 15 ≠ fillsAt s t then Raises (.jalr d a j) s .K .illegalOp illegal
      else Went (.jalr d a j) s .K (withX s d (linkOf s)) (some (t.setWidth 17))) ∧
    (if 16384 ≤ j.toNat then Raises (.ovlCall d a j) s .K .illegalOp (BitVec.ofNat 64 (0x11 * 2 ^ 56 + here.toNat))
      else if s.cc.frame0.img = x ∧ s.cc.frame0.tag = s.cc.ctx ∧ s.cc.frame0.empty = false then
        Went (.ovlCall d a j) s .K (withX s d (linkOf s)) (some (4 * j.setWidth 17))
      else if s.cc.frame1.img = x ∧ s.cc.frame1.tag = s.cc.ctx ∧ s.cc.frame1.empty = false then
        Went (.ovlCall d a j) s .K (withX s d (linkOf s)) (some (0x10000 + 4 * j.setWidth 17))
      else Raises (.ovlCall d a j) s .K .illegalOp illegal) ∧
    (if x.extractLsb' 32 32 ≠ 0 ∨ x.extractLsb' 17 15 ≠ fillsAt s x then Raises (.ovlRet a) s .K .illegalOp illegal
      else if x.extractLsb' 0 2 ≠ 0 then Raises (.ovlRet a) s .K .align (x &&& 0x1FFFF)
      else Went (.ovlRet a) s .K s.regs (some (x.setWidth 17)))) ∧
  (
  ∀ (s : State) (a h l : BitVec 5) (e : BitVec 12) (i : Instr) (count : Nat),
    ((i = .loop a e ∧ count = min (xr s a).toNat (2 ^ 32 - 1)) ∨ (i = .loopImm h l e ∧ count = h.toNat * 32 + l.toNat)) →
    let own := s.streamOf .K
    let x := s.cluster s.curCore own
    let start := s.cur.addr.toNat / 32 * 32 + 36
    let last := s.cur.addr.toNat + 4 * e.toNat
    let bad := e = 0 ∨ last < start ∨ last % 32 = 0 ∨ (x.loop0.getLsbD 63 ∧ x.loop1.getLsbD 63)
    let word := loopReg (BitVec.ofNat 17 start) (BitVec.ofNat 17 last) (BitVec.ofNat 32 count)
    (bad → Raises i s .K .illegalOp (BitVec.ofNat 64 (0x11 * 2 ^ 56 + s.cur.addr.toNat))) ∧
    (¬bad → count = 0 → Went i s .K s.regs (some (laneAfter (BitVec.ofNat 17 last)))) ∧
    (¬bad → count ≠ 0 → ∃ t, exec i s = .next t ∧ t.regs = s.regs ∧ Steers s t own none ∧ Outside s t ∧ CoreKept s t ∧ Numbered s t .K ∧
      (t.cluster s.curCore own).loop0 = (if x.loop0.getLsbD 63 then x.loop0 else word) ∧
      (t.cluster s.curCore own).loop1 = (if x.loop0.getLsbD 63 then word else x.loop1)))

/-! ## K: tasks, scopes, weirs (09 R246 to R252; 04 R119 to R123) -/

namespace Sys2Proof.Claim
open Sys2Proof Sys2Proof.Machine

/-- The core runs task k, and the lane's address is on a 64-byte boundary. -/
def Runs (s : State) (k : Task) : Prop := s.cc.sys.task = some k

/-- The lane's whole effect is e: the registers, memory and agents that e.st holds, the lane leaving its issue queue as `finish` says
(stated by LaneIssueBookkeeping). -/
def Issues (i : Instr) (s : State) (cl : Cl) (cue : Nat) (pops : List Nat) (e : Eff) : Prop :=
  exec i s = .next (finish s.curCore cl cue pops e)

/-- The lane waits: nothing changes. -/
def Waits (i : Instr) (s : State) : Prop := exec i s = .next s

end Sys2Proof.Claim

/-- 09 R244; 06 R153, R155: `fork` in joint mode checks its targets in the order L, C, S and gives each cluster a stream of its own,
held until its queue has drained; in apart mode it raises ILLEGAL_OP with reason 0x17. `join` in apart mode completes once L, C and S
have joined, and joint fetch goes on.

09 R246: `spawn` and `spawn.g`. A record that passes its checks makes a child of the next work level under a new scope, which is a
child of the task's own at the callboard of the core's die; xd receives the scope's id. From work level 7 they raise ILLEGAL_OP with
reason 0x11, at an address that is no multiple of 64 ALIGN. -/
def Obligations.ForkJoinSpawn : Prop :=
  (
  ∀ (s : State) (d a b : BitVec 5),
    let good := fun v : W64 => v.toNat % 4 = 0 ∧ v.toNat < 0x20000
    let reason : W64 := BitVec.ofNat 64 (0x17 * 2 ^ 56 + s.cur.addr.toNat)
    let ls := xr s d
    let cs := xr s a
    let ss := xr s b
    let stands := fun (t : State) (cl : Cl) (v : W64) => (t.cluster s.curCore cl).fpc = v.setWidth 17 ∧ (t.cluster s.curCore cl).hold = true ∧
      (t.cluster s.curCore cl).joined = false ∧ (t.cluster s.curCore cl).xfers = [] ∧ (t.cluster s.curCore cl).goto = none
    (s.cc.sys.apart = true → Raises (.fork d a b) s .K .illegalOp reason) ∧
    (s.cc.sys.apart = false → ¬good ls → Raises (.fork d a b) s .K .align ls) ∧
    (s.cc.sys.apart = false → good ls → ¬good cs → Raises (.fork d a b) s .K .align cs) ∧
    (s.cc.sys.apart = false → good ls → good cs → ¬good ss → Raises (.fork d a b) s .K .align ss) ∧
    (s.cc.sys.apart = false → good ls → good cs → good ss →
      ∃ t, exec (.fork d a b) s = .next t ∧ t.cc.sys.apart = true ∧ t.regs = s.regs ∧ stands t .L ls ∧ stands t .C cs ∧ stands t .S ss ∧
        Steers s t .K none ∧ Outside s t ∧ CoreKept s t ∧ Numbered s t .K) ∧
    (s.cc.sys.apart = false → Raises .join s .K .illegalOp reason) ∧
    (s.cc.sys.apart = true → s.cc.l.joined = true → s.cc.c.joined = true → s.cc.s.joined = true →
      ∃ t, exec .join s = .next t ∧ t.cc.sys.apart = false ∧ t.regs = s.regs ∧ t.cc.l.joined = false ∧ t.cc.c.joined = false ∧
        t.cc.s.joined = false ∧ Steers s t .K none ∧ Outside s t ∧ CoreKept s t ∧ Numbered s t .K) ∧
    (s.cc.sys.apart = true → ¬(s.cc.l.joined = true ∧ s.cc.c.joined = true ∧ s.cc.s.joined = true) → exec .join s = .next s)) ∧
  (
  ∀ (s : State) (d a : BitVec 5) (k : Task) (ws : List W64) (ns : List (List W64)) (id : W16) (s1 : State),
    Runs s k →
    let va := (xr s a).toNat
    let illegal : W64 := BitVec.ofNat 64 (0x11 * 2 ^ 56 + s.cur.addr.toNat)
    (7 ≤ k.level → Raises (.spawn d a) s .K .illegalOp illegal ∧ Raises (.spawnG d a) s .K .illegalOp illegal) ∧
    (k.level < 7 → va % 64 ≠ 0 →
      Raises (.spawn d a) s .K .align (BitVec.ofNat 64 (va % 2 ^ 56)) ∧ Raises (.spawnG d a) s .K .align (BitVec.ofNat 64 (va % 2 ^ 56))) ∧
    (k.level < 7 → va % 64 = 0 → spawnWords s va = .ok ws →
      ((bits (wordAt ws 0) 63 62 ≠ 0 ∨ nestMalformed false ws = true) → Raises (.spawn d a) s .K .illegalOp illegal) ∧
      (bits (wordAt ws 0) 63 62 = 0 → nestMalformed false ws = false →
        s.newScope (s.curCore / 288) k.ctx k.scope (some (BitVec.ofNat 64 (wordAt ws 7))) = some (id, s1) →
        ∃ t key n, exec (.spawn d a) s = .next t ∧ t.regs = s1.regs.setX d.toNat (id.setWidth 64) ∧ t.scopes = s1.scopes ∧
          t.scope? id = some { ctx := k.ctx, parent := some k.scope, curtain := some (BitVec.ofNat 64 (wordAt ws 7)) } ∧
          Map.find? t.nests key = some n ∧ n.desc = ws ∧ n.scope = id ∧ n.ctx = k.ctx ∧ n.level = k.level + 1 ∧ n.owner = k.owner ∧
          n.next = 0 ∧ n.out = 0 ∧ t.mem = s1.mem)) ∧
    (k.level < 7 → va % 64 = 0 →
      launchRecordsAs (s.withSys { s.sys with refused := [] }) k.ctx s.cc.sys.sv va false = .ok (ws, ns) →
      s.newScope (s.curCore / 288) k.ctx k.scope (some (BitVec.ofNat 64 (wordAt ws 4 + 64 * ns.length))) = some (id, s1) →
      ∃ x, x.scope = id ∧ x.level = k.level + 1 ∧ x.words = ws ∧ x.nnodes = ns.length ∧ x.parent = none ∧ x.spawner = some k.graph ∧
        (∀ s2, s1.startSpawned x ns = .ok s2 →
          Issues (.spawnG d a) s .K 0 [] { st := (s2.cacheAll k.ctx [va]).putRegs (s2.regs.setX d.toNat (id.setWidth 64)),
                                           flight := some .sync }) ∧
        (∀ h, s1.startSpawned x ns = .error h → exec (.spawnG d a) s = .next (s.halted s.curCore .K h))))

/-- 09 R247, R248: `kill` records a kill of a live scope of the task's own subtree, or of any of its context for a supervisor; another
context's scope, or one outside the subtree in task mode, raises PRIV. `scope.wait` waits for a kept child scope to have gone, and writes
0, or 1 where a curtain record has been written; a scope that is no child raises PRIV. A supervisor's kill of a node's own scope faults the
node with KILLED (13 R353). PRIV with TRAPINFO 0 is the model's choice (log 57). -/
def Obligations.KillAndScopeWait : Prop :=
  ∀ (s : State) (d a : BitVec 5) (k : Task) (sc : Scope), Runs s k →
    let id : W16 := (xr s a).setWidth 16
    (s.scope? id = none → Done (.kill a) s .K s.regs) ∧
    (s.scope? id = some sc →
      ((sc.ctx ≠ k.ctx ∨ (s.cc.sys.sv = false ∧ s.under id k.scope = false)) → Raises (.kill a) s .K .priv 0) ∧
      (sc.ctx = k.ctx → s.cc.sys.sv = true ∨ s.under id k.scope = true → sc.killing = true → Done (.kill a) s .K s.regs) ∧
      (sc.ctx = k.ctx → s.cc.sys.sv = true → sc.killing = false → s.liveScope id = true → s.cc.sys.handled = none →
        let u := (nodesOf s id).foldl (fun s p => s.faultNode p.1 p.2 { cause := .killed, info := 0 } 0
          (((s.graph? p.1).map Graph.anchor).getD 0) true) (s.kill id .killed)
        u.blocked = s.blocked → Issues (.kill a) s .K 0 [] { st := u }) ∧
      (sc.ctx = k.ctx → (s.cc.sys.sv = true ∧ nodesOf s id = []) ∨ (s.cc.sys.sv = false ∧ s.under id k.scope = true) → sc.killing = false →
        s.liveScope id = true → s.cc.sys.handled = none →
        ∃ t sc1, exec (.kill a) s = .next t ∧ t.regs = s.regs ∧ t.mem = s.mem ∧ t.scope? id = some sc1 ∧ sc1.killing = true ∧
          sc1.cause = .killed ∧ sc1.parent = sc.parent ∧ sc1.curtain = sc.curtain ∧ Numbered s t .K) ∧
      ((sc.ctx ≠ k.ctx ∨ (s.cc.sys.sv = false ∧ (sc.parent ≠ some k.scope ∨ sc.kept = false))) → Raises (.scopeWait d a) s .K .priv 0) ∧
      (sc.ctx = k.ctx → sc.parent = some k.scope → sc.kept = true →
        (if sc.killing then sc.written = true else s.gone id = true) →
        ∃ t, exec (.scopeWait d a) s = .next t ∧ t.regs = withX s d (if sc.killing then 1 else 0) ∧
          t.scope? id = some { sc with kept := false } ∧ t.mem = s.mem ∧ CoreKept s t ∧ Numbered s t .K) ∧
      (sc.ctx = k.ctx → sc.parent = some k.scope → sc.kept = true →
        (if sc.killing then sc.written = false else s.gone id = false) → Waits (.scopeWait d a) s)) ∧
    (s.scope? id = none → Raises (.scopeWait d a) s .K (if s.cc.sys.sv then .illegalOp else .priv)
      (if s.cc.sys.sv then BitVec.ofNat 64 (0x11 * 2 ^ 56 + s.cur.addr.toNat) else 0))

namespace Sys2Proof.Claim
open Sys2Proof Sys2Proof.Machine

/-- The weir that a lane names, its checks passed (04 R119): its place, its words, and a match of a region that watches it. -/
def AtWeir (s : State) (a : BitVec 5) (p : Place) (w : Weir) (m : Option (W64 × List Nat)) : Prop :=
  weirCheck s (xr s a).toNat = .ok (p, w, m)

/-- A weir lane's effect: xd, the weir written back as the words v0 and v1, the task's memberships, the core's count of stale signals. -/
def WeirDone (i : Instr) (s : State) (d : BitVec 5) (p : Place) (m : Option (W64 × List Nat)) (x : Nat) (v0 v1 : Nat)
    (ws : List (W64 × W16)) (st : Bool) : Prop :=
  ∃ t, exec i s = .next t ∧ t.regs = withX s d (BitVec.ofNat 64 x) ∧ Around s t ∧
    t.mem = { s.mem.write s.cc.ctx 0 p.pa (bytesOf 8 v0 ++ bytesOf 8 v1) with
      weirs := setIns (s.mem.write s.cc.ctx 0 p.pa (bytesOf 8 v0 ++ bytesOf 8 v1)).weirs p.pa } ∧
    t.cc.mem = { s.cc.mem with weirs := ws } ∧
    t.cc.csr = { s.cc.csr with weirStale := if st && s.cc.csr.weirStale ≠ 0xFFFFFFFF then s.cc.csr.weirStale + 1 else s.cc.csr.weirStale } ∧
    t.cc.acc = s.cc.acc ∧ t.cc.queues = s.cc.queues ∧ t.cc.cues = s.cc.cues ∧ Numbered s t .K ∧ InFlight s t .K m

end Sys2Proof.Claim

/-- 09 R249; 04 R120: the weir operations, by the fields GEN, MEMBERS, ARRIVED, PHASE and DROPPED. A join adds a member, to at most eight memberships
of the task; the last arrival of a phase starts the next one; a drop also takes the member away; a stale signal, whose generation is not the weir's,
changes only DROPPED and counts in WEIR_STALE; a wait goes on once the phase has moved, and until then it has allocated the weir (04 R122). -/
def Obligations.WeirOperations : Prop :=
  ∀ (s : State) (d a b : BitVec 5) (p : Place) (w : Weir) (m : Option (W64 × List Nat)),
    let gen := bits (xr s b).toNat 47 32
    let word := w.gen * 2 ^ 32 + w.phase
    let staleW1 := setBits w.w1 31 0 (min (w.dropped + 1) (2 ^ 32 - 1))
    let full := BitVec.ofNat 64 (0x13 * 2 ^ 56 + (xr s a).toNat % 2 ^ 56)
    let ws := s.cc.mem.weirs
    ((xr s a).toNat % 64 ≠ 0 → ∀ i, i = .weirJoin d a ∨ i = .weirArrive d a b ∨ i = .weirDrop d a b ∨ i = .weirWait d a b →
      Raises i s .K .align (BitVec.ofNat 64 ((xr s a).toNat % 2 ^ 56))) ∧
    (AtWeir s a p w m →
      ((8 ≤ ws.length ∨ w.members = 65535) → Raises (.weirJoin d a) s .K .permission full) ∧
      (ws.length < 8 → w.members ≠ 65535 →
        WeirDone (.weirJoin d a) s d p m word (setBits w.w0 31 16 (w.members + 1)) w.w1 (ws ++ [(xr s a, BitVec.ofNat 16 w.gen)]) false) ∧
      (w.gen ≠ gen → WeirDone (.weirArrive d a b) s d p m (2 ^ 63 + word) w.w0 staleW1 ws true ∧
        WeirDone (.weirDrop d a b) s d p m (2 ^ 63 + word) w.w0 staleW1 (ws.erase (xr s a, BitVec.ofNat 16 gen)) true) ∧
      (w.gen = gen → w.arrived + 1 < w.members →
        WeirDone (.weirArrive d a b) s d p m word (setBits (setBits w.w0 31 16 w.members) 15 0 (w.arrived + 1)) w.w1 ws false) ∧
      (w.gen = gen → w.members ≤ w.arrived + 1 →
        WeirDone (.weirArrive d a b) s d p m word (setBits (setBits w.w0 31 16 w.members) 15 0 0) (setBits w.w1 63 32 (w.phase + 1)) ws
          false) ∧
      (w.gen = gen → w.arrived + 1 < w.members - 1 →
        WeirDone (.weirDrop d a b) s d p m word (setBits (setBits w.w0 31 16 (w.members - 1)) 15 0 (w.arrived + 1)) w.w1
          (ws.erase (xr s a, BitVec.ofNat 16 gen)) false) ∧
      (w.gen = gen → w.members - 1 ≤ w.arrived + 1 →
        WeirDone (.weirDrop d a b) s d p m word (setBits (setBits w.w0 31 16 (w.members - 1)) 15 0 0) (setBits w.w1 63 32 (w.phase + 1))
          (ws.erase (xr s a, BitVec.ofNat 16 gen)) false) ∧
      (w.gen ≠ gen → WeirDone (.weirWait d a b) s d p m 1 w.w0 staleW1 ws true) ∧
      (w.gen = gen → w.phase ≠ bits (xr s b).toNat 31 0 → WeirDone (.weirWait d a b) s d p m 0 w.w0 w.w1 ws false) ∧
      (w.gen = gen → w.phase = bits (xr s b).toNat 31 0 →
        exec (.weirWait d a b) s = .next (s.withMem { s.mem with weirs := setIns s.mem.weirs p.pa })))

/-- 09 R250 to R252; 06 R168; 14 R374: `yield` and `halt` wait for every earlier lane and command, raise QUEUE_PROTOCOL where a queue or
a cue FIFO of the core still holds something visible, and then give the lease back or end the task; `halt` is refused in apart mode and to
a supervisor. `trap` waits for a write match of an earlier lane of K (14 R392), completes and raises BREAK behind it, with its code in
TRAPINFO: K's cut will go on at the lane after it. That a handler's `yield` keeps the core is the model's inference (log 59). -/
def Obligations.YieldHaltTrap : Prop :=
  ∀ (s : State) (k : Task) (code : BitVec 12), Runs s k →
    (s.cc.sys.apart = true → Done .yield s .K s.regs) ∧
    (s.cc.sys.apart = false → s.quiesced = false → Waits .yield s) ∧
    (s.cc.sys.apart = false → s.quiesced = true → leftover s.cc ≠ 0 → Raises .yield s .K .queueProtocol (BitVec.ofNat 64 (leftover s.cc))) ∧
    (s.cc.sys.apart = false → s.quiesced = true → leftover s.cc = 0 →
      let r := s.releaseLease s.curCore
      (r.core s.curCore).lease = .none ∧
        Issues .yield s .K 0 [] { st := if readyFor r r.curCore k && !r.cc.sys.sv then r.requestStop r.curCore .yield else r }) ∧
    (s.cc.sys.apart = true → Raises .halt s .K .illegalOp (BitVec.ofNat 64 (0x17 * 2 ^ 56 + s.cur.addr.toNat))) ∧
    (s.cc.sys.apart = false → s.cc.sys.sv = true → Raises .halt s .K .illegalOp (BitVec.ofNat 64 (0x11 * 2 ^ 56 + s.cur.addr.toNat))) ∧
    (s.cc.sys.apart = false → s.cc.sys.sv = false →
      (s.quiesced = false → Waits .halt s) ∧
      (s.quiesced = true → s.noReport = true → leftover s.cc ≠ 0 → Raises .halt s .K .queueProtocol (BitVec.ofNat 64 (leftover s.cc))) ∧
      (s.quiesced = true → s.noReport = true → leftover s.cc = 0 →
        ∃ t, exec .halt s = .next t ∧ t.cc.sys.halting = true ∧ t.cc.mem.weirs = [] ∧ t.regs = s.regs ∧ Outside s t ∧ Numbered s t .K)) ∧
    ((∃ f ∈ s.cc.k.flights, f.watch.isSome = true) → Waits (.trap code) s) ∧
    ((s.cluster s.curCore .K).stopped = none → (∀ f ∈ s.cc.k.flights, f.watch = none) → (s.cc.sys.stop = none →
      ∃ t, exec (.trap code) s = .next t ∧ t.regs = s.regs ∧ Outside s t ∧ CoreKept s t ∧
        (t.cluster s.curCore .K).stopped = some { cause := .break, info := code.setWidth 64, lseq := (s.cluster s.curCore .K).iseq, next := some (laneAfter s.cur.addr) } ∧
        (t.cluster s.curCore .K).iq = (s.cluster s.curCore .K).iq.tail ∧
        t.cc.sys.stop = some { why := .trap, phase := .requested, first := some .K }))

/-- 14 R374, R381: `sret` outside a handler raises PRIV; in a handler it waits for the handler's own work, raises ILLEGAL_OP with reason
0x11 where CUT_K to CUT_S name no area that holds a cut of the running context, ends the context where the area holds an uncorrectable
error (R376), and else restores that cut in place of its own issue; a lease that the handler holds is given up before a HARD cut's is requested
again (log 78). PRIV with TRAPINFO 0 is the model's choice (log 57). -/
def Obligations.SretRestoresTheCut : Prop :=
  ∀ (s : State) (k : Task) (j : Nat) (x : Cut), Runs s k →
    let die := s.curCore / 288
    let illegal : W64 := BitVec.ofNat 64 (0x11 * 2 ^ 56 + s.cur.addr.toNat)
    (s.cc.sys.sv = false → Raises .sret s .K .priv 0) ∧
    (s.cc.sys.sv = true → s.quiesced = false → Waits .sret s) ∧
    (s.cc.sys.sv = true → s.quiesced = true → cutArea (s.die die) s.cc.csr.cut = none → Raises .sret s .K .illegalOp illegal) ∧
    (s.cc.sys.sv = true → s.quiesced = true → cutArea (s.die die) s.cc.csr.cut = some j →
      s.cutIn k.ctx die j = .ok none → Raises .sret s .K .illegalOp illegal) ∧
    (s.cutIn k.ctx die j = .ok (some x) → x.ctx = k.ctx.toNat) ∧
    (∀ pa, s.cc.sys.sv = true → s.quiesced = true → cutArea (s.die die) s.cc.csr.cut = some j →
      s.cutIn k.ctx die j = .error (.poison k.ctx pa) → exec .sret s = .next (s.poisonMet k.ctx pa)) ∧
    (s.cc.sys.sv = true → s.quiesced = true → cutArea (s.die die) s.cc.csr.cut = some j → s.cutIn k.ctx die j = .ok (some x) →
      (reloads s.cc x false = [] → exec .sret s = .next (((((if x.slots then s.releaseLease s.curCore else s).finishRestore s.curCore x die
        j).resendFailed s.curCore).grantArray (s.curCore / 4)))) ∧
      (reloads s.cc x false ≠ [] → ∃ t, exec .sret s = .next t ∧ t.regs = s.regs ∧ t.mem = s.mem ∧
        t.cc.sys.stop = some { why := .trap, phase := .restoring, area := some (die, j), reload := reloads s.cc x false }))

/-! ## K: control registers, fences, ticks, trees (09 R253 to R260; 15 R407 to R412) -/

namespace Sys2Proof.Claim
open Sys2Proof Sys2Proof.Machine

/-- The value a CSR reads as (09 R254 to R256). -/
def csrValue (s : State) (r : Nat) (v : W64) : Prop :=
  let c := s.cc
  (r = 0x000 → v = BitVec.ofNat 64 ((if c.sys.apart then 32 else 0) + (if c.audit then 16 else 0) + (if c.det then 8 else 0) + (if c.sys.sv then 1 else 0))) ∧
  (∀ k, c.sys.task = some k → (r = 0x001 → v = k.tid.setWidth 64) ∧ (r = 0x002 → v = k.scope.setWidth 64) ∧ (r = 0x021 → v = k.manifest) ∧
    (r = 0x020 → v = BitVec.ofNat 64 (k.lcores.toNat * 2 ^ 32 + (if k.tt then 2 else 0) + (if k.det then 1 else 0)))) ∧
  (r = 0x003 → v = c.csr.gen.setWidth 64) ∧ (r = 0x004 → v = s.sys.frame) ∧ (r = 0x005 → v = c.csr.weirStale.setWidth 64) ∧
  (r = 0x008 → v = s.cur.loops.1) ∧ (r = 0x009 → v = s.cur.loops.2) ∧
  (r = 0x00A → v = c.l.loops.1) ∧ (r = 0x00B → v = c.l.loops.2) ∧ (r = 0x00C → v = c.c.loops.1) ∧ (r = 0x00D → v = c.c.loops.2) ∧
  (r = 0x00E → v = c.s.loops.1) ∧ (r = 0x00F → v = c.s.loops.2) ∧
  (r = 0x010 → v = c.csr.tvec) ∧ (r = 0x011 → v = c.csr.trapcause) ∧ (r = 0x012 → v = c.csr.trapinfo) ∧
  (∀ j < 4, r = 0x014 + j → v = vget 0 c.csr.cut j) ∧
  (r = 0x022 → v = (s.die (s.curCore / 288)).ageLimit.setWidth 64) ∧ (r = 0x023 → v = (s.die (s.curCore / 288)).preemptLimit) ∧
  (∀ j < 8, (r = 0x040 + j → v = vget 0 c.csr.watchBase j) ∧ (r = 0x048 + j → v = vget 0 c.csr.watchShape j) ∧
    (r = 0x050 + j → v = vget 0 c.csr.watchCtl j)) ∧
  (∀ q < 16, r = 0x120 + q → v = (c.queue q).cfg) ∧
  (r = 0x130 → v = BitVec.ofNat 64 (((c.cue 0).length - c.visTokens 0) * 2 ^ 4 + c.visTokens 0 + (((c.cue 1).length - c.visTokens 1) * 2 ^ 4 + c.visTokens 1) * 2 ^ 8 +
    (((c.cue 2).length - c.visTokens 2) * 2 ^ 4 + c.visTokens 2) * 2 ^ 16 + (((c.cue 3).length - c.visTokens 3) * 2 ^ 4 + c.visTokens 3) * 2 ^ 24))

/-- The numbers that are listed; those that a task may not access; those that are read-only in a mode; those that deterministic mode
forbids (09 R254, R260). -/
def isCsr (r : Nat) : Prop :=
  r ≤ 5 ∨ (8 ≤ r ∧ r ≤ 0x12) ∨ (0x14 ≤ r ∧ r ≤ 0x17) ∨ (0x20 ≤ r ∧ r ≤ 0x23) ∨ (0x40 ≤ r ∧ r ≤ 0x57) ∨ (0x120 ≤ r ∧ r ≤ 0x130)
def isSvCsr (r : Nat) : Prop := (0x0A ≤ r ∧ r ≤ 0x17) ∨ r = 0x22 ∨ r = 0x23 ∨ (0x40 ≤ r ∧ r ≤ 0x57)
def isRoCsr (sv : Bool) (r : Nat) : Prop := r ≤ 2 ∨ (r = 3 ∧ sv = false) ∨ r = 4 ∨ r = 0x20 ∨ r = 0x21 ∨ r = 0x130
def isTimedCsr (r : Nat) : Prop := r = 4 ∨ r = 5 ∨ r = 0x130

/-- The state with one control register of the core written. -/
def csrSet (s : State) (f : Csrs → Csrs) : State := s.putCore s.curCore { s.cc with csr := f s.cc.csr }

/-- What a write of v to CSR r, whose checks have passed, leaves: RO and RSV bits are kept. -/
def csrWritten (s : State) (r : Nat) (v : W64) (u : State) : Prop :=
  (r = 0x003 → u = csrSet s fun c => { c with gen := v.setWidth 4 }) ∧
  (r = 0x005 → u = csrSet s fun c => { c with weirStale := v.setWidth 32 }) ∧
  (r = 0x010 → u = csrSet s fun c => { c with tvec := v &&& 0xFFFFFFFFFFFFFFE0 }) ∧
  (r = 0x011 → u = csrSet s fun c => { c with trapcause := v &&& 0xBFFF }) ∧
  (r = 0x012 → u = csrSet s fun c => { c with trapinfo := v }) ∧
  (∀ j < 4, r = 0x014 + j → u = csrSet s fun c => { c with cut := c.cut.setIfInBounds j (v &&& 0x800FFFFFFFFFFFFF) }) ∧
  (r = 0x022 → u = s.putDie (s.curCore / 288) { s.die (s.curCore / 288) with ageLimit := v.setWidth 32 }) ∧
  (r = 0x023 → u = s.putDie (s.curCore / 288) { s.die (s.curCore / 288) with preemptLimit := v }) ∧
  (∀ j < 8, (r = 0x040 + j → u = csrSet s fun c => { c with watchBase := c.watchBase.setIfInBounds j (v &&& 0x00FFFFFFFFFFFFFF) }) ∧
    (r = 0x048 + j → u = csrSet s fun c => { c with watchShape := c.watchShape.setIfInBounds j v }) ∧
    (r = 0x050 + j → u = csrSet s fun c =>
      { c with watchCtl := c.watchCtl.setIfInBounds j ((v &&& 0x100FF) ||| (vget 0 c.watchCtl j &&& ~~~v &&& 0x8000)) })) ∧
  (0x008 ≤ r → r ≤ 0x00F → u = s.refetch.writeLoop s.curCore (loopCsr r).1 (loopCsr r).2 v)

end Sys2Proof.Claim

/-- 09 R253 to R256, R260; 14 R373, R387: the four CSR instructions on every listed number: the old value goes to xd; a number that is
not listed, and a write of a read-only one, raise ILLEGAL_OP with reason 0x11; a register reserved to supervisors raises PRIV in task mode;
a timed one NONDET in deterministic mode; `csrw` writes X[xa], `csrs` sets its bits and `csrc` clears them. The queue configurations are
told of at the end. PRIV and NONDET with TRAPINFO 0 are the model's choice (log 57).

09 R256: a LOOP register keeps bit 62 zero, and A is cleared where START is not at lane 1 of a line or END lies before it.

06 R159, R160: a write of QCFG_q, by `csrw`, `csrs` or `csrc`, of a queue that holds an entry raises QUEUE_PROTOCOL and changes nothing; q13 and
q14 keep no bit; else SL, SIZE, QUOTA and BASE are kept, and a ring of another bay's slice, or one whose checks fail, leaves the register as it was. -/
def Obligations.ControlRegisterAccess : Prop :=
  (
  ∀ (s : State) (d a : BitVec 5) (r : BitVec 12),
    let illegal : W64 := BitVec.ofNat 64 (0x11 * 2 ^ 56 + s.cur.addr.toNat)
    let n := r.toNat
    let forms := fun i : Instr => i = .csrw d a r ∨ i = .csrs d a r ∨ i = .csrc d a r
    (¬isCsr n → ∀ i, i = .csrr d r ∨ forms i → Raises i s .K .illegalOp illegal) ∧
    (isCsr n → isRoCsr s.cc.sys.sv n → ∀ i, forms i → Raises i s .K .illegalOp illegal) ∧
    (isCsr n → ∀ i, i = .csrr d r ∨ (forms i ∧ ¬isRoCsr s.cc.sys.sv n) →
      (s.cc.sys.sv = false → isSvCsr n → Raises i s .K .priv 0) ∧
      ((s.cc.sys.sv = true ∨ ¬isSvCsr n) → s.cc.det = true → isTimedCsr n → Raises i s .K .nondet 0)) ∧
    (isCsr n → (s.cc.sys.sv = true ∨ ¬isSvCsr n) → (s.cc.det = false ∨ ¬isTimedCsr n) →
      ∃ old, csrValue s n old ∧ Done (.csrr d r) s .K (withX s d old) ∧
        (¬isRoCsr s.cc.sys.sv n → n < 0x120 →
          ∀ i v, (i = .csrw d a r ∧ v = xr s a) ∨ (i = .csrs d a r ∧ v = old ||| xr s a) ∨ (i = .csrc d a r ∧ v = old &&& ~~~(xr s a)) →
            ∃ u, csrWritten s n v u ∧ Issues i s .K 0 [] { st := u.putRegs (u.regs.setX d.toNat old) }))) ∧
  (
  ∀ (s : State) (n level : Nat) (cl : Cl) (v : W64), level < 2 →
    let t := s.writeLoop n cl level v
    let start := (v.extractLsb' 32 15).toNat * 4
    let last := (v.extractLsb' 47 15).toNat * 4
    let kept := if v.getLsbD 63 && (start % 32 ≠ 4 || last < start) then v &&& 0x3FFFFFFFFFFFFFFF else v &&& 0xBFFFFFFFFFFFFFFF
    (if level = 0 then (t.cluster n cl).loop0 = kept ∧ (t.cluster n cl).loop1 = (s.cluster n cl).loop1
      else (t.cluster n cl).loop1 = kept ∧ (t.cluster n cl).loop0 = (s.cluster n cl).loop0) ∧
    (∀ m, m ≠ n → t.core m = s.core m) ∧ (t.core n).regs = (s.core n).regs ∧ t.mem = s.mem) ∧
  (
  ∀ (s : State) (d a : BitVec 5) (q : Nat) (ps : List Piece), q < 16 →
    let r : BitVec 12 := BitVec.ofNat 12 (0x120 + q)
    let x := s.cc.queue q
    ∀ i w, (i = .csrw d a r ∧ w = xr s a) ∨ (i = .csrs d a r ∧ w = x.cfg ||| xr s a) ∨ (i = .csrc d a r ∧ w = x.cfg &&& ~~~(xr s a)) →
    let v := w &&& 0x8FF00FFFFFFFFFFF
    let range := ((v.extractLsb' 0 44).toNat * 4096, ((v.extractLsb' 56 4).toNat + 1) * 4096)
    let found := translateRange s s.cc.ctx s.cc.sys.sv (.ring (s.curCore / 4)) anyFmt range.1 range.2
    let written := fun (pages : List Nat) =>
      let u := s.putCore s.curCore (s.cc.putQueue q { x with cfg := v, head := 0, tail := 0, pages := pages })
      Issues i s .K 0 [] { st := u.putRegs (u.regs.setX d.toNat x.cfg) }
    ((x.chip ≠ [] ∨ x.ring ≠ []) → Raises i s .K .queueProtocol (BitVec.ofNat 64 q)) ∧
    (x.chip = [] → x.ring = [] →
      ((q = 13 ∨ q = 14) → Done i s .K (withX s d x.cfg)) ∧
      (q ≠ 13 → q ≠ 14 → v.getLsbD 63 = false → written []) ∧
      (q ≠ 13 → q ≠ 14 → v.getLsbD 63 = true → found = .ok ps → written (ps.map fun p => p.place.pa)) ∧
      (∀ c info, q ≠ 13 → q ≠ 14 → v.getLsbD 63 = true → found = .error (.trap c info) → Raises i s .K c info)))

/-- 09 R257 to R260: a fence completes once K has no lane in flight and, at scope 9, once the network has no packet of the context
unacknowledged; until then it waits. That `fence.acq` too waits for every lane of K in flight is the model's inference (log 72), as NONDET with
TRAPINFO 0 is its choice (log 57). `gen.fence` waits for the lanes before it and for the commands of the next generation, and advances
GEN. `tick` gives FRAME, and raises NONDET in deterministic mode; `tick.wait` waits until FRAME has reached its target. -/
def Obligations.FencesAndTicks : Prop :=
  ∀ (s : State) (d a : BitVec 5) (sc : BitVec 4),
    let quiet := s.cc.k.flights = [] ∧ (sc = 9 → ueQuiet s s.cc.ctx = true)
    (quiet → Done (.fenceAcq sc) s .K s.regs ∧ Done (.fenceRel sc) s .K s.regs ∧ Done (.fenceAr sc) s .K s.regs ∧
      ∃ f : ScFence, f.core = s.curCore ∧ f.scope = sc.toNat ∧
        Issues (.fenceSc sc) s .K 0 [] { st := s.withSys { s.sys with scOrder := s.sys.scOrder ++ [f] } }) ∧
    (¬quiet → Waits (.fenceAcq sc) s ∧ Waits (.fenceRel sc) s ∧ Waits (.fenceAr sc) s ∧ Waits (.fenceSc sc) s) ∧
    (let lanes := s.cc.sys.apart = true ∨ (∀ e ∈ s.cc.l.iq ++ s.cc.s.iq, e.before s = false)
      let free := genBusy s s.curCore (s.cc.csr.gen + 1) = false
      (lanes → free → ∃ t, exec .genFence s = .next t ∧ t.cc.csr = { s.cc.csr with gen := s.cc.csr.gen + 1 } ∧ t.regs = s.regs ∧
        Outside s t ∧ Numbered s t .K) ∧ (¬(lanes ∧ free) → Waits .genFence s)) ∧
    (s.cc.det = true → Raises (.tick d) s .K .nondet 0) ∧
    (s.cc.det = false → Done (.tick d) s .K (withX s d s.sys.frame)) ∧
    ((xr s a).toNat ≤ s.sys.frame.toNat → Done (.tickWait a) s .K s.regs) ∧
    (s.sys.frame.toNat < (xr s a).toNat → Waits (.tickWait a) s)

/-- 15 R407 to R412: the tree instructions. Each of `tree.open`, `tree.seal` and `tree.note` raises ILLEGAL_OP with reason 0x17 in apart
mode, and in a task that is not audited completes with no effect, `tree.seal` writing 0. An audited task's `tree.open` writes a fresh
image header and opens the image; `tree.seal` waits for the leaves of the lanes before it and gives the first 8 bytes of the task's root, or where
its block cannot be read ends the task's context (R413; log 76);
`tree.note` appends to S's tree the leaf of KIND 4 that carries its two registers; `tree.bisect` compares two images. -/
def Obligations.TreeInstructions : Prop :=
  ∀ (s : State) (d a b : BitVec 5) (k : Task) (blk : TreeBlock) (ps : List Piece) (w : W64),
    let apart := BitVec.ofNat 64 (0x17 * 2 ^ 56 + s.cur.addr.toNat)
    let illegal := BitVec.ofNat 64 (0x11 * 2 ^ 56 + s.cur.addr.toNat)
    let va := (xr s a).toNat
    let cap := (xr s b).toNat
    (s.cc.sys.apart = true → Raises (.treeOpen a b) s .K .illegalOp apart ∧ Raises (.treeSeal d) s .K .illegalOp apart ∧
      Raises (.treeNote a b) s .K .illegalOp apart) ∧
    (s.cc.sys.apart = false → s.audited = none → Done (.treeOpen a b) s .K s.regs ∧ Done (.treeSeal d) s .K (withX s d 0) ∧
      Done (.treeNote a b) s .K s.regs) ∧
    (s.cc.sys.apart = false → s.audited = some (k, blk) →
      (va % 4096 ≠ 0 → Raises (.treeOpen a b) s .K .align (BitVec.ofNat 64 (va % 2 ^ 56))) ∧
      (va % 4096 = 0 → (cap = 0 ∨ 2 ^ 20 < cap ∨ blk.image ≠ none) → Raises (.treeOpen a b) s .K .illegalOp illegal) ∧
      (va % 4096 = 0 → 1 ≤ cap → cap ≤ 2 ^ 20 → blk.image = none →
        translateRange s k.ctx s.cc.sys.sv (.store 8) anyFmt va (256 + 96 * cap) = .ok ps →
        ∃ img u, img.va = xr s a ∧ img.cap = cap ∧ img.pages = ps.map (fun p => (p.place.pa, p.place.key)) ∧
          u = (s.withMem (imageWrite s.mem k.ctx img 0 (imageHeader k cap (incompleteAt blk)))).putCc
            (s.cc.putBlock { blk with image := some img, incomplete := BitVec.ofNat 3 (incompleteAt blk) }) ∧
          Issues (.treeOpen a b) s .K 0 [] { st := u, flight := some .sync }) ∧
      (sealReady s blk = false → Waits (.treeSeal d) s) ∧
      (∀ u, sealReady s blk = true → treeBad s blk = some u → exec (.treeSeal d) s = .next (s.poisonMet s.cc.ctx u)) ∧
      (sealReady s blk = true → treeBad s blk = none →
        let u := s.withMem (sealImage s.mem k.ctx blk (blk.rootsBefore s.cur.place))
        Issues (.treeSeal d) s .K 0 [] { st := u.putRegs (u.regs.setX d.toNat
          (BitVec.ofNat 64 (numberOf ((rootsTask (blk.rootsBefore s.cur.place)).take 8)))), flight := some .sync }) ∧
      (let two := bytesOf 8 (xr s a).toNat ++ bytesOf 8 (xr s b).toNat ++ List.replicate 48 0
        let leaf := { taskLeaf s s.curCore .S 4 (s.cluster s.curCore .K).iseq s.cur.word s.cc.sys.sv with param := two }
        Issues (.treeNote a b) s .K 0 [] { st := s.putCc (s.cc.noteLeaf s.cur.place leaf.bytes) })) ∧
    (va % 4096 ≠ 0 → Raises (.treeBisect d a b) s .K .align (BitVec.ofNat 64 (va % 2 ^ 56))) ∧
    (bisect s va cap = .ok w →
      let u := s.cacheAll s.cc.ctx [va, cap]
      Issues (.treeBisect d a b) s .K 0 [] { st := u.putRegs (u.regs.setX d.toNat w), flight := some .sync })

/-! ## What every issue does with queues, cues and numbers (06 R148, R156 to R163; 03 R81) -/

namespace Sys2Proof.Claim
open Sys2Proof Sys2Proof.Machine

/-- A queue that spills nothing now: it is not sluiced, or it has a place on chip and nothing in its ring (06 R161). -/
def onChip (c : Core) (q : Nat) : Prop :=
  (c.queue q).cfg.getLsbD 63 = false ∨ ((c.queue q).chip.length < queueDepth q ∧ (c.queue q).ring = [])

/-- The place in its ring that the next spilled entry of a queue takes holds no error (02 R65). -/
def ringGood (s : State) (n q : Nat) : Prop :=
  s.mem.writeBlocked (s.core n).ctx (((s.core n).queue q).ringPa ((s.core n).queue q).tail) (queueBytes q) = false

end Sys2Proof.Claim

/-- 06 R148, R157, R163; 03 R81; 14 R379: what the issue of a lane does beside its own effect e. It leaves its issue queue and takes its
numbers (not counted in a handler); it is in flight while its access is, and while a push of its own is; each queue it pops loses its head
and each cue FIFO it pops its oldest token; an entry it pushes goes to the tail with the context's tag, a token to the tail of its FIFO;
no register, slot, control register, frame, other queue or FIFO, and no other core changes, and no byte of memory unless a push spills; an
entry spilled into an uncorrectable error of the ring ends the context (02 R65). -/
def Obligations.LaneIssueBookkeeping : Prop :=
  ∀ (n : Nat) (cl : Cl) (cue : Nat) (pops : List Nat) (e : Eff),
    pops.Nodup → e.push.length ≤ 1 → (∀ p ∈ e.push, p.1 < 16 ∧ p.1 ∉ pops) →
    let u := e.st
    let c := u.core n
    let x := c.cluster cl
    let t := finish n cl cue pops e
    let d := t.core n
    let y := d.cluster cl
    d.regs = c.regs ∧ d.csr = c.csr ∧ d.acc = c.acc ∧ d.lease = c.lease ∧ d.leaseFlights = c.leaseFlights ∧ d.cmds = c.cmds ∧
      d.frame0 = c.frame0 ∧ d.frame1 = c.frame1 ∧ d.mem = c.mem ∧
    (∀ m, m ≠ n → t.core m = u.core m) ∧ t.bays = u.bays ∧ t.units = u.units ∧ t.nests = u.nests ∧ t.graphs = u.graphs ∧ t.sys = u.sys ∧
      t.fab = u.fab ∧
    ((∀ p ∈ e.push, onChip c p.1 ∨ ringGood u n p.1) → t.dies = u.dies ∧ t.scopes = u.scopes ∧ t.host = u.host) ∧
    y.iseq = x.iseq + (if c.sys.sv then 0 else 1) ∧ y.flightNo = x.flightNo + 1 ∧ y.skipw = false ∧ (cl ≠ .S → y.iq = x.iq.tail) ∧
    y.flights = x.flights ++ (match e.flight with
      | some k => [{ no := x.flightNo, iseq := x.iseq, kind := k, watch := e.watch }]
      | none => if e.push = [] ∧ cuePushes cl cue = [] then [] else [{ no := x.flightNo, iseq := x.iseq, kind := .sync, watch := e.watch }]) ∧
    (∀ q < 16, (∀ p ∈ e.push, p.1 ≠ q) →
      d.queue q = if q ∈ pops then { c.queue q with chip := (c.queue q).chip.tail } else c.queue q) ∧
    (∀ q v, e.push = [(q, v)] → onChip c q →
      d.queue q = { c.queue q with chip := (c.queue q).chip ++ [{ data := v, tag := c.ctx, src := x.flightNo, fill := e.fill }] } ∧
        t.mem = u.mem) ∧
    (e.push = [] → t.mem = u.mem) ∧
    (∀ f < 4, d.cue f = (if f ∈ cuePops cl cue then (c.cue f).tail else c.cue f) ++
      (if f ∈ cuePushes cl cue ∧ e.fails = false then [x.flightNo] else []))

/-- 09 R245; 06 R156 to R158: `qpush` reserves an entry of a queue of K's with the register's value; `qpop` takes the visible head of a
queue that K consumes. Any other queue raises QUEUE_PROTOCOL with its number in TRAPINFO, and changes nothing; an empty queue, or a full
one, holds the lane, and so does a ring's slice that is asleep.

06 R161; 04 R111, R112: a push to a sluiced queue whose places on chip are taken, or whose ring holds something, goes to the ring's
tail; the entry's bytes are written there, and nothing else of memory changes outside their lines; where that place holds an uncorrectable
error the context ends (02 R65). A push that finds only the ring full, while a place on chip is free for its oldest entry, waits; one past the
quota and the places on chip is no push: the room check answers SLUICE_QUOTA. -/
def Obligations.QueuesPushPopAndSpill : Prop :=
  (
  ∀ (s : State) (d a q : BitVec 5), q.toNat < 16 →
    ((q = 6 ∨ q = 7 ∨ q = 8) → Room s q.toNat →
      exec (.qpush q a) s = .next (finish s.curCore .K 0 [] { st := s, push := [(q.toNat, (xr s a).setWidth 2048)] })) ∧
    ((q = 6 ∨ q = 7 ∨ q = 8) → s.cc.room q.toNat 1 = some false → exec (.qpush q a) s = .next s) ∧
    (∀ b, (q = 6 ∨ q = 7 ∨ q = 8) → s.cc.room q.toNat 1 = some true → (s.cc.queue q.toNat).spills q.toNat = true →
      awake s ((s.cc.queue q.toNat).ringPa (s.cc.queue q.toNat).tail) = .error (.wake b) → exec (.qpush q a) s = .next (s.wakeSlice b)) ∧
    (¬(q = 6 ∨ q = 7 ∨ q = 8) → Raises (.qpush q a) s .K .queueProtocol (BitVec.ofNat 64 q.toNat)) ∧
    (∀ e, (q = 9 ∨ q = 10 ∨ q = 11) → s.cc.headOf q.toNat = some e →
      exec (.qpop d q) s = .next (finish s.curCore .K 0 [q.toNat] { st := s.putRegs (withX s d (e.data.setWidth 64)) })) ∧
    ((q = 9 ∨ q = 10 ∨ q = 11) → s.cc.headOf q.toNat = none → exec (.qpop d q) s = .next s) ∧
    (¬(q = 9 ∨ q = 10 ∨ q = 11) → Raises (.qpop d q) s .K .queueProtocol (BitVec.ofNat 64 q.toNat))) ∧
  (
  ∀ (s : State) (n q : Nat) (e : QEntry), q < 16 →
    let c := s.core n
    let x := c.queue q
    let w := if q ≤ 5 ∨ q = 15 then 256 else 8
    let size := ((x.cfg.extractLsb' 56 4).toNat + 1) * 4096
    let quota := (min (x.cfg.extractLsb' 52 4).toNat (x.cfg.extractLsb' 56 4).toNat + 1) * 4096
    let pa := x.pages.getD (x.tail / 4096) 0 + x.tail % 4096
    let bs := (List.range w).map fun j => e.data.extractLsb' (8 * j) 8
    let t := s.pushQueue n q e
    x.cfg.getLsbD 63 = true → queueDepth q ≤ x.chip.length ∨ x.ring ≠ [] →
      (t.core n).queue q = { x with ring := x.ring ++ [e], tail := (x.tail + w) % size } ∧
      (s.mem.writeBlocked e.tag pa w = false →
        t.mem = s.mem.write e.tag 0 pa bs ∧ (∀ a, lineOf a ∉ linesOf pa w → t.mem.byte a = s.mem.byte a)) ∧
      (s.mem.writeBlocked e.tag pa w = true →
        t.mem = (s.poisonMet e.tag (s.mem.blockedLine e.tag pa w)).mem ∧ t.scopes = (s.poisonMet e.tag (s.mem.blockedLine e.tag pa w)).scopes) ∧
      (∀ r < 16, r ≠ q → (t.core n).queue r = c.queue r) ∧ (t.core n).regs = c.regs ∧
      c.room q 1 = (if (x.ring.length + 1) * w ≤ quota then some true
        else if x.chip.length + x.ring.length + 1 ≤ queueDepth q + quota / w then some false else none))

/-! ## L and S: arithmetic, cues and control (10 R286 to R290) -/

namespace Sys2Proof.Claim
open Sys2Proof Sys2Proof.Machine

/-- G[n] of L and S (10 R262). -/
def gr (s : State) (cl : Cl) (a : BitVec 4) : W64 := s.regs.getG cl a.toNat

def cuesMet (s : State) (cl : Cl) (c : BitVec 4) : Prop := cuesReady s.cc cl c.toNat = .ok ()

/-- The 64-bit queues a cluster pushes by a destination field. -/
def pushable (cl : Cl) (d : Nat) : Prop := (cl = .L ∧ (d = 9 ∨ d = 12)) ∨ (cl = .S ∧ d = 11)

/-- A lane with a destination field (10 R262): the value v to a register, or to a queue the cluster pushes; any other queue raises
QUEUE_PROTOCOL; a full queue, or a cue FIFO that is not ready, holds the lane. -/
def ToDst (i : Instr) (s : State) (cl : Cl) (c : BitVec 4) (d : BitVec 5) (pops : List Nat) (v : W64) : Prop :=
  (16 ≤ d.toNat → cuesMet s cl c →
    Issues i s cl c.toNat pops { st := s.putRegs (s.regs.setG cl (d.toNat - 16) v) }) ∧
  (pushable cl d.toNat → cuesMet s cl c → Room s d.toNat →
    Issues i s cl c.toNat pops { st := s, push := [(d.toNat, v.setWidth 2048)] }) ∧
  (d.toNat < 16 → ¬pushable cl d.toNat → Raises i s cl .queueProtocol (BitVec.ofNat 64 d.toNat)) ∧
  (16 ≤ d.toNat ∨ pushable cl d.toNat → ¬cuesMet s cl c → Waits i s) ∧
  (pushable cl d.toNat → cuesMet s cl c → s.cc.room d.toNat 1 = some false → Waits i s)

/-- An operation with B from a register, or from the queue that K pushes to the cluster. -/
def ArithLane (i : BitVec 1 → Instr) (s : State) (cl : Cl) (c : BitVec 4) (d : BitVec 5) (a b : BitVec 4) (f : W64 → W64 → W64) : Prop :=
  let q := if cl = .L then 6 else 8
  ToDst (i 0) s cl c d [] (f (gr s cl a) (gr s cl b)) ∧
  (∀ e, s.cc.headOf q = some e → ToDst (i 1) s cl c d [q] (f (gr s cl a) (e.data.setWidth 64))) ∧
  (s.cc.headOf q = none → 16 ≤ d.toNat ∨ pushable cl d.toNat → Waits (i 1) s)

/-- A control lane of an apart stream: in joint mode ILLEGAL_OP with reason 0x17; else the state before its issue is u. -/
def StreamLane (i : Instr) (s : State) (cl : Cl) (c : BitVec 4) (u : State → Prop) : Prop :=
  (s.cc.sys.apart = false → Raises i s cl .illegalOp (BitVec.ofNat 64 (0x17 * 2 ^ 56 + s.cur.addr.toNat))) ∧
  (s.cc.sys.apart = true → cuesMet s cl c → ∃ v, u v ∧ v.regs = s.regs ∧ Outside s v ∧ CoreKept s v ∧ v.cc.queues = s.cc.queues ∧
    v.cc.cues = s.cc.cues ∧ Issues i s cl c.toNat [] { st := v }) ∧
  (s.cc.sys.apart = true → ¬cuesMet s cl c → Waits i s)

def loopsKept (s v : State) (cl : Cl) : Prop :=
  (v.cluster s.curCore cl).loop0 = (s.cluster s.curCore cl).loop0 ∧ (v.cluster s.curCore cl).loop1 = (s.cluster s.curCore cl).loop1

/-- The loop lane of L, C or S: as for K, with a level of its own cluster (09 R242). -/
def LoopLane (i : Instr) (s : State) (cl : Cl) (c : BitVec 4) (off : Nat) (reg : W64) : Prop :=
  let x := s.cluster s.curCore cl
  let start := s.cur.addr.toNat / 32 * 32 + 36
  let last := s.cur.addr.toNat + 4 * off
  let count := min reg.toNat (2 ^ 32 - 1)
  let bad := off = 0 ∨ last < start ∨ last % 32 = 0 ∨ (x.loop0.getLsbD 63 ∧ x.loop1.getLsbD 63)
  let word := loopReg (BitVec.ofNat 17 start) (BitVec.ofNat 17 last) (BitVec.ofNat 32 count)
  (s.cc.sys.apart = true → cuesMet s cl c → bad → Raises i s cl .illegalOp (BitVec.ofNat 64 (0x11 * 2 ^ 56 + s.cur.addr.toNat))) ∧
  (s.cc.sys.apart = true → cuesMet s cl c → ¬bad → StreamLane i s cl c fun v =>
    if count = 0 then Steers s v cl (some (laneAfter (BitVec.ofNat 17 last))) ∧ loopsKept s v cl
    else Steers s v cl none ∧ (v.cluster s.curCore cl).loop0 = (if x.loop0.getLsbD 63 then x.loop0 else word) ∧
      (v.cluster s.curCore cl).loop1 = (if x.loop0.getLsbD 63 then word else x.loop1)) ∧
  (s.cc.sys.apart = false → Raises i s cl .illegalOp (BitVec.ofNat 64 (0x17 * 2 ^ 56 + s.cur.addr.toNat)))

end Sys2Proof.Claim

/-- 10 R286: the arithmetic of L and of S.

10 R287 to R289: `la.cmp` pushes its outcome to bq0, waiting while it is full; `cue.test` pops a visible token of the FIFO it names and writes 1,
or writes 0 and pops nothing, and raises NONDET in deterministic mode, with TRAPINFO 0 by the model's choice (log 57); `cue.nop` does what its cue
field says. -/
def Obligations.AccessLanesOnRegisters : Prop :=
  (
  ∀ (s : State) (c : BitVec 4) (d : BitVec 5) (a b : BitVec 4) (i : BitVec 8) (n : BitVec 6),
    ArithLane (fun q => .lAdd c d a b q) s .L c d a b (fun x y => x + y) ∧
    ArithLane (fun q => .lSub c d a b q) s .L c d a b (fun x y => x - y) ∧
    ArithLane (fun q => .lMul c d a b q) s .L c d a b (fun x y => x * y) ∧
    ToDst (.lAddi c d a i) s .L c d [] (gr s .L a + i.signExtend 64) ∧
    ToDst (.lSlli c d a n) s .L c d [] (gr s .L a <<< n.toNat) ∧
    ToDst (.lSrli c d a n) s .L c d [] (gr s .L a >>> n.toNat) ∧
    ArithLane (fun q => .sAdd c d a b q) s .S c d a b (fun x y => x + y) ∧
    ArithLane (fun q => .sSub c d a b q) s .S c d a b (fun x y => x - y) ∧
    ArithLane (fun q => .sMul c d a b q) s .S c d a b (fun x y => x * y) ∧
    ToDst (.sAddi c d a i) s .S c d [] (gr s .S a + i.signExtend 64) ∧
    ToDst (.sSlli c d a n) s .S c d [] (gr s .S a <<< n.toNat) ∧
    ToDst (.sSrli c d a n) s .S c d [] (gr s .S a >>> n.toNat)) ∧
  (
  ∀ (s : State) (c a b : BitVec 4) (k : BitVec 3) (d : BitVec 4),
    (cuesMet s .L c → Room s 13 →
      Issues (.laCmp c a b k) s .L c.toNat [] { st := s, push := [(13, if holds k.toNat (gr s .L a) (gr s .L b) then 1 else 0)] }) ∧
    (cuesMet s .L c → s.cc.room 13 1 = some false → Waits (.laCmp c a b k) s) ∧
    (cuesMet s .L c → Issues (.lCueNop c) s .L c.toNat [] { st := s }) ∧ (¬cuesMet s .L c → Waits (.lCueNop c) s) ∧
    (cuesMet s .S c → Issues (.sCueNop c) s .S c.toNat [] { st := s }) ∧ (¬cuesMet s .S c → Waits (.sCueNop c) s) ∧
    (s.cc.det = true → Raises (.lCueTest d) s .L .nondet 0 ∧ Raises (.sCueTest d) s .S .nondet 0) ∧
    (s.cc.det = false → ∀ i cl f, (i = .lCueTest d ∧ cl = Cl.L ∧ f = 1) ∨ (i = .sCueTest d ∧ cl = Cl.S ∧ f = 2) →
      ∃ t, exec i s = .next t ∧ t.regs = s.regs.setG cl d.toNat (if s.cc.cueVisible f then 1 else 0) ∧
        t.cc.cue f = (if s.cc.cueVisible f then (s.cc.cue f).tail else s.cc.cue f) ∧ (∀ g < 4, g ≠ f → t.cc.cue g = s.cc.cue g) ∧
        t.cc.queues = s.cc.queues ∧ Outside s t ∧ CoreKept s t ∧ Numbered s t cl))

/-- 10 R290; 11 R317; 06 R155: the control lanes of L, C and S, which only an apart stream may hold. No word of C reads as a branch or a loop
whose register field is 16 or more. That a loop of count zero is a transfer is the model's choice (log 104). -/
def Obligations.ApartStreamControl : Prop :=
  ∀ (s : State) (c a b : BitVec 4) (k : BitVec 3) (o : BitVec 10) (p : BitVec 9) (e : BitVec 13) (f : BitVec 11) (g : BitVec 5),
    let goes := fun (cl : Cl) (taken : Bool) (off : LaneAddr) (v : State) =>
      Steers s v cl (if taken then some (s.cur.addr + 4 * off) else none) ∧ loopsKept s v cl
    let ends := fun (cl : Cl) (v : State) => Steers s v cl none ∧ (v.cluster s.curCore cl).joined = true ∧ loopsKept s v cl
    StreamLane (.lBCond c k o a b) s .L c (goes .L (holds k.toNat (gr s .L a) (gr s .L b)) (o.signExtend 17)) ∧
    StreamLane (.sBCond c k o a b) s .S c (goes .S (holds k.toNat (gr s .S a) (gr s .S b)) (o.signExtend 17)) ∧
    (g.toNat < 16 → StreamLane (.cBCond c k p g b) s .C c (goes .C (holds k.toNat (s.regs.getCx g.toNat) (gr s .C b)) (p.signExtend 17))) ∧
    LoopLane (.lLoop c e a) s .L c e.toNat (gr s .L a) ∧
    LoopLane (.sLoop c e a) s .S c e.toNat (gr s .S a) ∧
    (g.toNat < 16 → LoopLane (.cLoop c g f) s .C c f.toNat (s.regs.getCx g.toNat)) ∧
    StreamLane (.lJoin c) s .L c (ends .L) ∧
    StreamLane (.sJoin c) s .S c (ends .S) ∧
    StreamLane (.cJoin c) s .C c (ends .C) ∧
    (16 ≤ g.toNat → (Instr.cBCond c k p g b).wellFormed = false ∧ (Instr.cLoop c g f).wellFormed = false ∧
      ∀ w, decode .C w ≠ .ok (.cBCond c k p g b) ∧ decode .C w ≠ .ok (.cLoop c g f))

/-! ## L and S: loads, stores, atomics (10 R264 to R275) -/

namespace Sys2Proof.Claim
open Sys2Proof Sys2Proof.Machine

/-- Bytes in pages: n bytes at va on a queue path, all checks passed, read as bs from the pages ps. -/
def FetchesRange (s : State) (path : Path) (va n : Nat) (ps : List Piece) (bs : List Byte) : Prop :=
  va % 8 = 0 ∧ translateRange s s.cc.ctx s.cc.sys.sv path anyFmt va n = .ok ps ∧
    watchRead s s.curCore .L agentL [(va, n)] = .ok () ∧ readPieces s s.cc.ctx ps = .ok bs

/-- The base of an element access, and the pages of its elements (10 R265). -/
def Elements (s : State) (cl : Cl) (path : Path) (base : W64) (es : Nat) (vas : List Nat) (reads : Bool) (ps : List Piece) : Prop :=
  baseSize s path base.toNat = .ok es ∧ elemCheck s cl path es base.toNat vas reads = .ok ps

/-- Trunc64(G[base] + SignExtend(off12) × unit). -/
def gVa (s : State) (cl : Cl) (b : BitVec 4) (o : BitVec 12) (unit : W64) : Nat := (gr s cl b + o.signExtend 64 * unit).toNat

/-- Element j's address for a stride, and for an index. -/
def strideVa (base stride : W64) (es j : Nat) : Nat := (base + BitVec.ofNat 64 j * stride * BitVec.ofNat 64 es).toNat

/-- The positions and addresses that an index vector names: 64 INT32 or 128 INT16 indices, a hole naming nothing. -/
def indexVas (it : BitVec 1) (v : Vec) (base : W64) (es : Nat) : List (Nat × Nat) :=
  let w := if it = 1 then 16 else 32
  let m := if it = 1 then 128 else 64
  (List.range (256 / es)).filterMap fun j =>
    let x := v.toNat / 2 ^ (w * j) % 2 ^ w
    if m ≤ j ∨ x = 2 ^ (w - 1) then none
    else some (j, (base + (BitVec.ofNat 64 es) * (if x < 2 ^ (w - 1) then BitVec.ofNat 64 x else BitVec.ofNat 64 x - BitVec.ofNat 64 (2 ^ w))).toNat)

/-- A scalar load of L: the value to a register, or to a queue that L pushes. -/
def LoadLane (i : Instr) (s : State) (c : BitVec 4) (t : BitVec 5) (va : Nat) (v : W64) : Prop :=
  (16 ≤ t.toNat → cuesMet s .L c → Issues i s .L c.toNat []
    { st := (s.cacheAll s.cc.ctx [va]).putRegs (s.regs.setLx (t.toNat - 16) v), flight := some .sync }) ∧
  (t.toNat = 9 ∨ t.toNat = 12 → cuesMet s .L c → Room s t.toNat → Issues i s .L c.toNat []
    { st := s.cacheAll s.cc.ctx [va], push := [(t.toNat, v.setWidth 2048)], flight := some .sync }) ∧
  (t.toNat < 16 → t.toNat ≠ 9 → t.toNat ≠ 12 → Raises i s .L .queueProtocol (BitVec.ofNat 64 t.toNat))

/-- A scalar store of S. -/
def StoreLane (i : Instr) (s : State) (c : BitVec 4) (t : BitVec 5) (va n : Nat) (p : Place) : Prop :=
  let st := fun (v : W64) => (s.withMem (s.mem.write s.cc.ctx p.key p.pa ((List.range n).map fun j => v.extractLsb' (8 * j) 8))).cacheAll s.cc.ctx [va]
  let w := watchWrite s s.curCore .S agentS [(va, n)]
  (16 ≤ t.toNat → cuesMet s .S c → Issues i s .S c.toNat [] { st := st (s.regs.getSx (t.toNat - 16)), flight := some .sync, watch := w }) ∧
  (∀ e, t.toNat = 8 → cuesMet s .S c → s.cc.headOf 8 = some e →
    Issues i s .S c.toNat [8] { st := st (e.data.setWidth 64), flight := some .sync, watch := w }) ∧
  (t.toNat < 16 → t.toNat ≠ 8 → Raises i s .S .queueProtocol (BitVec.ofNat 64 t.toNat))

end Sys2Proof.Claim

/-- 10 R268, R264: `ldq`, and with write-back: 256 or 8 bytes at a multiple of 8 to the queue's tail; the write-back form leaves the
address in the base register; a misaligned address raises ALIGN; another queue QUEUE_PROTOCOL.

10 R265, R269, R270: `ldq.s` and `ldq.g`: one entry of the elements at their strided or indexed addresses, a hole reading nothing and
leaving its bytes zero.

10 R265, R270: in an entry made of elements of es bytes at distinct positions, bytes j × es to j × es + es − 1 hold element j, and
bytes that receive no element are zero. -/
def Obligations.LoadsIntoQueues : Prop :=
  (
  ∀ (s : State) (c : BitVec 4) (t : BitVec 5) (b : BitVec 4) (o : BitVec 12) (ps : List Piece) (bs : List Byte),
    let q := t.toNat
    let g := if q ≤ 3 then 256 else 8
    let va := gVa s .L b o (BitVec.ofNat 64 g)
    let mine := q ≤ 3 ∨ q = 9 ∨ q = 12
    let ready := cuesMet s .L c ∧ Room s q
    let got := (q, BitVec.ofNat 2048 (numberOf bs))
    let u := s.cacheAll s.cc.ctx (ps.map Piece.va)
    (mine → ready → FetchesRange s .qload va g ps bs →
      Issues (.ldq c t b o) s .L c.toNat [] { st := u, push := [got], flight := some .sync } ∧
      Issues (.ldqWb c t b o) s .L c.toNat [] { st := u.putRegs (u.regs.setLx b.toNat (BitVec.ofNat 64 va)), push := [got], flight := some .sync }) ∧
    (mine → ready → va % 8 ≠ 0 → Raises (.ldq c t b o) s .L .align (BitVec.ofNat 64 (va % 2 ^ 56)) ∧
      Raises (.ldqWb c t b o) s .L .align (BitVec.ofNat 64 (va % 2 ^ 56))) ∧
    (q < 16 → ¬mine → Raises (.ldq c t b o) s .L .queueProtocol (BitVec.ofNat 64 q) ∧ Raises (.ldqWb c t b o) s .L .queueProtocol (BitVec.ofNat 64 q))) ∧
  (
  ∀ (s : State) (c : BitVec 4) (d : BitVec 5) (a b : BitVec 4) (it : BitVec 1) (es : Nat) (ps : List Piece) (e : QEntry)
    (got : List (Nat × List Byte)),
    let q := d.toNat
    let n := (if q ≤ 3 then 256 else 8) / es
    let strided := (List.range n).map fun j => (j, strideVa (gr s .L a) (gr s .L b) es j)
    let named := indexVas it e.data (gr s .L a) es
    let u := s.cacheAll s.cc.ctx (ps.map Piece.va)
    let entry := fun v : Vec => { st := u, push := [(q, v)], flight := some .sync : Eff }
    ((q ≤ 3 ∨ q = 9 ∨ q = 12) → cuesMet s .L c → Room s q →
      Elements s .L .qload (gr s .L a) es (strided.map Prod.snd) true ps → readElems s ps strided = .ok got →
      Issues (.ldqS c d a b) s .L c.toNat [] (entry (entryOf es got))) ∧
    (q ≤ 3 → cuesMet s .L c → Room s q → s.cc.headOf 15 = some e →
      Elements s .L .qload (gr s .L a) es (named.map Prod.snd) true ps → readElems s ps named = .ok got →
      Issues (.ldqG c d a it) s .L c.toNat [15] (entry (entryOf es got))) ∧
    (3 < q → q < 16 → Raises (.ldqG c d a it) s .L .queueProtocol (BitVec.ofNat 64 q)) ∧
    (q ≤ 3 → s.cc.headOf 15 = none → Waits (.ldqG c d a it) s)) ∧
  (
  ∀ (es : Nat) (xs : List (Nat × List Byte)), (es = 1 ∨ es = 2 ∨ es = 4) → (xs.map Prod.fst).Nodup →
    (∀ p ∈ xs, p.1 < 256 / es ∧ p.2.length = es) →
    (∀ p ∈ xs, (entryOf es xs).toNat / 2 ^ (8 * es * p.1) % 2 ^ (8 * es) = numberOf p.2) ∧
    (∀ j < 256 / es, j ∉ xs.map Prod.fst → (entryOf es xs).toNat / 2 ^ (8 * es * j) % 2 ^ (8 * es) = 0))

/-- 10 R272, R267: `stq`, and with write-back: the entry's 256 or 8 bytes at a multiple of 8, with a data-only leaf in an audited task.

10 R273: `stq.s` and `stq.x`: the elements of an entry to their strided or indexed addresses in ascending position, so that the
highest of overlapping ones stays; a hole writes nothing.

Every byte outside the lines of the pieces an access stores to reads as before, and likewise outside the lines of its elements. -/
def Obligations.StoresFromQueues : Prop :=
  (
  ∀ (s : State) (c : BitVec 4) (t : BitVec 5) (b : BitVec 4) (o : BitVec 12) (ps : List Piece) (e : QEntry),
    let q := t.toNat
    let g := if q ≤ 5 then 256 else 8
    let va := gVa s .S b o (BitVec.ofNat 64 g)
    let mine := q = 4 ∨ q = 5 ∨ q = 8
    let bs := (List.range g).map fun j => e.data.extractLsb' (8 * j) 8
    let u := (s.withMem (writePieces s.mem s.cc.ctx ps bs)).cacheAll s.cc.ctx (ps.map Piece.va)
    let leaf := fun v : State => v.storeLeaf va (storeGeometry 0 (countOf (firstFmt ps).1 g) g) (firstFmt ps).1 (firstFmt ps).2 bs
    let w := watchWrite s s.curCore .S agentS [(va, g)]
    (mine → cuesMet s .S c → s.cc.headOf q = some e →
      (va % 8 = 0 → translateRange s s.cc.ctx s.cc.sys.sv .qstore anyFmt va g = .ok ps → checkWrite s s.cc.ctx ps = .ok () →
        Issues (.stq c t b o) s .S c.toNat [q] { st := leaf u, flight := some .sync, watch := w } ∧
        Issues (.stqWb c t b o) s .S c.toNat [q]
          { st := leaf (u.putRegs (u.regs.setSx b.toNat (BitVec.ofNat 64 va))), flight := some .sync, watch := w }) ∧
      (va % 8 ≠ 0 → Raises (.stq c t b o) s .S .align (BitVec.ofNat 64 (va % 2 ^ 56)) ∧
        Raises (.stqWb c t b o) s .S .align (BitVec.ofNat 64 (va % 2 ^ 56)))) ∧
    (q < 16 → ¬mine → Raises (.stq c t b o) s .S .queueProtocol (BitVec.ofNat 64 q) ∧ Raises (.stqWb c t b o) s .S .queueProtocol (BitVec.ofNat 64 q)) ∧
    (mine → s.cc.headOf q = none → Waits (.stq c t b o) s ∧ Waits (.stqWb c t b o) s)) ∧
  (
  ∀ (s : State) (c : BitVec 4) (d : BitVec 5) (a b : BitVec 4) (it : BitVec 1) (es : Nat) (ps : List Piece) (e x : QEntry),
    let q := d.toNat
    let n := (if q ≤ 5 then 256 else 8) / es
    let base := gr s .S a
    let strided := (List.range n).map fun j => (j, strideVa base (gr s .S b) es j)
    let named := indexVas it x.data base es
    let done := fun (kind low : Nat) (xs : List (Nat × Nat)) =>
      let u := (s.withMem (writeElems s.cc.ctx ps es e.data s.mem xs)).cacheAll s.cc.ctx (ps.map Piece.va)
      let lowest := (xs.map Prod.snd).foldl min ((xs.map Prod.snd).headD base.toNat)
      ({ st := u.storeLeaf lowest (storeGeometry kind xs.length low) (firstFmt ps).1 (firstFmt ps).2 (xs.flatMap fun y => elemBytes es e.data y.1),
         flight := some .sync, watch := watchWrite s s.curCore .S agentS (xs.map fun y => (y.2, es)) } : Eff)
    let passes := fun (xs : List (Nat × Nat)) => Elements s .S .qstore base es (xs.map Prod.snd) false ps ∧ checkWrite s s.cc.ctx ps = .ok ()
    ((q = 4 ∨ q = 5 ∨ q = 8) → cuesMet s .S c → s.cc.headOf q = some e → passes strided →
      Issues (.stqS c d a b) s .S c.toNat [q] (done 1 (gr s .S b * BitVec.ofNat 64 es).toNat strided)) ∧
    ((q = 4 ∨ q = 5) → cuesMet s .S c → s.cc.headOf q = some e → s.cc.headOf (9 - q) = some x → passes named →
      Issues (.stqX c d a it) s .S c.toNat [q, 9 - q] (done 2 es named)) ∧
    (q < 16 → q ≠ 4 → q ≠ 5 → Raises (.stqX c d a it) s .S .queueProtocol (BitVec.ofNat 64 q))) ∧
  (
  ∀ (m : Memory) (ctx : W16) (ps : List Piece) (bs : List Byte) (es : Nat) (v : Vec) (xs : List (Nat × Nat)) (a : Nat),
    (∀ p ∈ ps, p.len ≠ 0 → lineOf a ∉ linesOf p.place.pa p.len) →
    (writePieces m ctx ps bs).byte a = m.byte a ∧ (writeElems ctx ps es v m xs).byte a = m.byte a)

/-- 10 R271: the scalar loads of L.

10 R274: the scalar stores of S. -/
def Obligations.AccessScalarMemory : Prop :=
  (
  ∀ (s : State) (c : BitVec 4) (t : BitVec 5) (b : BitVec 4) (o : BitVec 12) (p : Place) (bs : List Byte),
    let v := BitVec.ofNat 64 (numberOf bs)
    (Reads s .L (gVa s .L b o 1) 1 p bs → LoadLane (.lLdB c t b o) s c t (gVa s .L b o 1) ((BitVec.ofNat 8 (numberOf bs)).signExtend 64) ∧
      LoadLane (.lLdBu c t b o) s c t (gVa s .L b o 1) v) ∧
    (Reads s .L (gVa s .L b o 2) 2 p bs → LoadLane (.lLdH c t b o) s c t (gVa s .L b o 2) ((BitVec.ofNat 16 (numberOf bs)).signExtend 64) ∧
      LoadLane (.lLdHu c t b o) s c t (gVa s .L b o 2) v) ∧
    (Reads s .L (gVa s .L b o 4) 4 p bs → LoadLane (.lLdW c t b o) s c t (gVa s .L b o 4) ((BitVec.ofNat 32 (numberOf bs)).signExtend 64) ∧
      LoadLane (.lLdWu c t b o) s c t (gVa s .L b o 4) v) ∧
    (Reads s .L (gVa s .L b o 8) 8 p bs → LoadLane (.lLdD c t b o) s c t (gVa s .L b o 8) v)) ∧
  (
  ∀ (s : State) (c : BitVec 4) (t : BitVec 5) (b : BitVec 4) (o : BitVec 12) (p : Place),
    (Writes s (gVa s .S b o 1) 1 p → StoreLane (.sStB c t b o) s c t (gVa s .S b o 1) 1 p) ∧
    (Writes s (gVa s .S b o 2) 2 p → StoreLane (.sStH c t b o) s c t (gVa s .S b o 2) 2 p) ∧
    (Writes s (gVa s .S b o 4) 4 p → StoreLane (.sStW c t b o) s c t (gVa s .S b o 4) 4 p) ∧
    (Writes s (gVa s .S b o 8) 8 p → StoreLane (.sStD c t b o) s c t (gVa s .S b o 8) 8 p))

namespace Sys2Proof.Claim
open Sys2Proof Sys2Proof.Machine

/-- The new value of an atomic of w bits (10 R275), on the old value and the operands, all below 2^w. -/
def amoValue (w aop old v v2 : Nat) : Nat :=
  let less := (BitVec.ofNat w old).sle (BitVec.ofNat w v)
  match aop with
  | 0 => (old + v) % 2 ^ w
  | 1 => if less then old else v
  | 2 => if less then v else old
  | 3 => old &&& v
  | 4 => old ||| v
  | 5 => old ^^^ v
  | 6 => v
  | 7 => if old = v then v2 else old
  | 8 => F32.round ((F32.decode old).add (F32.decode v))
  | _ => F32.round ((F32.decode old).max (F32.decode v))

end Sys2Proof.Claim

/-- 10 R275: `amo`: RAW pages take 8 bytes and operations 0 to 7, INT32 pages 4 bytes and 0 to 7, FP32 pages 4 bytes and 8 and 9; any
other format raises FORMAT with subcode PATH, once the leaf's own format has passed (01 R35). A queue that is not S's to push raises
QUEUE_PROTOCOL. The old value is read and the new one written in one event, and d receives the old one,
sign-extended from an INT32 page. -/
def Obligations.MemorySideAtomics : Prop :=
  ∀ (s : State) (c : BitVec 4) (d : BitVec 5) (a b o : BitVec 4) (p : Place) (bs : List Byte) (n : Nat), o.toNat ≤ 9 →
    let va := (gr s .S a).toNat
    let old := numberOf bs
    let v := (gr s .S b).toNat % 2 ^ (8 * n)
    let v2 := (s.regs.getSx (b.toNat + 1)).toNat % 2 ^ (8 * n)
    let new := bytesOf n (amoValue (8 * n) o.toNat old v v2)
    let got : W64 := if p.fmt = fmtI32 then (BitVec.ofNat 32 old).signExtend 64 else BitVec.ofNat 64 old
    let u := (s.withMem (s.mem.write s.cc.ctx p.key p.pa new)).cacheAll s.cc.ctx [va]
    let w := watchWrite s s.curCore .S agentS [(va, n)]
    let takes := fun f => if o.toNat ≤ 7 then f = fmtRaw || f = fmtI32 else f = fmtF32
    (d.toNat < 16 → d.toNat ≠ 11 → Raises (.amo c d a b o) s .S .queueProtocol (BitVec.ofNat 64 d.toNat)) ∧
    (∀ page, va < 2 ^ 56 → findPage s s.cc.ctx va = .ok page → leafFormat va page.leaf = none → takes (leafFmt page.leaf) = false →
      (16 ≤ d.toNat ∨ (d.toNat = 11 ∧ Room s 11)) → cuesMet s .S c →
      Raises (.amo c d a b o) s .S .format (BitVec.ofNat 64 (0x22 * 2 ^ 56 + va % 2 ^ 56))) ∧
    (translate s s.cc.ctx s.cc.sys.sv .amo (fun f => !takes f) va = .ok p →
    n = (if p.fmt = fmtRaw then 8 else 4) →
    (va % n ≠ 0 → (16 ≤ d.toNat ∨ (d.toNat = 11 ∧ Room s 11)) → cuesMet s .S c →
      Raises (.amo c d a b o) s .S .align (BitVec.ofNat 64 (va % 2 ^ 56))) ∧
    (va % n = 0 → watchRead s s.curCore .S agentS [(va, n)] = .ok () → awake s p.pa = .ok () → s.mem.read s.cc.ctx p.key p.pa n = some bs →
      cuesMet s .S c →
      (16 ≤ d.toNat → Issues (.amo c d a b o) s .S c.toNat []
        { st := u.putRegs (u.regs.setSx (d.toNat - 16) got), flight := some .sync, watch := w }) ∧
      (d.toNat = 11 → Room s 11 → Issues (.amo c d a b o) s .S c.toNat []
        { st := u, push := [(11, got.setWidth 2048)], flight := some .sync, watch := w }) ∧
      (16 ≤ d.toNat ∨ (d.toNat = 11 ∧ Room s 11) → ∃ t, exec (.amo c d a b o) s = .next t ∧
        (16 ≤ d.toNat → t.mem = s.mem.write s.cc.ctx p.key p.pa new ∧ t.regs = s.regs.setSx (d.toNat - 16) got))))

/-! ## L and S: commands, remote operations, groups (10 R276 to R285; 04 R115 to R118; 05 R130 to R135); K: the referee (15 R410) -/

namespace Sys2Proof.Claim
open Sys2Proof Sys2Proof.Machine

/-- Everything outside the core's streams and held leaves. -/
def ButWork (s u : State) : Prop :=
  Outside s u ∧ u.regs = s.regs ∧ u.cc.csr = s.cc.csr ∧ u.cc.acc = s.cc.acc ∧ u.cc.queues = s.cc.queues ∧ u.cc.cues = s.cc.cues ∧
    u.cc.lease = s.cc.lease ∧ u.cc.frame0 = s.cc.frame0 ∧ u.cc.frame1 = s.cc.frame1 ∧ u.cc.cmds = s.cc.cmds

/-- A command lane: with a free place in its stream, a command that `p` describes enters at the stream's end with the next index, and the
lane is in flight until the job ends; without one, or with a cue that is not ready, it waits. -/
def Enters (i : Instr) (s : State) (cl : Cl) (c : BitVec 4) (p : Command → Prop) : Prop :=
  (cuesMet s cl c → (s.cc.stream cl).length < 8 → ∃ u k, p k ∧ k.index = s.cc.streamNext cl ∧ k.cl = cl ∧ k.gen = s.cc.csr.gen ∧
    k.sv = s.cc.sys.sv ∧ k.word = s.cur.word ∧ k.flight = (s.cluster s.curCore cl).flightNo ∧ k.iseq = (s.cluster s.curCore cl).iseq ∧
    k.held = false ∧ u.cc.stream cl = s.cc.stream cl ++ [k] ∧ u.cc.streamNext cl = s.cc.streamNext cl + 1 ∧
    (∀ o, (o = .L ∨ o = .S) → (cl = .L ∨ cl = .S) → o ≠ cl → u.cc.stream o = s.cc.stream o ∧ u.cc.streamNext o = s.cc.streamNext o) ∧
    ButWork s u ∧ Issues i s cl c.toNat [] { st := u, flight := some (.job k.index) }) ∧
  (¬(cuesMet s cl c ∧ (s.cc.stream cl).length < 8) → Waits i s)

/-- A card's eight words from a lane's values (10 R280). -/
def CardIs (s : State) (card : List W64) (kind cls circ words nwr nprd : Nat) (src dst len : W64) : Prop :=
  let pred := if nprd > 0 then 1 else 0
  card.length = 8 ∧
  card[0]? = some (BitVec.ofNat 64 (kind * 2 ^ 60 + cls * 2 ^ 58 + circ * 2 ^ 57 + (words - nwr - pred) * 2 ^ 54 + nwr * 2 ^ 52 + nprd * 2 ^ 49)) ∧
  card[1]? = some src ∧ card[2]? = some dst ∧ card[3]? = some len ∧
  (∀ j, j < words - pred → j < 3 → card[4 + j]? = some (s.cur.cont.getD j 0)) ∧
  (∀ j, words - pred ≤ j → j < 3 → card[4 + j]? = some 0) ∧
  (nprd > 0 → card[7]? = some (s.cur.cont.getD (words - 1) 0))

/-- The flags of `cp`, `cp.2d` and `coll`: WORDS, CLASS, CIRC, NWR, NPRD. -/
def FlaggedCard (s : State) (cl : Cl) (card : List W64) (kind : Nat) (d a l : BitVec 4) (f : BitVec 9) : Prop :=
  CardIs s card kind (f.extractLsb' 5 2).toNat (f.extractLsb' 4 1).toNat (f.extractLsb' 7 2).toNat (f.extractLsb' 2 2).toNat
    (f.extractLsb' 0 2).toNat (gr s cl a) (gr s cl d) (gr s cl l)

end Sys2Proof.Claim

/-- 10 R280 to R285: the command lanes of L and S. Each builds its card from the values it reads at issue, takes the next index of its
stream, and is in flight until its job ends; `cp.pb` and `pb.inv` carry an address, `coll` the member mask of the register after len. -/
def Obligations.CommandLanes : Prop :=
  ∀ (s : State) (c d a l : BitVec 4) (f : BitVec 9) (w : BitVec 1) (fr bk : BitVec 1) (words cls nprd : BitVec 2),
    (let nwr := (f.extractLsb' 2 2).toNat
     nwr + (if (f.extractLsb' 0 2).toNat > 0 then 1 else 0) ≤ (f.extractLsb' 7 2).toNat →
      Enters (.lCp c d a l f) s .L c (fun k => FlaggedCard s .L k.card 0 d a l f ∧ k.pb = none ∧ k.inv = none) ∧
      Enters (.sCp c d a l f) s .S c (fun k => FlaggedCard s .S k.card 0 d a l f ∧ k.pb = none ∧ k.inv = none) ∧
      Enters (.lCp2d c d a l f) s .L c (fun k => FlaggedCard s .L k.card 1 d a l f ∧ k.pb = none ∧ k.inv = none) ∧
      Enters (.sCp2d c d a l f) s .S c (fun k => FlaggedCard s .S k.card 1 d a l f ∧ k.pb = none ∧ k.inv = none) ∧
      (l ≠ 15 →
        Enters (.lColl c d a l f) s .L c (fun k => FlaggedCard s .L k.card 3 d a l f ∧ k.mask = gr s .L (l + 1) ∧ k.pb = none ∧ k.inv = none) ∧
        Enters (.sColl c d a l f) s .S c (fun k => FlaggedCard s .S k.card 3 d a l f ∧ k.mask = gr s .S (l + 1) ∧ k.pb = none ∧ k.inv = none))) ∧
    ((if nprd.toNat > 0 then 1 else 0) ≤ words.toNat →
      Enters (.cpOvl c fr a l words cls bk nprd) s .L c (fun k =>
        CardIs s k.card 2 cls.toNat 0 words.toNat 0 nprd.toNat (gr s .L a) (fr.setWidth 64) (gr s .L l) ∧ k.bank = decide (bk = 1) ∧
          k.pb = none ∧ k.inv = none)) ∧
    Enters (.lCpPb c a) s .L c (fun k => k.pb = some (gr s .L a) ∧ k.inv = none) ∧
    Enters (.sCpPb c a) s .S c (fun k => k.pb = some (gr s .S a) ∧ k.inv = none) ∧
    Enters (.lPbInv c a w) s .L c (fun k => k.inv = some (decide (w = 1), gr s .L a) ∧ k.pb = none) ∧
    Enters (.sPbInv c a w) s .S c (fun k => k.inv = some (decide (w = 1), gr s .S a) ∧ k.pb = none)

/-- 10 R279; 05 R130 to R133: the remote lanes. The urgent class raises PRIV in task mode, a queue of another cluster QUEUE_PROTOCOL, a
misaligned address ALIGN; a table too full for the lane's requests holds it. An access whose parts are all asked for or served
(as the second part says) issues: `rld.q` reserves its entry at once, filled later by the answers of the parts that are away, `rst.q` takes its
source at issue, and the old value of `ramo` goes to d; its operands go with their width's bits alone. PRIV with TRAPINFO 0 is the model's choice
(log 57).

05 R130, R134, R135: what becomes of one part of a remote access. Another package that is up is sent one request, with a fresh tag, at
the part's home address and with the part's bytes, and the request takes an entry of the core's table, with its deadline; one that is not
up fails the part with PEER_GONE; this package's own bytes are read or written at once, under the checks of a home. That a part which fails at
issue leaves its lane issued is the model's inference (log 29). -/
def Obligations.RemoteAccess : Prop :=
  (
  ∀ (s : State) (c : BitVec 4) (d : BitVec 5) (a b : BitVec 4) (k z : BitVec 2) (o : BitVec 4) (ps : List Piece) (x : Asked) (e : QEntry)
    (p : Place) (n : Nat),
    let q := d.toNat
    let kind := fun away : Bool => if away then FlightKind.remote else .sync
    let urgent := k = 2 ∧ s.cc.sys.sv = false
    (urgent → Raises (.rldQ c d a k) s .L .priv 0 ∧ Raises (.rstQ c d a z k) s .S .priv 0 ∧ Raises (.ramo c d a b k o) s .S .priv 0) ∧
    (¬urgent → q < 16 →
      (3 < q → q ≠ 9 → q ≠ 12 → Raises (.rldQ c d a k) s .L .queueProtocol (BitVec.ofNat 64 q)) ∧
      (q ≠ 4 → q ≠ 5 → q ≠ 8 → Raises (.rstQ c d a z k) s .S .queueProtocol (BitVec.ofNat 64 q)) ∧
      (q ≠ 11 → Raises (.ramo c d a b k o) s .S .queueProtocol (BitVec.ofNat 64 q))) ∧
    (let va := (gr s .L a).toNat
     let w := if q ≤ 3 then 256 else 8
     let ask : Ask := { cl := .L, cls := k.toNat, op := 0, va := va, queue := some q }
     ¬urgent → (q ≤ 3 ∨ q = 9 ∨ q = 12) → cuesMet s .L c → Room s q →
      (va % 8 ≠ 0 → Raises (.rldQ c d a k) s .L .align (BitVec.ofNat 64 (va % 2 ^ 56))) ∧
      (accessCheck s .L .rld va w 8 true = .ok ps →
        (awakeParts s (remoteParts s ps) = .ok () → 64 < s.cc.mem.remote.length + entriesFor (remoteParts s ps) → Waits (.rldQ c d a k) s) ∧
        (askAll s ask ps = .ok x → x.fails = false → Issues (.rldQ c d a k) s .L c.toNat []
          { st := x.st, push := [(q, x.value)], flight := some (kind x.away), fill := if x.away then .awaiting else .ready }))) ∧
    (let va := (gr s .S a).toNat
     let w := if q = 4 ∨ q = 5 then 256 else if z = 0 then 8 else if z = 1 then 1 else if z = 2 then 2 else 4
     let geo := storeGeometry 0 (countOf (firstFmt ps).1 w) w
     let done := fun (v : Vec) (pops : List Nat) =>
      let bs := (List.range w).map fun j => v.extractLsb' (8 * j) 8
      askAll s { cl := .S, cls := k.toNat, op := 1, va := va, data := bs } ps = .ok x → x.fails = false →
        Issues (.rstQ c d a z k) s .S c.toNat pops
          { st := if w = 256 then x.st.storeLeaf va geo (firstFmt ps).1 (firstFmt ps).2 bs else x.st,
            flight := some (kind x.away), watch := watchWrite s s.curCore .S agentS [(va, w)] }
     ¬urgent → cuesMet s .S c → accessCheck s .S .rst va w (if w = 256 then 8 else w) false = .ok ps →
      (16 ≤ q → done ((s.regs.getSx (q - 16)).setWidth 2048) []) ∧
      ((q = 4 ∨ q = 5 ∨ q = 8) → s.cc.headOf q = some e → done e.data [q])) ∧
    (let va := (gr s .S a).toNat
     let two := bytesOf 8 ((gr s .S b).toNat % 2 ^ (8 * n)) ++ bytesOf 8 ((s.regs.getSx (b.toNat + 1)).toNat % 2 ^ (8 * n))
     let ask := fun (dest queue : Option Nat) => ({ cl := .S, cls := k.toNat, op := 2, va := va, aop := o.toNat, data := two, fmt := p.fmt,
                                                     dest := dest, queue := queue } : Ask)
     let old := amoResult p.fmt (numberOf (x.got.headD (0, [])).2)
     let w := watchWrite s s.curCore .S agentS [(va, n)]
     ¬urgent → cuesMet s .S c → amoCheck s .ramo va o.toNat = .ok (p, n) → x.fails = false →
      (16 ≤ q → askAll s (ask (some (q - 16)) none) [{ va := va, len := n, place := p }] = .ok x →
        Issues (.ramo c d a b k o) s .S c.toNat []
          { st := if x.away then x.st else x.st.putRegs (x.st.regs.setSx (q - 16) old), flight := some (kind x.away),
            fill := if x.away then .awaiting else .ready, watch := w }) ∧
      (q = 11 → Room s 11 → askAll s (ask none (some 11)) [{ va := va, len := n, place := p }] = .ok x →
        Issues (.ramo c d a b k o) s .S c.toNat []
          { st := x.st, push := [(11, if x.away then 0 else old.setWidth 2048)], flight := some (kind x.away),
            fill := if x.away then .awaiting else .ready, watch := w }))) ∧
  (
  ∀ (q : Ask) (n flight off : Nat) (iseq : BitVec 48) (ctx : W16) (who : Who) (x : Asked) (r : Run), q.op ≤ 2 →
    let s := x.st
    let y := q.part n flight iseq ctx who x (off, r)
    (∀ h, r.home = some h → (podOn s = true ∧ peerWord s h % 4 = 1) →
      ∃ m : RemoteOp, ∃ req : RemoteReq, m.tag = s.fab.tags % 2 ^ 32 ∧ m.home = h ∧ m.off = off ∧ m.len = r.len ∧ m.va.toNat = r.va % 2 ^ 64 ∧
        m.deadline = s.sys.pkgCycle.toNat + max 65536 s.fab.timeout.toNat ∧ m.flight = flight ∧ m.dead = false ∧ m.cl = q.cl ∧
        m.queue = q.queue ∧ m.dest = q.dest ∧
        req.dst = h ∧ req.src = selfPkg s ∧ req.tag = m.tag ∧ req.addr = r.pa ∧ req.len = r.len ∧ req.key = r.key ∧ req.op = q.op ∧
        req.ctx = ctx ∧ req.striped = r.striped ∧ req.cls = q.cls ∧ req.sInc = selfInc s ∧ req.rInc = peerInc s h ∧
        req.data = (if q.op = 0 then [] else if q.op = 1 then (q.data.drop off).take r.len else q.data) ∧
        (y.st.core n).mem.remote = (s.core n).mem.remote ++ [m] ∧ y.st.fab.sent = s.fab.sent ++ [.request req] ∧
        y.st.fab.tags = s.fab.tags + 1 ∧ y.st.mem = s.mem ∧ (y.st.core n).regs = (s.core n).regs ∧
        (∀ k, k ≠ n → y.st.core k = s.core k) ∧ y.away = true ∧ y.bad = x.bad ∧ y.got = x.got ∧ y.poisoned = x.poisoned) ∧
    (∀ h, r.home = some h → ¬(podOn s = true ∧ peerWord s h % 4 = 1) →
      y = { x with bad := x.bad.or (some { cause := .peerGone, info := BitVec.ofNat 64 (h % 64 * 2 ^ 56 + r.va % 2 ^ 56) }) }) ∧
    (r.home = none → homeStatus s r.striped r.pa r.len r.key = 0 →
      (q.op = 0 → ∀ bs, s.mem.read ctx r.key r.pa r.len = some bs → y = { x with got := x.got ++ [(off, bs)] }) ∧
      (q.op = 1 → s.mem.writeBlocked ctx r.pa r.len = false →
        y = { x with st := s.withMem (s.mem.write ctx r.key r.pa ((q.data.drop off).take (min r.len r.len))), got := x.got ++ [(off, [])] })) ∧
    (r.home = none → ∀ st, homeStatus s r.striped r.pa r.len r.key = st → (st = 1 ∨ st = 2) →
      let info : W64 := BitVec.ofNat 64 ((st + 1) * 2 ^ 62 + selfPkg s % 64 * 2 ^ 56 + r.va % 2 ^ 56)
      y.st = s ∧ y.fails = true ∧ y.away = x.away ∧ (x.bad = none → y.bad = some { cause := .fabricError, info := info })))

/-- 10 R276 to R278: the group lanes. A misaligned open raises ALIGN, a length, a group word or a group in use that the rules refuse
PERMISSION with subcode ATOMIC, and slice pages mixed with others PERMISSION with subcode MEMTYPE; else the open goes to the units of its
pages. An update takes its issuer's slot's number, which then goes up, and is on its way; a fifth slot is refused. A close frees the slot
and goes to every unit that holds the group. That set bits above the group word raise PERMISSION, subcode ATOMIC, in an update and a close too, and
the address in TRAPINFO, are the model's (logs 34, 106). -/
def Obligations.GroupLanes : Prop :=
  ∀ (s : State) (c d a b o : BitVec 4) (ps : List Piece) (p : Place) (n : Nat), cuesMet s .S c →
    let w := gr s .S d
    let id : W16 := w.setWidth 16
    let i : Byte := w.extractLsb' 16 8
    let va := (gr s .S a).toNat
    let len := (gr s .S b).toNat
    let atomic := fun v : Nat => BitVec.ofNat 64 (0x13 * 2 ^ 56 + v % 2 ^ 56)
    let x := s.cc.s
    let slots := s.cc.mem.parts
    let mine := fun q : PartSlot => q.group = id ∧ q.issuer = i
    (va % 8 ≠ 0 → Raises (.dgrpOpen c d a b) s .S .align (BitVec.ofNat 64 (va % 2 ^ 56))) ∧
    (va % 8 = 0 → (len % 8 ≠ 0 ∨ len < 8 ∨ 2 ^ 26 < len) → Raises (.dgrpOpen c d a b) s .S .permission (atomic va)) ∧
    (va % 8 = 0 → len % 8 = 0 → 8 ≤ len → len ≤ 2 ^ 26 → w.extractLsb' 24 40 ≠ 0 → Raises (.dgrpOpen c d a b) s .S .permission (atomic va)) ∧
    (va % 8 = 0 → len % 8 = 0 → 8 ≤ len → len ≤ 2 ^ 26 → w.extractLsb' 24 40 = 0 →
      translateRange s s.cc.ctx s.cc.sys.sv .amo groupFmtBad va len = .ok ps →
      let mixed := (∃ u ∈ ps, u.place.mt = 0) ∧ ∃ u ∈ ps, u.place.mt ≠ 0
      (mixed → Raises (.dgrpOpen c d a b) s .S .permission (BitVec.ofNat 64 (0x15 * 2 ^ 56 + va % 2 ^ 56))) ∧
      (¬mixed → (∃ u ∈ s.units, ∃ g ∈ u.2, g.id = id ∧ g.ctx = s.cc.ctx) → Raises (.dgrpOpen c d a b) s .S .permission (atomic va)) ∧
      (¬mixed → ¬(∃ u ∈ s.units, ∃ g ∈ u.2, g.id = id ∧ g.ctx = s.cc.ctx) →
        ∃ u op, u = s.cacheAll s.cc.ctx (ps.map Piece.va) ∧ op.group = id ∧ op.ctx = s.cc.ctx ∧ op.n = i.toNat + 1 ∧ op.dead = false ∧
          op.flight = x.flightNo ∧ op.waiting = op.units ∧ (∀ k, k ∈ op.units ↔ ∃ y ∈ ps, unitOf y.place.pa = k) ∧
          Issues (.dgrpOpen c d a b) s .S c.toNat []
            { st := u.putCc { u.cc with mem := { u.cc.mem with opens := u.cc.mem.opens ++ [op] } }, flight := some .opening })) ∧
    (w.extractLsb' 24 40 ≠ 0 → Raises (.amoG c d a b o) s .S .permission (atomic va) ∧
      ∃ v, Raises (.dgrpClose c d) s .S .permission (atomic v)) ∧
    (w.extractLsb' 24 40 = 0 → amoCheck s .amo va o.toNat = .ok (p, n) →
      ((∀ q ∈ slots, ¬mine q) → 4 ≤ slots.length → Raises (.amoG c d a b o) s .S .permission (atomic va)) ∧
      (∀ num rest, (((∀ q ∈ slots, ¬mine q) ∧ slots.length < 4 ∧ num = 0 ∧ rest = slots ++ [{ group := id, issuer := i, s := 1 }]) ∨
          (∃ q, slots.find? (fun q => q.group = id && q.issuer = i) = some q ∧ num = q.s ∧
            rest = slots.map fun y => if y.group = id && y.issuer = i then { y with s := y.s + 1 } else y)) →
        ∃ u m, u = s.cacheAll s.cc.ctx [va] ∧ m.group = id ∧ m.issuer = i ∧ m.s = num ∧ m.pa = p.pa ∧ m.key = p.key ∧ m.fmt = p.fmt ∧
          m.aop = o.toNat ∧ m.value = gr s .S b ∧ m.unit = unitOf p.pa ∧ m.ctx = s.cc.ctx ∧ m.flight = x.flightNo ∧ m.core = s.curCore ∧
          m.dead = false ∧
          Issues (.amoG c d a b o) s .S c.toNat []
            { st := u.putCc { u.cc with mem := { u.cc.mem with parts := rest, transit := u.cc.mem.transit ++ [m] } }, flight := some .group,
              watch := watchWrite s s.curCore .S agentS [(va, if p.fmt = fmtRaw then 8 else 4)] })) ∧
    (w.extractLsb' 24 40 = 0 →
      let units := (s.units.filter fun u => u.2.any (isGroup id s.cc.ctx)).map Prod.fst
      (units = [] → ∃ v, Raises (.dgrpClose c d) s .S .permission (atomic v)) ∧
      (units ≠ [] → (∀ u ∈ units, ∃ g, s.groupAt u id s.cc.ctx = some g ∧ i.toNat < g.n ∧ i.toNat ∉ g.closed) →
        ∃ op, op.group = id ∧ op.issuer = i ∧ op.units = units ∧ op.waiting = units ∧ op.dead = false ∧ op.flight = x.flightNo ∧
          Issues (.dgrpClose c d) s .S c.toNat []
            { st := s.putCc { s.cc with mem := { s.cc.mem with parts := slots.filter (fun q => !(q.group = id && q.issuer = i)),
                                                               closes := s.cc.mem.closes ++ [op] } }, flight := some .closing }))

/-- 15 R410: `ref.exec`. Only a supervisor may run it; its records stand at multiples of 64; words 6 and 7 of the witness block are zero. A
data-only leaf gives DATA_ONLY; bytes of another digest give OPERANDS_DIFFER with a bit for each, none for an operand that the leaf marks
absent and that no bytes are supplied for (the model's reading, log 47); else the command is executed again, and the digest of its result
says MATCH or MISMATCH. The verdict goes to xd, and the 64-byte record to its address. Bytes of other packages are asked for first, one
request for each piece that has not been asked for yet. PRIV with TRAPINFO 0 is the model's choice (log 57). -/
def Obligations.RefereeVerdicts : Prop :=
  ∀ (s : State) (d a b : BitVec 5) (wb r ba bb : List Byte) (rs rv : List Run),
    let xa := (xr s a).toNat
    let xb := (xr s b).toNat
    let illegal : W64 := BitVec.ofNat 64 (0x11 * 2 ^ 56 + s.cur.addr.toNat)
    let w := words64 8 wb
    let l := leafAt r
    let record := fun (v diff : Nat) (digest : List Byte) => bytesOf 8 (v + 256 * diff) ++ r.take 8 ++ List.replicate 16 0 ++ digest
    let gives := fun (v diff : Nat) (digest out : List Byte) =>
      let u0 := ((s.refWrite rs out).refWrite rv (record v diff digest)).cacheAll s.cc.ctx
        [xa, xb, wordAt w 0, wordAt w 2, wordAt w 4, wordAt w 5]
      let u := u0.putCc { u0.cc with mem := { u0.cc.mem with refReqs := u0.cc.mem.refReqs.filter RefReq.write } }
      let mine := u.cc.mem.refReqs.any fun x => x.flight = (s.cluster s.curCore .K).flightNo
      Issues (.refExec d a b) s .K 0 [] { st := u.putRegs (u.regs.setX d.toNat (BitVec.ofNat 64 v)),
                                          flight := some (if mine then .remote else .sync) }
    let differs := fun field bs : List Byte => ¬(numberOf field = 0 ∧ bs = []) ∧ blake3 bs ≠ field.drop 16
    (s.cc.sys.sv = false → Raises (.refExec d a b) s .K .priv 0) ∧
    (s.cc.sys.sv = true → xa % 64 ≠ 0 → Raises (.refExec d a b) s .K .align (BitVec.ofNat 64 (xa % 2 ^ 56))) ∧
    (s.cc.sys.sv = true → xa % 64 = 0 → xb % 64 ≠ 0 → Raises (.refExec d a b) s .K .align (BitVec.ofNat 64 (xb % 2 ^ 56))) ∧
    (s.cc.sys.sv = true → xa % 64 = 0 → xb % 64 = 0 → refMissing s xa xb ≠ [] →
      exec (.refExec d a b) s = .next ((refMissing s xa xb).foldl (fun s x => s.refSend x.2 x.1 false []) s)) ∧
    (s.cc.sys.sv = true → xa % 64 = 0 → xb % 64 = 0 → refMissing s xa xb = [] → refRead s xb 64 = .ok wb →
      ((wordAt w 6 ≠ 0 ∨ wordAt w 7 ≠ 0) → Raises (.refExec d a b) s .K .illegalOp illegal) ∧
      (wordAt w 6 = 0 → wordAt w 7 = 0 → wordAt w 4 % 64 = 0 → refRead s xa 256 = .ok r →
        ((l.kind = 0 ∨ 4 < l.kind ∨ reservedSet r = true) → Raises (.refExec d a b) s .K .illegalOp illegal) ∧
        (1 ≤ l.kind → l.kind ≤ 4 → reservedSet r = false → refDest s (wordAt w 4) 64 = .ok rv →
          (l.kind ≠ 1 → refDest s (wordAt w 5) 0 = .ok rs → gives 3 0 (List.replicate 32 0) []) ∧
          (l.kind = 1 → l.decodes = false → Raises (.refExec d a b) s .K .illegalOp illegal) ∧
          (l.kind = 1 → l.decodes = true → refRead s (wordAt w 0) (wordAt w 1) = .ok ba → refRead s (wordAt w 2) (wordAt w 3) = .ok bb →
            (∀ x y, (x = 1 ∧ differs l.a ba ∨ x = 0 ∧ ¬differs l.a ba) → (y = 2 ∧ differs l.b bb ∨ y = 0 ∧ ¬differs l.b bb) → x + y ≠ 0 →
              refDest s (wordAt w 5) 0 = .ok rs → gives 2 (x + y) (List.replicate 32 0) []) ∧
            (¬differs l.a ba → ¬differs l.b bb → (l.matrix = false ∨ s.cc.lease = .held) →
              let out := execLeaf s.free l ba bb
              let kept := if wordAt w 5 = 0 then [] else out
              refDest s (wordAt w 5) kept.length = .ok rs →
                gives (if blake3 out = l.res then 0 else 1) 0 (blake3 out) kept)))))

/-! ## C: vector, predicate and scalar lanes (11 R292 to R316) -/

namespace Sys2Proof.Claim
open Sys2Proof Sys2Proof.Machine

/-- Element k of width w. -/
def el (w : Nat) (v : Vec) (k : Nat) : Nat := v.toNat / 2 ^ (w * k) % 2 ^ w

/-- The width of an element of a type, and the formats of the float types (11 R292). -/
def wOf (t : Nat) : Nat := if t = 0 ∨ t = 3 then 32 else if t = 5 then 8 else 16
def fmtOf (t : Nat) : FFmt := if t = 0 then F32 else if t = 1 then FBf16 else F16

/-- Two's complement of w bits, both ways. -/
def sx (w x : Nat) : Int := (BitVec.ofNat w x).toInt
def wrap (w : Nat) (x : Int) : Nat := (x % (2 ^ w : Nat)).toNat

/-- No command still to complete writes one of these vector registers (11 R293; 12 R320). -/
def vectorsFree (s : State) (vs : List Nat) : Prop :=
  ∀ m ∈ s.cc.cmds, ∀ v ∈ vs, ¬(m.word.extractLsb' 21 7 = 0x59 ∧ (m.word.extractLsb' 7 5).toNat = v)

/-- A C lane on the register files alone, with p saying what they become; it waits for its cues and for registers still to be written. -/
def CLane (i : Instr) (s : State) (c : BitVec 4) (vs : List Nat) (p : Regs → Prop) : Prop :=
  (cuesMet s .C c → vectorsFree s vs → ∃ r, p r ∧ Issues i s .C c.toNat [] { st := s.putRegs r }) ∧
  (¬(cuesMet s .C c ∧ vectorsFree s vs) → Waits i s)

/-- vd's governed elements become f k; the others keep their values, and every other register too. -/
def Governs (s : State) (d : BitVec 5) (p : BitVec 3) (w : Nat) (f : Nat → Nat) (r : Regs) : Prop :=
  ∃ v, r = s.regs.setV d.toNat v ∧ ∀ k < 2048 / w,
    el w v k = if (s.regs.getP p.toNat).getLsbD (k * w / 32) then f k else el w (s.regs.getV d.toNat) k

/-- pd becomes the bits f j. -/
def Writes64 (s : State) (d : Nat) (f : Nat → Bool) (r : Regs) : Prop := ∃ v : W64, r = s.regs.setP d v ∧ ∀ j < 64, v.getLsbD j = f j

/-- An elementwise operation: floats rounded once, integers modulo 2^w. -/
def elemOp (t : Nat) (ff : FV → FV → FV → FV) (fi : Int → Int → Int → Int) (x y z : Nat) : Nat :=
  if t ≤ 2 then (fmtOf t).round (ff ((fmtOf t).decode x) ((fmtOf t).decode y) ((fmtOf t).decode z))
  else wrap (wOf t) (fi (sx (wOf t) x) (sx (wOf t) y) (sx (wOf t) z))

def vr (s : State) (a : BitVec 5) : Vec := s.regs.getV a.toNat
def pr (s : State) (a : Nat) : W64 := s.regs.getP a

end Sys2Proof.Claim

/-- 11 R296, R297: elementwise arithmetic, logic and shifts of all types, under the governing predicate. -/
def Obligations.VectorArithmetic : Prop :=
  ∀ (s : State) (c : BitVec 4) (d a b : BitVec 5) (p t : BitVec 3), t.toNat ≤ 5 →
    let w := wOf t.toNat
    let two := fun (i : Instr) (ff : FV → FV → FV → FV) (fi : Int → Int → Int → Int) =>
      CLane i s c [d.toNat, a.toNat, b.toNat] (Governs s d p w fun k =>
        elemOp t.toNat ff fi (el w (vr s a) k) (el w (vr s b) k) (el w (vr s d) k))
    let one := fun (i : Instr) (ff : FV → FV) (fi : Int → Int) =>
      CLane i s c [d.toNat, a.toNat] (Governs s d p w fun k =>
        elemOp t.toNat (fun x _ _ => ff x) (fun x _ _ => fi x) (el w (vr s a) k) 0 0)
    let bitwise := fun (i : Instr) (vs : List Nat) (v : Vec) => CLane i s c vs (Governs s d p 32 fun k => el 32 v k)
    let shift := fun (i : Instr) (f : Nat → Nat → Nat) => CLane i s c [d.toNat, a.toNat, b.toNat]
      (Governs s d p w fun k => f (el w (vr s a) k) (el w (vr s b) k % w))
    two (.vadd c d a b p t) (fun x y _ => x.add y) (fun x y _ => x + y) ∧
    two (.vsub c d a b p t) (fun x y _ => x.add y.neg) (fun x y _ => x - y) ∧
    two (.vmul c d a b p t) (fun x y _ => x.mul y) (fun x y _ => x * y) ∧
    two (.vfma c d a b p t) (fun x y z => (x.mul y).add z) (fun x y z => x * y + z) ∧
    two (.vmin c d a b p t) (fun x y _ => x.min y) (fun x y _ => min x y) ∧
    two (.vmax c d a b p t) (fun x y _ => x.max y) (fun x y _ => max x y) ∧
    one (.vabs c d a p t) FV.abs (fun x => if x < 0 then -x else x) ∧
    one (.vneg c d a p t) FV.neg (fun x => -x) ∧
    bitwise (.vand c d a b p t) [d.toNat, a.toNat, b.toNat] (vr s a &&& vr s b) ∧
    bitwise (.vor c d a b p t) [d.toNat, a.toNat, b.toNat] (vr s a ||| vr s b) ∧
    bitwise (.vxor c d a b p t) [d.toNat, a.toNat, b.toNat] (vr s a ^^^ vr s b) ∧
    bitwise (.vnot c d a p t) [d.toNat, a.toNat] (~~~(vr s a)) ∧
    shift (.vshl c d a b p t) (fun x n => x * 2 ^ n % 2 ^ w) ∧
    shift (.vshr c d a b p t) (fun x n => x / 2 ^ n) ∧
    shift (.vsra c d a b p t) (fun x n => wrap w (sx w x / (2 ^ n : Nat)))

namespace Sys2Proof.Claim
open Sys2Proof Sys2Proof.Machine

/-- A conversion of an element (07 R178). -/
def converted (s t x : Nat) : Nat :=
  if s ≤ 2 then
    (if t ≤ 2 then (fmtOf t).round ((fmtOf s).decode x) else wrap (wOf t) (((fmtOf s).decode x).toInt (wOf t)))
  else
    (if t ≤ 2 then (fmtOf t).round (FV.ofInt (sx (wOf s) x))
      else wrap (wOf t) (max (-(2 ^ (wOf t - 1) : Nat)) (min ((2 ^ (wOf t - 1) : Nat) - 1) (sx (wOf s) x))))

/-- The number of lanes of p below lane j. -/
def lanesBelow (p : W64) (j : Nat) : Nat := ((List.range j).filter fun i => p.getLsbD i).length

end Sys2Proof.Claim

/-- 11 R298, R299, R315: compares, whose ungoverned bits are 0; selects, moves and splats; predicate operations, where a write to p0 is
discarded.

11 R303 to R305; 07 R178: conversions, with the part h that widening reads and narrowing writes; quantisation to SB8 and SB4, whose
other bytes stay, and its inverse. -/
def Obligations.VectorComparesMovesConversions : Prop :=
  (
  ∀ (s : State) (c : BitVec 4) (d a b : BitVec 5) (p t e : BitVec 3), t.toNat ≤ 5 →
    let w := wOf t.toNat
    let cmp := fun (i : Instr) (ff : FV → FV → Bool) (fi : Int → Int → Bool) => CLane i s c [a.toNat, b.toNat] (Writes64 s d.toNat fun j =>
      let x := el 32 (vr s a) j
      let y := el 32 (vr s b) j
      (pr s p.toNat).getLsbD j && (if t = 0 then ff (F32.decode x) (F32.decode y) else fi (sx 32 x) (sx 32 y)))
    let same := fun (x y : FV) => !x.isNan && !y.isNan && !x.lt y && !y.lt x
    ((t = 0 ∨ t = 3) →
      cmp (.vcmpEq c d a b p t) same (fun x y => decide (x = y)) ∧
      cmp (.vcmpNe c d a b p t) (fun x y => !same x y) (fun x y => decide (x ≠ y)) ∧
      cmp (.vcmpLt c d a b p t) FV.lt (fun x y => decide (x < y)) ∧
      cmp (.vcmpLe c d a b p t) (fun x y => x.lt y || same x y) (fun x y => decide (x ≤ y))) ∧
    CLane (.vsel c d a b e t) s c [d.toNat, a.toNat, b.toNat] (fun r => ∃ v, r = s.regs.setV d.toNat v ∧
      ∀ j < 64, el 32 v j = if (pr s e.toNat).getLsbD j then el 32 (vr s a) j else el 32 (vr s b) j) ∧
    CLane (.vmov c d a p t) s c [d.toNat, a.toNat] (Governs s d p 32 fun j => el 32 (vr s a) j) ∧
    CLane (.vsplat c d a 0 p t) s c [d.toNat] (Governs s d p w fun _ => (s.regs.getCx a.toNat).toNat % 2 ^ w) ∧
    CLane (.vsplat c d a 1 p t) s c [d.toNat] (Governs s d p 32 fun j => ((s.regs.getCx a.toNat).toNat + j) % 2 ^ 32) ∧
    CLane (.pand c d a b) s c [] (Writes64 s d.toNat fun j => (pr s a.toNat).getLsbD j && (pr s b.toNat).getLsbD j) ∧
    CLane (.por c d a b) s c [] (Writes64 s d.toNat fun j => (pr s a.toNat).getLsbD j || (pr s b.toNat).getLsbD j) ∧
    CLane (.pxor c d a b) s c [] (Writes64 s d.toNat fun j => (pr s a.toNat).getLsbD j != (pr s b.toNat).getLsbD j) ∧
    CLane (.pnot c d a) s c [] (Writes64 s d.toNat fun j => !(pr s a.toNat).getLsbD j) ∧
    (∀ v, s.regs.setP 0 v = s.regs) ∧ pr s 0 = BitVec.allOnes 64) ∧
  (
  ∀ (s : State) (c : BitVec 4) (d a : BitVec 5) (x p t k : BitVec 3) (h g : BitVec 2) (sb : BitVec 1), x.toNat ≤ 5 → t.toNat ≤ 5 →
    let ns := 2048 / wOf x.toNat
    let nt := 2048 / wOf t.toNat
    let from_ := fun j => converted x.toNat t.toNat (el (wOf x.toNat) (vr s a) j)
    let block := 16 * 2 ^ g.toNat
    let n := 64 / block
    let part := k.toNat
    let qb := if sb = 1 then 4 else 8
    let scale := fun (v : Vec) (j : Nat) => sbScale (if sb = 1 then 7 else 127) ((List.range block).map fun i => el 32 v (j * block + i))
    let quant := fun j => wrap qb (sbQuant qb (el 32 (vr s a) j) (scale (vr s a) (j / block)))
    (vcvtH x.toNat t.toNat h.toNat = true →
      CLane (.vcvt c d a x h p t) s c [d.toNat, a.toNat] (Governs s d p (wOf t.toNat) fun j =>
        if ns = nt then from_ j
        else if nt < ns then from_ (h.toNat * nt + j)
        else if h.toNat * ns ≤ j ∧ j < h.toNat * ns + ns then from_ (j - h.toNat * ns)
        else el (wOf t.toNat) (vr s d) j)) ∧
    (g ≠ 3 → d.toNat % 2 = 0 → (sb = 0 → part < 4) → CLane (.vquant c d a sb g k) s c [d.toNat, d.toNat + 1, a.toNat] (fun r =>
      ∃ v u, r = (s.regs.setV d.toNat v).setV (d.toNat + 1) u ∧
        (∀ j < 2048 / qb, el qb v j = if 64 * part ≤ j ∧ j < 64 * part + 64 then quant (j - 64 * part) else el qb (vr s d) j) ∧
        ∀ j < 256, el 8 u j = if part * n ≤ j ∧ j < part * n + n then scale (vr s a) (j - part * n) else el 8 (s.regs.getV (d.toNat + 1)) j)) ∧
    (g ≠ 3 → a.toNat % 2 = 0 → (sb = 0 → part < 4) → CLane (.vdequant c d a sb g k) s c [d.toNat, a.toNat, a.toNat + 1] (fun r =>
      ∃ v, r = s.regs.setV d.toNat v ∧ ∀ j < 64, el 32 v j =
        F32.round (sbValue (sx qb (el qb (vr s a) (64 * part + j))) (el 8 (s.regs.getV (a.toNat + 1)) (part * n + j / block))))))

/-- 11 R306 to R308: reductions, which continue lane 0 over the governed elements in ascending order; permutes; and the partition family,
by the taken lanes (pb and the governing predicate) and the left ones.

11 R310 to R314: the four functions, lane by lane under the governing predicate, with every special case: every NaN result is
0x7FC00000, powers and reciprocals of powers of two are exact where the algorithm is, and infinities and zeros go where the rules say. -/
def Obligations.VectorReductionsAndFunctions : Prop :=
  (
  ∀ (s : State) (c : BitVec 4) (d a b : BitVec 5) (p t : BitVec 3), t.toNat ≤ 5 →
    let w := wOf t.toNat
    let n := 2048 / w
    let x := vr s a
    let g := pr s p.toNat
    let pb := pr s b.toNat
    let red := fun (i : Instr) (ff : FV → FV → FV) (fi : Int → Int → Int) => CLane i s c [d.toNat, a.toNat] (fun r =>
      ∃ v, r = s.regs.setV d.toNat v ∧ (∀ j < 64, j ≠ 0 → el 32 v j = el 32 (vr s d) j) ∧
        el 32 v 0 = (List.range n).foldl (fun acc k =>
          if g.getLsbD (k * w / 32) then
            (if t.toNat ≤ 2 then F32.round (ff (F32.decode acc) ((fmtOf t.toNat).decode (el w x k))) else wrap 32 (fi (sx 32 acc) (sx w (el w x k))))
          else acc) (el 32 (vr s d) 0))
    let perm := fun (i : Instr) (vs : List Nat) (f : Nat → Nat) => CLane i s c vs (Governs s d p w fun k => el w x (f k))
    let lists := fun (v : Vec) (q : W64) (fill : Nat) =>
      (∀ j < 64, q.getLsbD j = true → el 32 v (lanesBelow q j) = el 32 x j) ∧ ∀ j < 64, lanesBelow q 64 ≤ j → el 32 v j = fill
    red (.vredAdd c d a p t) FV.add (fun x y => x + y) ∧
    red (.vredMax c d a p t) FV.max (fun x y => max x y) ∧
    red (.vredMin c d a p t) FV.min (fun x y => min x y) ∧
    perm (.vperm c d a b p t) [d.toNat, a.toNat, b.toNat] (fun k => el w (vr s b) k % n) ∧
    perm (.vrot c d a b p t) [d.toNat, a.toNat] (fun k => (((k : Int) - ((s.regs.getCx b.toNat).toNat % n : Nat)) % (n : Nat)).toNat) ∧
    perm (.vbcast c d a b p t) [d.toNat, a.toNat] (fun _ => (s.regs.getCx b.toNat).toNat % n) ∧
    (d.toNat % 2 = 0 → CLane (.vpart c d a b p) s c [d.toNat, d.toNat + 1, a.toNat] (fun r =>
      ∃ v u, r = (s.regs.setV d.toNat v).setV (d.toNat + 1) u ∧ lists v (pb &&& g) 0x80000000 ∧ lists u (~~~pb &&& g) 0x80000000)) ∧
    CLane (.vcount c d b p) s c [d.toNat] (fun r =>
      ∃ v, r = s.regs.setV d.toNat v ∧ ∀ j < 64, el 32 v j = lanesBelow (pb &&& g) 64) ∧
    CLane (.vcompact c d a b p t) s c [d.toNat, a.toNat] (fun r => ∃ v, r = s.regs.setV d.toNat v ∧ lists v (pb &&& g) 0) ∧
    CLane (.vexpand c d a b p t) s c [d.toNat, a.toNat] (fun r => ∃ v, r = s.regs.setV d.toNat v ∧
      ∀ j < 64, el 32 v j = if (pb &&& g).getLsbD j then el 32 x (lanesBelow (pb &&& g) j) else el 32 (vr s d) j)) ∧
  (
  (∀ (s : State) (c : BitVec 4) (d a : BitVec 5) (p : BitVec 3),
    let lanes := fun (i : Instr) (f : Nat → Nat) => CLane i s c [d.toNat, a.toNat] (Governs s d p 32 fun j => f (el 32 (vr s a) j))
    lanes (.vexp2 c d a p) exp2 ∧ lanes (.vlog2 c d a p) log2 ∧ lanes (.vrcp c d a p) rcp ∧ lanes (.vrsqrt c d a p) rsqrt) ∧
  (∀ x, (F32.decode x).isNan = true → exp2 x = 0x7FC00000 ∧ log2 x = 0x7FC00000 ∧ rcp x = 0x7FC00000 ∧ rsqrt x = 0x7FC00000) ∧
  (∀ x, (F32.decode x).isNan = false → (F32.decode x).lt (.fin false 128 0) = false → exp2 x = 0x7F800000) ∧
  (∀ x, (F32.decode x).isNan = false → (F32.decode x).lt (.fin true 160 0) = true → exp2 x = 0) ∧
  (∀ x, (F32.decode x).lt (.fin false 0 0) = true → log2 x = 0x7FC00000 ∧ rsqrt x = 0x7FC00000) ∧
  log2 0 = 0xFF800000 ∧ log2 0x80000000 = 0xFF800000 ∧ log2 0x7F800000 = 0x7F800000 ∧
  rcp 0 = 0x7F800000 ∧ rcp 0x80000000 = 0xFF800000 ∧ rcp 0x7F800000 = 0 ∧ rcp 0xFF800000 = 0x80000000 ∧
  rsqrt 0 = 0x7F800000 ∧ rsqrt 0x80000000 = 0xFF800000 ∧ rsqrt 0x7F800000 = 0 ∧
  exp2 0x3F000000 = 0x3FB504F3 ∧ log2 0x41000000 = 0x40400000)

/-- 11 R300 to R302, R316; 06 R156, R157: the lanes of C that pop and push queues. A queue that is not C's to pop or push, or of another
width, raises QUEUE_PROTOCOL; an empty or full one holds the lane; `vany` pushes its outcome to bq1; a cx lane pops a queue once however
many fields name it. Of several fields that name a wrong queue the destination is told first (the model's choice, log 107). -/
def Obligations.VectorQueuesAndScalars : Prop :=
  ∀ (s : State) (c : BitVec 4) (d a q : BitVec 5) (p t : BitVec 3) (e : QEntry) (i : BitVec 11) (sh : BitVec 6), t.toNat ≤ 5 →
    let n := q.toNat
    let w := wOf t.toNat
    let inbound := n ≤ 3 ∨ n = 7 ∨ n = 12
    let value := fun k => if n ≤ 3 then el w e.data k else e.data.toNat % 2 ^ w
    let protocol := fun (j : Instr) (x : Nat) => Raises j s .C .queueProtocol (BitVec.ofNat 64 x)
    (n < 16 → ¬inbound → protocol (.vpop c d q p t) n ∧ protocol (.vfmaQs c d a q p t) n) ∧
    (inbound → s.cc.headOf n = none → Waits (.vpop c d q p t) s ∧ Waits (.vfmaQs c d a q p t) s) ∧
    (inbound → s.cc.headOf n = some e → cuesMet s .C c →
      (vectorsFree s [d.toNat] → ∃ r, Governs s d p w value r ∧ Issues (.vpop c d q p t) s .C c.toNat [n] { st := s.putRegs r }) ∧
      (vectorsFree s [d.toNat, a.toNat] → t.toNat ≤ 2 → ∃ r, Governs s d p w (fun k =>
          elemOp t.toNat (fun x y z => (x.mul y).add z) (fun _ _ _ => 0) (el w (vr s a) k) (value k) (el w (vr s d) k)) r ∧
        Issues (.vfmaQs c d a q p t) s .C c.toNat [n] { st := s.putRegs r })) ∧
    (n < 16 → n ≠ 4 → n ≠ 5 → n ≠ 10 → n ≠ 15 → protocol (.vpush c q a) n) ∧
    ((n = 4 ∨ n = 5 ∨ n = 10 ∨ n = 15) → s.cc.room n 1 = some false → Waits (.vpush c q a) s) ∧
    ((n = 4 ∨ n = 5 ∨ n = 10 ∨ n = 15) → Room s n → cuesMet s .C c → vectorsFree s [a.toNat] →
      Issues (.vpush c q a) s .C c.toNat [] { st := s, push := [(n, if n = 10 then ((vr s a).setWidth 64).setWidth 2048 else vr s a)] }) ∧
    (cuesMet s .C c → Room s 14 → Issues (.vany c a p) s .C c.toNat []
      { st := s, push := [(14, if pr s a.toNat &&& pr s p.toNat ≠ 0 then 1 else 0)] }) ∧
    (cuesMet s .C c → s.cc.room 14 1 = some false → Waits (.vany c a p) s) ∧
    (let reg := fun f : BitVec 5 => s.regs.getCx f.toNat
     let lane := fun (j : Instr) (pops : List Nat) (v : W64) =>
      (d.toNat < 16 → Issues j s .C c.toNat pops { st := s.putRegs (s.regs.setCx d.toNat v) }) ∧
      (d.toNat = 26 → Room s 10 → Issues j s .C c.toNat pops { st := s, push := [(10, v.setWidth 2048)] }) ∧
      (d.toNat = 26 → s.cc.room 10 1 = some false → Waits j s)
     let both := fun (x y : BitVec 5) (pops : List Nat) (v u : W64) =>
      lane (.cadd c d x y) pops (v + u) ∧ lane (.csub c d x y) pops (v - u) ∧ lane (.cmul c d x y) pops (v * u)
     let alone := fun (x : BitVec 5) (pops : List Nat) (v : W64) =>
      lane (.caddi c d x i) pops (v + i.signExtend 64) ∧ lane (.cslli c d x sh) pops (v <<< sh.toNat) ∧ lane (.csrli c d x sh) pops (v >>> sh.toNat)
     (cuesMet s .C c → a.toNat < 16 → (n < 16 → both a q [] (reg a) (reg q)) ∧ alone a [] (reg a)) ∧
     (cuesMet s .C c → lane (.cli c d i) [] (i.signExtend 64)) ∧
     ((a.toNat = 23 ∨ a.toNat = 28) → (d.toNat < 16 ∨ d.toNat = 26) → s.cc.headOf (a.toNat - 16) = none →
      Waits (.cadd c d a a) s ∧ Waits (.csub c d a a) s ∧ Waits (.cmul c d a a) s ∧ Waits (.caddi c d a i) s ∧ Waits (.cslli c d a sh) s ∧
        Waits (.csrli c d a sh) s) ∧
     ((a.toNat = 23 ∨ a.toNat = 28) → s.cc.headOf (a.toNat - 16) = some e → cuesMet s .C c →
      let v : W64 := e.data.setWidth 64
      let own := [a.toNat - 16]
      both a a own v v ∧ alone a own v ∧ (n < 16 → both a q own v (reg q) ∧ both q a own (reg q) v) ∧
        (∀ f, a.toNat = 23 → n = 28 → s.cc.headOf 12 = some f → both a q [7, 12] v (f.data.setWidth 64) ∧ both q a [7, 12] (f.data.setWidth 64) v))) ∧
    (16 ≤ d.toNat → d.toNat ≠ 26 → protocol (.cadd c d a q) (d.toNat - 16) ∧ protocol (.cli c d i) (d.toNat - 16)) ∧
    (d.toNat < 16 → 16 ≤ a.toNat → a.toNat ≠ 23 → a.toNat ≠ 28 → ∀ j, (j = .cadd c d a q ∨ j = .csub c d a q ∨ j = .cmul c d a q ∨
      j = .caddi c d a i ∨ j = .cslli c d a sh ∨ j = .csrli c d a sh) → protocol j (a.toNat - 16))

/-! ## C: the array (12 R320 to R337; 06 R165) -/

namespace Sys2Proof.Claim
open Sys2Proof Sys2Proof.Machine

/-- A command issues: the lease is held within its bound, and no release is on its way (12 R320, R322, R323). -/
def arrayReady (s : State) : Prop :=
  (∀ m ∈ s.cc.cmds, m.word.extractLsb' 21 7 ≠ 0x51) ∧ s.cc.lease = .held ∧ (s.bay (s.curCore / 4)).boundHit = false ∧
    (s.bay (s.curCore / 4)).boundCmds < 64 ∧ s.cc.cmds.length < 15

/-- A matrix command is handed to the array with what it read at issue, as p says; the registers become r, and the bound counts it;
memory and slots are as before. -/
def Hands (i : Instr) (s : State) (c : BitVec 4) (r : Regs) (count : Nat) (p : MCmd → Prop) : Prop :=
  ∃ u m, p m ∧ m.word = s.cur.word ∧ m.addr = s.cur.addr ∧ m.sv = s.cc.sys.sv ∧ m.flight = s.cc.c.flightNo ∧ m.iseq = s.cc.c.iseq ∧
    u.cc.cmds = s.cc.cmds ++ [m] ∧ u.regs = r ∧ u.cc.acc = s.cc.acc ∧ u.cc.lease = s.cc.lease ∧ u.mem = s.mem ∧
    (u.bay (s.curCore / 4)).boundCmds = (s.bay (s.curCore / 4)).boundCmds + count ∧
    (∀ n, n ≠ s.curCore → u.core n = s.core n) ∧
    Issues i s .C c.toNat [] { st := u, flight := some .matrix, watch := m.watch }

/-- A command other than `mrel`: without a lease LEASE; pending or lost, it waits. -/
def NeedsLease (i : Instr) (s : State) (c : BitVec 4) : Prop :=
  cuesMet s .C c → (∀ m ∈ s.cc.cmds, m.word.extractLsb' 21 7 ≠ 0x51) →
    (s.cc.lease = .none → Raises i s .C .lease (BitVec.ofNat 64 s.cur.addr.toNat)) ∧
    ((s.cc.lease = .pending ∨ s.cc.lease = .lost) → Waits i s)

/-- A geometry word with its reserved bits zero and a row pitch (12 R327), and the base's next tile. -/
def geomOk (g : W64) : Prop := g.extractLsb' 39 25 = 0 ∧ g.extractLsb' 0 16 ≠ 0
def tileAfter (b g : W64) : W64 := b + 64 * (g.extractLsb' 16 20).signExtend 64

/-- A pair's registers, and the files after its post-increment. -/
def baseOf (s : State) (a : BitVec 3) : W64 := s.regs.getCx (2 * a.toNat)
def geomOf (s : State) (a : BitVec 3) : W64 := s.regs.getCx (2 * a.toNat + 1)
def stepped (s : State) (r : Regs) (inc : Bool) (a : BitVec 3) : Regs :=
  if inc then r.setCx (2 * a.toNat) (tileAfter (baseOf s a) (geomOf s a)) else r

end Sys2Proof.Claim

/-- 12 R320, R321, R323, R325 to R328, R331, R332, R334 to R336: the issue of the matrix commands. Without a lease they raise LEASE; a bad
geometry word, and a row outside 0 to 127, raise ILLEGAL_OP with reason 0x11; a misaligned base raises ALIGN; where every page check
passes, the command is handed over with its rows' places, its bases step, and a shared base steps once. That a pair of operands which do not go
together is told before its blocks' start, and that a row in a page of another format raises FORMAT with subcode PATH, are the model's choice
(log 80). -/
def Obligations.MatrixCommandsIssue : Prop :=
  ∀ (s : State) (c : BitVec 4) (d a b : BitVec 3) (i j u : BitVec 1) (k p r e f : BitVec 3) (df : BitVec 2) (v : BitVec 5) (x y : Rows)
    (pa pb : RowPlan), s.cur.word.extractLsb' 21 7 ≠ 0x51 →
    let bA := baseOf s a
    let gA := geomOf s a
    let bB := baseOf s b
    let gB := geomOf s b
    let kl := 64 * 2 ^ k.toNat
    let rows := fun (pas : List RowPlan) (xs : List Rows) => resolveRows s (matPath s) matFormat agentOperand true pas = .ok xs
    let below := fun (v : Nat) (q : RowPlan) =>
      (∀ va ∈ q.dataVas, va < v → ∃ z, matUnit s (matPath s) matFormat q va = .ok z) ∧
        ∀ va ∈ q.scaleVas, va < v → ∃ z, translateScale s s.cc.ctx s.cc.sys.sv (matPath s) q.known va = .ok z
    let illegal : W64 := BitVec.ofNat 64 (0x11 * 2 ^ 56 + s.cur.addr.toNat)
    let row := s.regs.getCx r.toNat
    (∀ q, q = .mma c d a b i j u k ∨ q = .mmaV c d a b j k f e ∨ q = .mzero c d ∨ q = .macc c d a b ∨ q = .mdrain c d a i df j ∨
      q = .mload c d a i j ∨ q = .mpatch c d r v p i ∨ q = .mpeek c d r v p i → NeedsLease q s c) ∧
    (cuesMet s .C c → arrayReady s →
      (¬geomOk gA → Raises (.mma c d a b i j u k) s .C .illegalOp illegal ∧ Raises (.mdrain c d a i df j) s .C .illegalOp illegal ∧
        Raises (.mload c d a i j) s .C .illegalOp illegal) ∧
      (geomOk gA → bA.toNat % 64 ≠ 0 → Raises (.mload c d a i j) s .C .align (BitVec.ofNat 64 (bA.toNat % 2 ^ 56))) ∧
      (geomOk gA → geomOk gB → bA.toNat % 64 = 0 → bB.toNat % 64 = 0 → pa = planOf s [] bA gA (if u = 1 then 64 else 128) kl →
        pb = (planOf s pa.known bB gB 128 kl).paired pa.fmt →
        (matFormat pa.fmt = true → matFormat pb.fmt = true → isSb pa.fmt ≠ isSb pb.fmt → below bB.toNat pa → below bB.toNat pb →
          Raises (.mma c d a b i j u k) s .C .format (BitVec.ofNat 64 (0x22 * 2 ^ 56 + bB.toNat % 2 ^ 56))) ∧
        (rows [pa, pb] [x, y] →
          Hands (.mma c d a b i j u k) s c (stepped s (stepped s s.regs (i = 1) a) (decide (j = 1) && !(decide (i = 1) && decide (b = a))) b)
            1 (fun m => m.a = some x ∧ m.b = some y ∧ m.watch = none))) ∧
      (geomOk gB → bB.toNat % 64 = 0 → pb = (planOf s [] bB gB 128 kl).paired (vFormat f.toNat) → rows [pb] [y] →
        let names := (List.range (if isSb (vFormat f.toNat) then 9 else 8)).map fun n => 8 * a.toNat + n
        vectorsFree s names →
        Hands (.mmaV c d a b j k f e) s c (stepped s s.regs (j = 1) b) 1 (fun m => m.b = some y ∧ m.regs = names.map s.regs.getV)) ∧
      Hands (.mzero c d) s c s.regs 1 (fun _ => True) ∧
      Hands (.macc c d a b) s c s.regs 1 (fun _ => True) ∧
      (geomOk gA → bA.toNat % 64 = 0 →
        let want := if df = 0 then fmtF32 else if df = 1 then fmtBf16 else fmtSb8
        let n := if df = 0 then 512 else if df = 1 then 256 else 128
        let path : Path := .matDrain (s.curCore / 4)
        let q := planOf s [] bA gA (if j = 1 then 64 else 128) 128
        let pd : RowPlan := { q with bytes := if q.fmt = want then n else 1, geoBad := isSb q.fmt && decide (q.geo = 4) }
        (64 * (gA.extractLsb' 0 16).toNat < n → Raises (.mdrain c d a i df j) s .C .illegalOp illegal) ∧
        (n ≤ 64 * (gA.extractLsb' 0 16).toNat →
          resolveRows s path (fun f => decide (f = want)) agentDrain false [pd] = .ok [x] →
          Hands (.mdrain c d a i df j) s c (stepped s s.regs (i = 1) a) 1 (fun m =>
            m.a = some x ∧ m.watch = watchWrite s s.curCore .C agentDrain pd.ranges)) ∧
        (resolveRows s (matPath s) (fun f => decide (f = fmtF32)) agentOperand true [q] = .ok [x] →
          Hands (.mload c d a i j) s c (stepped s s.regs (i = 1) a) 1 (fun m => m.a = some x))) ∧
      (127 < row.toNat → Raises (.mpatch c d r v p i) s .C .illegalOp illegal ∧ Raises (.mpeek c d r v p i) s .C .illegalOp illegal) ∧
      (row.toNat ≤ 127 →
        (vectorsFree s [v.toNat] → Hands (.mpatch c d r v p i) s c s.regs 1 (fun m =>
          m.row = row.toNat ∧ m.pred = pr s p.toNat ∧ m.regs = [vr s v])) ∧
        Hands (.mpeek c d r v p i) s c s.regs 1 (fun m => m.row = row.toNat ∧ m.pred = pr s p.toNat)))

/-- 12 R322 to R324; 06 R165: the lease. `mlease` on a free array takes it at once, with a fresh bound, and else waits in its turn; held
already, it changes nothing; `mrel` is handed to the array in every state and counts against no bound; `mstat` gives the status word, and
raises NONDET in deterministic mode. A bound is reached at 64 commands or 8,192 cycles; at the next command boundary the lease is kept with
a fresh bound, or passes to a core that waits, and this core's is lost. That a lease command waits behind an `mrel` that is not complete is the
model's inference (log 78); that a lease at its bound moves once every command of its holder is complete (log 87), and NONDET with TRAPINFO 0
(log 57), are its choices. -/
def Obligations.LeaseStates : Prop :=
  (∀ (s : State) (c d : BitVec 4), cuesMet s .C c →
    let y := s.bay (s.curCore / 4)
    let held := s.cc.lease = .held
    let left := 8192 - (s.sys.pkgCycle.toNat - y.boundStart)
    ((∀ m ∈ s.cc.cmds, m.word.extractLsb' 21 7 ≠ 0x51) →
      (held → Issues (.mlease c) s .C c.toNat [] { st := s }) ∧
      (s.cc.lease = .none → (∀ t, s.cc.sys.task = some t → s.dying t.scope = false) → s.cc.leaseFlights = [] → y.holder = none → (∀ n, n / 4 = s.curCore / 4 → (s.core n).lease ≠ .pending ∧ (s.core n).lease ≠ .lost) →
        ∃ u, u.cc.lease = .held ∧ u.regs = s.regs ∧ u.mem = s.mem ∧ (u.bay (s.curCore / 4)).holder = some s.curCore ∧
          (u.bay (s.curCore / 4)).boundCmds = 0 ∧ (u.bay (s.curCore / 4)).boundStart = s.sys.pkgCycle.toNat ∧
          Issues (.mlease c) s .C c.toNat [] { st := u }) ∧
      (s.cc.lease = .none → y.holder ≠ none →
        Issues (.mlease c) s .C c.toNat []
          { st := s.putCc { s.cc with lease := .pending, leaseFlights := s.cc.leaseFlights ++ [s.cc.c.flightNo] }, flight := some .lease }) ∧
      ((s.cc.lease = .pending ∨ s.cc.lease = .lost) →
        Issues (.mlease c) s .C c.toNat []
          { st := s.putCc { s.cc with leaseFlights := s.cc.leaseFlights ++ [s.cc.c.flightNo] }, flight := some .lease }) ∧
      (s.cur.word.extractLsb' 21 7 = 0x51 → Hands (.mrel c) s c s.regs 0 (fun _ => True)) ∧
      (s.cc.lease = .held → ∃ t, exec (.mlease c) s = .next t ∧ t.cc.lease = .held ∧ t.regs = s.regs ∧ t.mem = s.mem) ∧
      (s.cc.lease = .none → y.holder ≠ none → ∃ t, exec (.mlease c) s = .next t ∧ t.cc.lease = .pending ∧ t.regs = s.regs ∧ t.mem = s.mem) ∧
      (∃ t m, exec (.mrel c) s = .next t ∧ t.cc.cmds = s.cc.cmds ++ [m] ∧ m.word = s.cur.word ∧ t.cc.lease = s.cc.lease ∧ t.regs = s.regs ∧ t.mem = s.mem)) ∧
    (s.cc.det = false → ∃ t w, exec (.mstat c d) s = .next t ∧ t.regs = s.regs.setCx d.toNat w ∧ t.mem = s.mem ∧ t.cc.lease = s.cc.lease ∧
      w.extractLsb' 0 2 = (match s.cc.lease with | .none => 0#2 | .pending => 1#2 | .held => 2#2 | .lost => 3#2)) ∧
    (s.cc.det = true → Raises (.mstat c d) s .C .nondet 0) ∧
    (s.cc.det = false → ∃ own < 64, Issues (.mstat c d) s .C c.toNat [] { st := s.putRegs (s.regs.setCx d.toNat (BitVec.ofNat 64
      ((if held then left else 0) * 2 ^ 32 + (if held then 64 - y.boundCmds else 0) * 2 ^ 24 + min s.cc.cmds.length 15 * 2 ^ 20 +
        own * 2 ^ 8 + (match s.cc.lease with | .none => 0 | .pending => 1 | .held => 2 | .lost => 3)))) } ∧
      ∀ k < 6, own / 2 ^ k % 2 = 1 ↔ ∀ r < 128, (Map.get {} s.cc.acc (k * 128 + r)).tag = s.cc.ctx)) ∧
  (∀ (s : State) (b n : Nat),
    let y := s.bay b
    let fresh := fun (u : State) (m : Nat) => (u.bay b).holder = some m ∧ (u.bay b).boundCmds = 0 ∧ (u.bay b).boundHit = false ∧
      (u.bay b).boundStart = s.sys.pkgCycle.toNat ∧ u.mem = s.mem
    (y.holder = some n → y.boundHit = false → (64 ≤ y.boundCmds ∨ 8192 ≤ s.sys.pkgCycle.toNat - y.boundStart) →
      exec (.leaseBoundReached b) s = .next (s.putBay b { y with boundHit := true })) ∧
    (∃ t, exec (.leaseBoundReached b) s = .next t ∧ t.mem = s.mem ∧ ∀ k, t.core k = s.core k) ∧ (∃ t, exec (.leaseRearbitration b) s = .next t) ∧
    (y.boundCmds < 64 → s.sys.pkgCycle.toNat - y.boundStart < 8192 → exec (.leaseBoundReached b) s = .next s) ∧
    (y.holder = some n → y.boundHit = true → (s.core n).cmds = [] →
      (nextRequester s b = none → ∃ t, exec (.leaseRearbitration b) s = .next t ∧ fresh t n ∧ ∀ k, t.core k = s.core k) ∧
      (∀ m, nextRequester s b = some m → m ≠ n → n / 4 = b → (s.core n).lease = .held → y.leaseNext = (n + 1) % 4 →
        (∀ k, ∀ f ∈ (s.core k).c.flights, f.watch = none) → ∃ t, exec (.leaseRearbitration b) s = .next t ∧ (t.core n).lease = .lost ∧
          ∃ w, fresh t w ∧ (t.core w).lease = .held ∧ w ≠ n)))

namespace Sys2Proof.Claim
open Sys2Proof Sys2Proof.Machine

/-- Element (i, j) of a slot as the context reads it (12 R319; 02 R62). -/
def slotAt (c : Core) (ctx : W16) (k i j : Nat) : Nat := (c.accRow ctx k i).data.toNat / 2 ^ (32 * j) % 2 ^ 32

/-- The oldest command m of core n completes: what its effect leaves is u, and then its leaf is ready and its lane complete. -/
def Completes (s : State) (n : Nat) (m : MCmd) (u : State) : Prop :=
  ∃ recs, exec (.matrixCommandComplete n none) s = .next ((u.putCore n ((u.core n).fillLeaf .C m.flight recs)).completeFlight n .C m.flight)

/-- Slot k takes the context's tag in every row, and element (i, j) becomes f i j; every other row of every slot, the registers, and
memory are as before; the command has left the core's list. -/
def Fills (s u : State) (n k : Nat) (rest : List MCmd) (f : Nat → Nat → Nat) : Prop :=
  let c := s.core n
  let d := u.core n
  (∀ i < 128, ∀ j < 128, slotAt d c.ctx k i j = f i j) ∧ (∀ i < 128, (Map.get {} d.acc (k * 128 + i)).tag = c.ctx) ∧
    (∀ r, r / 128 ≠ k → Map.get {} d.acc r = Map.get {} c.acc r) ∧ d.regs = c.regs ∧ d.cmds = rest ∧ d.ctx = c.ctx ∧ u.mem = s.mem

end Sys2Proof.Claim

/-- 12 R320, R328, R330 to R332, R334 to R336: what the array's commands leave when they complete, in issue order. `mzero` gives +0
everywhere, `macc` the rounded sums, `mma` and `mma.v` the chunk sums of their rows and +0 below them, `mload` the rows read with canonical
NaNs, `mpatch` and `mpeek` the half row that the predicate names, `mdrain` the row bytes in place; `mrel` gives the lease back. Bytes that the
command has read already count as they were then (07 R187), the others as they are at its completion (log 61); a cell of the array that has gone
wrong leaves its own value (20 R455).

12 R334; 07 R174, R181: the bytes of a drained row. FP32 keeps the slot's bits; BF16 rounds each element; SB8 gives each block the scale
of its largest magnitude and its elements quantised by it.

12 R330: a disagreement of an understudy command, at a row of its 64 and a sub-block that its k-length has (31, and no channel, on the float
path), gives canonical NaN in every element and raises UNDERSTUDY on C behind it, at once where the command is a handler's own. -/
def Obligations.MatrixEffects : Prop :=
  (
  ∀ (s : State) (n : Nat) (m : MCmd) (rest : List MCmd), (s.core n).cmds = m :: rest → (s.core n).acc.Pairwise (fun a b => a.1 < b.1) →
    (∀ p ∈ slotReads m, ((s.core n).accRow (s.core n).ctx p.1 p.2).poison = false) →
    (m.word.extractLsb' 21 7 ∈ [0x52, 0x53, 0x56, 0x57] → (s.bay (n / 4)).power = .on ∧ (s.bay (n / 4)).target = none) →
    let c := s.core n
    let s0 := s.putCore n { c with cmds := rest }
    let op := m.word.extractLsb' 21 7
    let slot := (m.word.extractLsb' 18 3).toNat
    let ka := (m.word.extractLsb' 15 3).toNat
    let kb := (m.word.extractLsb' 12 3).toNat
    let kl := 64 * 2 ^ (m.word.extractLsb' 6 3).toNat
    let half := (m.word.extractLsb' 3 1).toNat
    let vd := (m.word.extractLsb' 7 5).toNat
    let canon := fun x => if (F32.decode x).isNan then 0x7FC00000 else x
    let cell := fun (i j x : Nat) => match m.wrong with
      | some (r, k, v) => if i = r ∧ j = k then canon v.toNat else x
      | none => x
    (op = 0x54 → ∃ u, Completes s n m u ∧ Fills s u n slot rest fun _ _ => 0) ∧
    (op = 0x55 → ∃ u, Completes s n m u ∧ Fills s u n slot rest fun i j =>
      F32.round ((F32.decode (slotAt c c.ctx ka i j)).add (F32.decode (slotAt c c.ctx kb i j)))) ∧
    (∀ ra rb x y ab bb, op = 0x52 → m.a = some ra → m.b = some rb → readOperand s0 c.ctx m.seen ra kl = .ok (x, ab) →
      readOperand s0 c.ctx m.seen rb kl = .ok (y, bb) → rb.pas.length = 128 →
      ∃ u, Completes s n m u ∧ Fills s u n slot rest fun i j =>
        match x.rows[i]?, y.rows[j]? with
        | some p, some q => cell i j (chunkOf x y kl p q % 2 ^ 32)
        | _, _ => 0) ∧
    (∀ rb y bb, op = 0x53 → m.b = some rb → readOperand s0 c.ctx m.seen rb kl = .ok (y, bb) → rb.pas.length = 128 →
      ∃ u, Completes s n m u ∧ Fills s u n slot rest fun i j =>
        match (vectorOperand m).1.rows[i]?, y.rows[j]? with
        | some p, some q => cell i j (chunkOf (vectorOperand m).1 y kl p q % 2 ^ 32)
        | _, _ => 0) ∧
    (∀ ra data, op = 0x57 → m.a = some ra → readRows s0 c.ctx m.seen 512 ra.pas = .ok data → (∀ bs ∈ data, bs.length = 512) →
      ∃ u, Completes s n m u ∧ Fills s u n slot rest fun i j =>
        match data[i]? with
        | some bs => canon (numberOf ((bs.drop (4 * j)).take 4))
        | none => 0) ∧
    (op = 0x58 → m.row < 128 → m.regs ≠ [] → ∃ u, Completes s n m u ∧
      (∀ j < 128, slotAt (u.core n) c.ctx slot m.row j =
        if j / 64 = half ∧ m.pred.getLsbD (j % 64) then canon (el 32 (m.regs.headD 0) (j % 64)) else slotAt c c.ctx slot m.row j) ∧
      (Map.get {} (u.core n).acc (slot * 128 + m.row)).tag = c.ctx ∧
      (∀ r, r ≠ slot * 128 + m.row → Map.get {} (u.core n).acc r = Map.get {} c.acc r) ∧ (u.core n).regs = c.regs ∧ u.mem = s.mem) ∧
    (op = 0x59 → ∃ u v, Completes s n m u ∧ (u.core n).regs = c.regs.setV vd v ∧ (u.core n).acc = c.acc ∧ u.mem = s.mem ∧
      ∀ j < 64, el 32 v j = if m.pred.getLsbD j then slotAt c c.ctx slot m.row (64 * half + j) else el 32 (c.regs.getV vd) j) ∧
    (op = 0x51 → (∀ k, ∀ f ∈ (s.core k).c.flights, f.watch = none) → ∃ u, Completes s n m u ∧ (u.core n).lease = .none ∧ (u.core n).regs = c.regs ∧ (u.core n).acc = c.acc ∧ u.mem = s.mem) ∧
    (∀ ra, op = 0x56 → m.a = some ra →
      let f := (m.word.extractLsb' 7 2).toNat
      let out := fun i => drainRow f ra.geo (c.accRow c.ctx slot i).data
      let scales := joinBytes (ra.scales.flatten.zip ((List.range ra.pas.length).flatMap fun i => (out i).2))
      (∀ x ∈ scales, s.mem.writeBlocked c.ctx x.1 x.2.length = false) →
      (m.word.extractLsb' 6 1).toNat = 0 ∨ ra.pas.length ≤ 64 → ra.pas.length ≤ 128 →
      ∃ u, Completes s n m u ∧ (u.core n).regs = c.regs ∧ (u.core n).acc = c.acc ∧
        u.mem = writeScales (ra.pas.zipIdx.foldl (fun mem p => writeUnits mem c.ctx p.1 (out p.2).1) s.mem) c.ctx scales)) ∧
  (
  ∀ (r : BitVec 4096) (geo j : Nat), j < 128 →
    let x := fun j => r.toNat / 2 ^ (32 * j) % 2 ^ 32
    let block := 16 * 2 ^ geo
    let scale := fun b => sbScale 127 ((List.range block).map fun i => x (b * block + i))
    (numberOf (((drainRow 0 geo r).1.drop (4 * j)).take 4) = x j ∧ (drainRow 0 geo r).2 = []) ∧
    (numberOf (((drainRow 1 geo r).1.drop (2 * j)).take 2) = FBf16.round (F32.decode (x j)) ∧ (drainRow 1 geo r).2 = []) ∧
    (geo ≤ 3 → (drainRow 2 geo r).1[j]? = some (BitVec.ofInt 8 (sbQuant 8 (x j) (scale (j / block)))) ∧
      (drainRow 2 geo r).2 = (List.range (128 / block)).map fun b => BitVec.ofNat 8 (scale b))) ∧
  (
  ∀ (s : State) (n : Nat) (m : MCmd) (rest : List MCmd) (low : BitVec 15), (s.core n).cmds = m :: rest → m.word.extractLsb' 21 7 = 0x52 →
    m.word.extractLsb' 9 1 = 1 → ∀ a b, m.a = some a → m.b = some b →
    (s.bay (n / 4)).power = .on → (s.bay (n / 4)).target = none → low.toNat % 128 ≤ 63 →
    (isSb a.fmt = true → low.toNat / 128 % 32 < ceilDiv m.kl (min (blockLen a.geo) (blockLen b.geo)) ∧ low.toNat / 4096 ≠ 0) →
    (isSb a.fmt = false → low.toNat / 128 % 32 = 31 ∧ low.toNat / 4096 = 0) →
    let slot := (m.word.extractLsb' 18 3).toNat
    ∃ (u : State) (recs : List (List Byte)) (info : W64), exec (.matrixCommandComplete n (some low)) s =
        .next (let v := (u.putCore n ((u.core n).fillLeaf .C m.flight recs)).completeFlight n .C m.flight
          let t : Trap := { cause := .understudy, info := info, lseq := m.iseq }
          if (s.core n).sys.sv then v.raise n .C t else v.report n .C t) ∧ recs = [] ∧
      (∀ i < 128, ∀ j < 128, slotAt (u.core n) (s.core n).ctx slot i j = 0x7FC00000) ∧ info.toNat % 2 ^ 16 = low.toNat ∧
      (∀ f < 4, m.flight ∉ (u.core n).cue f ∨ cueProducer f ≠ .C) ∧ u.mem = s.mem ∧ (u.core n).regs = (s.core n).regs)

namespace Sys2Proof.Claim
open Sys2Proof Sys2Proof.Machine

/-- Everything but core n. -/
def ButCore (s t : State) (n : Nat) : Prop :=
  t.mem = s.mem ∧ t.bays = s.bays ∧ t.dies = s.dies ∧ t.routers = s.routers ∧ t.units = s.units ∧ t.scopes = s.scopes ∧
    t.nests = s.nests ∧ t.graphs = s.graphs ∧ t.sys = s.sys ∧ t.fab = s.fab ∧ t.host = s.host ∧ t.agenda = s.agenda ∧
    ∀ k, k ≠ n → t.core k = s.core k

/-- A header's kind field of lane i (08 R194), and the cluster of a kind: 1 K, 2 L, 3 C, 4 S. -/
def kindAt (h : W32) (i : Nat) : Nat := h.toNat / 2 ^ (4 * i) % 16
def kindIs (h : W32) (i : Nat) (d : Cl) : Prop := kindAt h i = (match d with | .K => 1 | .L => 2 | .C => 3 | .S => 4)

/-- Word i of the line at base (08 R193), and whether a frame may be executed from (09 R241). -/
def lineWord (c : Core) (base i : Nat) : W32 := Map.get 0 (c.frame (base / 0x10000 % 2)).lanes (base % 0x10000 / 4 + i)
def executable (c : Core) (f : Nat) : Prop := (c.frame f).tag = c.ctx ∧ (c.frame f).empty = false

/-- SYNC line k of a core is met: no cluster holds a lane of an earlier line, and each cluster with a lane in it has its first there at its head
(06 R152). -/
def syncReady (s : State) (n k : Nat) : Prop :=
  ∀ cl, (∀ e ∈ (s.cluster n cl).iq, e.mark = none → k ≤ e.line) ∧
    ((∃ e ∈ (s.cluster n cl).iq, e.mark = none ∧ e.line = k) → ∃ e es, (s.cluster n cl).iq = e :: es ∧ e.mark = none ∧ e.sync = true ∧ e.line = k)

/-- What a lane gives that is run from a state: a lane of S waits for the registers it names (06 R150). -/
def laneGives (s : State) (n : Nat) (cl : Cl) (i : Instr) (e : Entry) (v : State) : Prop :=
  if cl = .S ∧ s.awaits n i = true then v = s else exec i (s.withCur n e) = .next v

end Sys2Proof.Claim

/-- 08 R193 to R196, R200; 09 R241; 06 R149, R151: fetch serves a stream one line at a time. A line whose frame is empty or another
context's, whose header is malformed or which is a pool line, or which is entered at its header, raises at the lane fetch came to; else, with room
for all of its lanes, each cluster takes the lanes of its kind from the entry lane up, in order, and fetch goes on at lane 1 of the line after;
without room nothing moves. The lines told of hold no lane that fetch must look into: no branch, loop end, literal, or continuation. A pool line
entered at lane 0 raises LINE_KIND, and lane 0 of a reserved line kind LANE_KIND: R197 gives no order of these checks, and it is the model's choice
(log 85), as is where fetch then stands (log 105). -/
def Obligations.FetchRoutesALine : Prop :=
  ∀ (s : State) (n : Nat) (cl : Cl),
    let c := s.core n
    let own := if c.sys.apart then cl else .K
    let x := c.cluster own
    let pc := x.fpc.toNat
    let base := pc / 32 * 32
    let hdr := lineWord c base 0
    let first := pc % 32 / 4
    let f := pc / 0x10000
    let here := fun (d : Cl) => (List.range 8).filter fun i => decide (first ≤ i) && decide (clOfKind (kindAt hdr i) = some d)
    let faults := fun (k : Cause) (info : Nat) =>
      x.iq = [] → exec (.fetchLine n cl) s = .next ((s.putCluster n own x).raiseLane n own k (BitVec.ofNat 64 info))
    (canFetch s c own = false → exec (.fetchLine n cl) s = .next s) ∧
    (canFetch s c own = true →
      (¬ executable c f → faults .illegalOp (0x15 * 2 ^ 56 + pc)) ∧
      (executable c f → base % 0x10000 ∈ (c.frame f).pool → faults .lineKind pc) ∧
      (executable c f → base % 0x10000 ∉ (c.frame f).pool →
        (hdr.extractLsb' 0 2 = 1 ∨ hdr.extractLsb' 0 2 = 2 → faults .lineKind pc) ∧
        (hdr.extractLsb' 0 2 = 0 ∨ hdr.extractLsb' 0 2 = 3 → first = 0 → faults .laneKind pc) ∧
        (first ≠ 0 → hdr.extractLsb' 0 2 = 3 ∨ (hdr.extractLsb' 0 2 = 0 ∧ hdr.getLsbD 3 = true) → faults .illegalOp (0x13 * 2 ^ 56 + pc)) ∧
        (hdr.extractLsb' 0 2 = 0 → hdr.getLsbD 3 = false → first ≠ 0 →
          (c.sys.apart = true → hdr.getLsbD 2 = true → faults .illegalOp (0x17 * 2 ^ 56 + pc)) ∧
          (kindAt hdr first > 6 → (c.sys.apart = true → hdr.getLsbD 2 = false) → faults .illegalOp (0x12 * 2 ^ 56 + pc)) ∧
          (x.jumped = true → (kindAt hdr first = 5 ∨ kindAt hdr first = 6) → (c.sys.apart = true → hdr.getLsbD 2 = false) → faults .laneKind pc) ∧
          ((c.sys.apart = true → hdr.getLsbD 2 = false ∧ ∀ i < 8, first ≤ i → ∀ d, kindIs hdr i d → d = own) →
            (∀ i < 8, first ≤ i → kindAt hdr i ≤ 4) →
            (∀ i < 8, first ≤ i → ∀ d, kindIs hdr i d → holdsFetch c.sys.apart d (lineWord c base i).toNat = none ∧
              acCount d (lineWord c base i).toNat = 0 ∧
              (d = .K → (lineWord c base i).extractLsb' 25 7 ≠ 0x14 ∧ (lineWord c base i).extractLsb' 25 7 ≠ 0x29 ∧
                (lineWord c base i).extractLsb' 25 7 ≠ 0x52)) →
            x.loop0.getLsbD 63 = false → x.loop1.getLsbD 63 = false → x.goto = none → (∀ e ∈ c.s.iq, e.mark = none) →
            ((∀ d, here d = [] ∨ ((c.cluster d).iq.filter fun e => e.mark.isNone).length + (here d).length ≤ 16) →
              ∃ t, exec (.fetchLine n cl) s = .next t ∧ ButCore s t n ∧ (t.core n).regs = c.regs ∧ (t.core n).queues = c.queues ∧
                (t.cluster n own).fpc = BitVec.ofNat 17 ((base + 32) % 0x20000 + 4) ∧
                ∀ d, ∃ es, (t.cluster n d).iq = (c.cluster d).iq ++ es ∧ es.map Entry.word = (here d).map (lineWord c base) ∧
                  (es.map fun e => e.addr.toNat) = ((here d).map fun i => base + 4 * i) ∧
                  (es.map Entry.sync) = (List.range (here d).length).map fun k => hdr.getLsbD 2 && decide (k = 0)) ∧
            (∀ d, here d ≠ [] → 16 < ((c.cluster d).iq.filter fun e => e.mark.isNone).length + (here d).length →
              exec (.fetchLine n cl) s = .next s)))))

/-- 06 R152, R171; 14 R374: once no cluster holds an earlier lane and each cluster with a lane in the SYNC line has it at its head, the first lanes of
the line issue in one step, each as it would alone, or none does; a lane that would stop its cluster stops that one alone; none issues while the
core stops. Where one of them cannot issue yet, what it waits for is asked for all the same: a page, or a slice that is not on.

03 R81; 06 R161; 14 R389; 15 R394, R398, R400, R413: the oldest synchronous lane in flight completes, and a match of its writes is raised behind
it; a spilled queue's oldest entry comes back on chip with the bytes its ring holds; a tree's oldest leaf, once ready, takes its number, is hashed,
and goes to the log; where its task's block cannot be read the task's context ends. -/
def Obligations.LinesIssueAndLanesComplete : Prop :=
  (
  (∀ (s : State) (n k : Nat) (a b : Cl) (e1 e2 : Entry) (i1 i2 : Instr),
    s.syncLine n = some k → s.syncHeads n k = [(a, e1), (b, e2)] → (s.core n).sys.stop = none → syncReady s n k → s.clusterRuns n a = true → s.clusterRuns n b = true →
    decode a e1.word.toNat = .ok i1 → decode b e2.word.toNat = .ok i2 →
    ∀ (u1 u2 : State), laneGives s n a i1 e1 u1 → laneGives s n b i2 e2 u2 → i1.cluster = some a → i2.cluster = some b →
      let issued := fun (s u : State) (cl : Cl) => (u.cluster n cl).flightNo ≠ (s.cluster n cl).flightNo
      let stops := fun (u : State) (cl : Cl) => (s.cluster n cl).stopped = none ∧ (u.cluster n cl).stopped ≠ none
      (¬ stops u1 a → ¬ stops u2 b → issued s u1 a → issued s u2 b →
        ∀ (v : State), laneGives u1 n b i2 e2 v → exec (.syncLineIssue n) s = .next v) ∧
      (¬ stops u1 a → ¬ stops u2 b → issued s u1 a → ¬ issued s u2 b → exec (.syncLineIssue n) s = .next u2) ∧
      (¬ stops u1 a → ¬ stops u2 b → ¬ issued s u1 a → ∀ (v : State), laneGives u1 n b i2 e2 v →
        (issued u1 v b → exec (.syncLineIssue n) s = .next u1) ∧ (¬ issued u1 v b → exec (.syncLineIssue n) s = .next v)) ∧
      (stops u1 a → exec (.syncLineIssue n) s = .next u1) ∧
      (¬ stops u1 a → stops u2 b → exec (.syncLineIssue n) s = .next u2)) ∧
  (∀ (s : State) (n k : Nat) (e1 e2 : Entry) (d a b : BitVec 5) (c : BitVec 4), s.syncLine n = some k →
    s.syncHeads n k = [(.K, e1), (.L, e2)] → (s.core n).sys.stop = none → syncReady s n k → s.clusterRuns n .K = true → s.clusterRuns n .L = true →
    decode .K e1.word.toNat = .ok (.add d a b) → decode .L e2.word.toNat = .ok (.lCueNop c) → cuesReady (s.core n) .L c.toNat = .ok () →
    ∃ t, exec (.syncLineIssue n) s = .next t ∧ t.mem = s.mem ∧
      (t.core n).regs = (s.core n).regs.setX d.toNat ((s.core n).regs.getX a.toNat + (s.core n).regs.getX b.toNat) ∧
      (t.cluster n .K).iq = (s.cluster n .K).iq.tail ∧ (t.cluster n .L).iq = (s.cluster n .L).iq.tail) ∧
  (∀ (s : State) (n k : Nat), s.syncLine n = some k → ¬ syncReady s n k ∨ (s.core n).sys.stop ≠ none → exec (.syncLineIssue n) s = .next s) ∧
  (∀ (s : State) (n : Nat), s.syncLine n = none → exec (.syncLineIssue n) s = .next s)) ∧
  (
  (∀ (s : State) (n : Nat) (cl : Cl) (f : Flight) (pre post : List Flight), (s.cluster n cl).flights = pre ++ f :: post → f.kind = .sync →
    (∀ g ∈ pre, g.kind ≠ .sync) → (∀ g ∈ pre ++ post, g.no ≠ f.no) →
    (f.watch = none → ∃ t, exec (.laneComplete n cl) s = .next t ∧ ButCore s t n ∧ (t.cluster n cl).flights = pre ++ post ∧
      (t.core n).regs = (s.core n).regs ∧ (t.core n).queues = (s.core n).queues ∧ (t.core n).csr = (s.core n).csr ∧
      (t.cluster n cl).stopped = (s.cluster n cl).stopped) ∧
    (∀ info hits k, f.watch = some (info, hits) → (s.core n).sys.task = some k → k.area = none → (s.cluster n cl).stopped = none →
      ∃ t, exec (.laneComplete n cl) s = .next t ∧ ButCore s t n ∧ (t.cluster n cl).flights = pre ++ post ∧
        (t.cluster n cl).stopped = some { cause := .watch, info := info, lseq := f.iseq } ∧ (t.core n).csr = (s.core n).csr.watchHit hits)) ∧
  (∀ (s : State) (n q : Nat) (e : QEntry) (rest : List QEntry) (bs : List Byte),
    let c := s.core n
    let x := c.queue q
    let w := if q ≤ 5 ∨ q = 15 then 256 else 8
    let pa := x.pages.getD (x.head / 4096) 0 + x.head % 4096
    x.ring = e :: rest → awake s pa = .ok () → s.mem.read e.tag 0 pa w = some bs → q ≠ 13 → q ≠ 14 →
      (x.chip.length < queueDepth q → exec (.sluiceRefill n q) s = .next (s.putCore n (c.putQueue q
        { x with chip := x.chip ++ [{ e with data := BitVec.ofNat 2048 (ofBytes bs) }], ring := rest, head := (x.head + w) % x.size }))) ∧
      (queueDepth q ≤ x.chip.length → exec (.sluiceRefill n q) s = .next s)) ∧
  (∀ (s : State) (n : Nat) (cl : Cl) (k : Task) (b : TreeBlock) (l : Leaf) (rest : List Leaf) (r : List Byte),
    (s.core n).sys.task = some k → k.block = some b → cl ≠ .K → (b.tree cl).held = l :: rest → b.image = none →
    (∀ u, l.ready = true → l.recs ≠ [] → logRoom s (dieOfCore n) = true → treeBad s b = some u → exec (.leafAppend n cl) s = .next (s.poisonMet (s.core n).ctx u)) ∧
    (l.ready = true → l.recs = [] → ∃ t, exec (.leafAppend n cl) s = .next t ∧ ButCore s t n ∧
      ∃ b1, (t.core n).block = some b1 ∧ (b1.tree cl).held = rest ∧ (b1.tree cl).hashes = (b.tree cl).hashes) ∧
    (l.ready = true → l.recs = [r] → r.length = 256 → logRoom s (dieOfCore n) = true → treeBad s b = none →
      ∃ t b1, exec (.leafAppend n cl) s = .next t ∧ (t.core n).block = some b1 ∧ (b1.tree cl).held = rest ∧
        (b1.tree cl).hashes = (b.tree cl).hashes ++ [blake3 (0x4C :: ((withLseq r (b.tree cl).hashes.length).take 8 ++ List.replicate 8 0 ++ (withLseq r (b.tree cl).hashes.length).drop 16))] ∧
        (b1.tree cl).places = (b.tree cl).places ++ [l.place] ∧ t = ((s.putCore n ((s.core n).putBlock b1)).logAppend (dieOfCore n)
          (withLseq r (b.tree cl).hashes.length))) ∧
    (l.ready = true → l.recs ≠ [] → logRoom s (dieOfCore n) = false → exec (.leafAppend n cl) s = .next s) ∧
    (l.ready = false → l.opened = false → exec (.leafAppend n cl) s = .next s)))

namespace Sys2Proof.Claim
open Sys2Proof Sys2Proof.Machine

/-- The core's task is alive: no kill has reached it and it has not halted. -/
def Alive (s : State) (n : Nat) (t : Task) : Prop := (s.core n).sys.task = some t ∧ s.dying t.scope = false ∧ (s.core n).sys.halting = false

/-- No lease and no request of the core's stands. -/
def NoLease (s : State) (n : Nat) : Prop := (s.core n).lease = .none ∧ (s.core n).leaseFlights = [] ∧ (s.bay (n / 4)).holder ≠ some n

/-- No receive that the task has posted stands. -/
def NoReceives (s : State) (t : Task) : Prop := ∀ e ∈ s.fab.endpoints, ∀ d ∈ e.2.descs, d.recv = false ∨ d.who ≠ t.who

/-- A core with no task: its registers and queues are clear, and nothing of a stop is left. -/
def Vacated (s t : State) (n : Nat) : Prop :=
  let d := t.core n
  d.sys.task = none ∧ d.sys.stop = none ∧ d.sys.sv = false ∧ d.regs = {} ∧ d.queues = Vector.replicate 16 {} ∧ d.cues = Vector.replicate 4 [] ∧
    d.frame0 = (s.core n).frame0 ∧ d.frame1 = (s.core n).frame1 ∧ d.acc = (s.core n).acc ∧ (∀ cl, (d.cluster cl).iq = []) ∧
    d.sys.prefetch = (s.core n).sys.prefetch

end Sys2Proof.Claim

/-- 06 R167; 13 R359: a free core takes the next task of its prefetch buffer, which starts in the state R167 gives: x1 to x4 the task's index, x5 its
argument, x6 its number, x7 its priority level, every other register zero, queues and cues empty, joint mode, a task's mode, fetch at the entry
lane of the frame that holds the overlay. A core that does not hold it loads it first; one whose last task had another context reads its bank as
zero (09 R232).

06 R168; 13 R352; 15 R402, R405: a task that has halted retires once nothing it issued is in flight and its trees hold every leaf. The core is
free, its frames and slots stand, and the task's nest counts it. An audited task's block is free again, and its root is in the log; where the
block cannot be read the task's context ends (15 R413). -/
def Obligations.TasksStartAndRetire : Prop :=
  (
  ∀ (s : State) (n : Nat) (k : Task) (rest : List Task),
    let c := s.core n
    let holds := fun (f : Frame) => f.img = k.ovl ∧ f.len = k.ovlLen ∧ f.tag = k.ctx ∧ f.empty = false ∧ f.loading = 0
    let starts := fun (f : Nat) (t : State) =>
      let d := t.core n
      exec (.taskStart n) s = .next t ∧ ButCore s t n ∧
      (∀ i < 4, d.regs.getX (i + 1) = k.index.getD i 0) ∧ d.regs.getX 5 = k.arg ∧ d.regs.getX 6 = k.tid.setWidth 64 ∧
      d.regs.getX 7 = BitVec.ofNat 64 k.level ∧ (∀ i, 8 ≤ i → d.regs.getX i = 0) ∧ (∀ i, d.regs.getLx i = 0 ∧ d.regs.getSx i = 0 ∧ d.regs.getCx i = 0) ∧
      (∀ i, d.regs.getV i = 0) ∧ (∀ i, i ≠ 0 → d.regs.getP i = 0) ∧ d.queues = Vector.replicate 16 {} ∧ d.cues = Vector.replicate 4 [] ∧
      (∀ cl, (d.cluster cl).iq = [] ∧ (d.cluster cl).iseq = 0 ∧ (d.cluster cl).flights = [] ∧ (d.cluster cl).loop0 = 0 ∧ (d.cluster cl).loop1 = 0 ∧
        (d.cluster cl).stopped = none) ∧
      d.k.fpc = BitVec.ofNat 17 (f * 0x10000 + 4 * k.entry) ∧ d.sys.sv = false ∧ d.sys.apart = false ∧ d.sys.task = some k ∧
      d.sys.prefetch = rest ∧ d.sys.stop = none ∧ d.lease = .none ∧ d.acc = c.acc ∧ d.csr = c.csr ∧ d.mem.weirs = [] ∧ 
      d.mem.bank = (if c.sys.lastCtx = k.ctx then c.mem.bank else []) ∧ d.sys.lastCtx = k.ctx ∧
      d.frame (1 - f) = c.frame (1 - f)
    Unheld s → c.sys.task = none → c.sys.prefetch = k :: rest →
      (s.dying k.scope = true ∨ bayLogicOn s n = false → exec (.taskStart n) s = .next s) ∧
      (s.dying k.scope = false → bayLogicOn s n = true → k.area = none →
        (k.bank = none ∨ (c.sys.lastCtx = k.ctx ∧ c.mem.bankTag = k.ctx ∧ k.bank = some c.mem.bankSrc) →
          (holds c.frame0 → ∃ t, starts 0 t ∧ (t.core n).frame0 = c.frame0) ∧
          (¬ holds c.frame0 → holds c.frame1 → ∃ t, starts 1 t ∧ (t.core n).frame1 = c.frame1)) ∧
        (∀ f, k.bank = none → ¬ holds c.frame0 → ¬ holds c.frame1 → c.sys.lastFrame = 1 - f → f ≤ 1 → (c.frame f).loading = 0 →
          ∀ bs, s.vaRead k.ctx .ovl k.ovl.toNat k.ovlLen = .ok bs →
            ∃ t, starts f t ∧ holds ((t.core n).frame f) ∧
              ∀ i, 4 * i < bs.length → Map.get 0 ((t.core n).frame f).lanes i = BitVec.ofNat 32 (ofBytes ((bs.drop (4 * i)).take 4))))) ∧
  (
  ∀ (s : State) (n : Nat) (k : Task), Unheld s → (s.core n).sys.task = some k → (s.core n).sys.halting = true → s.dying k.scope = false →
    (∀ cl, (s.cluster n cl).flights = []) → NoLease s n → NoReceives s k → (s.core n).debugPending = 0 →
    (k.block = none → k.nest = none → ∃ t, exec (.taskRetire n) s = .next t ∧ ButCore s t n ∧ Vacated s t n) ∧
    (∀ j x, k.block = none → k.nest = some j → Map.find? s.nests j = some x → x.stopped = false → (x.next < x.total ∨ x.requeued ≠ [] ∨ 1 < x.out) →
      ∃ t, exec (.taskRetire n) s = .next t ∧ Vacated s t n ∧ t.mem = s.mem ∧ t.graphs = s.graphs ∧ (∀ m, m ≠ n → t.core m = s.core m) ∧
        Map.find? t.nests j = some { x with out := x.out - 1, retired := x.retired + 1 }) ∧
    (∀ b, k.block = some b → b.image = none → k.node = none → k.nest = none → b.die = n / 288 →
      ((b.l.held ≠ [] ∨ b.c.held ≠ [] ∨ b.s.held ≠ []) → exec (.taskRetire n) s = .next s) ∧
      (∀ u, b.drained = true → logRoom s b.die = true → treeBad s b = some u → exec (.taskRetire n) s = .next (s.poisonMet k.ctx u)) ∧
      (b.drained = true → treeBad s b = none → ∀ base cap key, logRing s (s.die b.die) = some (base, cap, key) → logRoom s b.die = true →
        ∃ t, exec (.taskRetire n) s = .next t ∧ Vacated s t n ∧ b.block ∉ (t.die b.die).erxUsed ∧
          (t.die b.die).erxHead = (s.die b.die).erxHead + 1 ∧
          t.mem = s.mem.rawWrite key (base + 256 * ((s.die b.die).erxHead.toNat % cap)) (taskRootRecord s n k b))))

/-- 14 R374 to R379: a stop begins with its clusters' drain. Once the core has drained, its cut goes to the lowest free area, and the core enters its
handler: supervisor mode, joint stream, registers and queues clear, TRAPCAUSE and TRAPINFO saying what stopped it, CUT_K to CUT_S naming the sections,
and K at lane 1 of the frame that does not hold K's lane; the handler's image goes there first where the frame does not hold it. GEN, the slots and
the issue counts stand.

13 R368; 14 R374, R391; 17 R437: a task that has run RUN × 65,536 cycles, or that has not retired CYCLES after its graph's park began, or that the
host asks to stop once the package has started (17 R439), has a stop requested of its core; while a handler runs or another stop is in progress the
request is held. -/
def Obligations.StopsAndLimits : Prop :=
  (
  (∀ (s : State) (n : Nat) (k : Task) (st : Stop), Alive s n k → (s.core n).sys.stop = some st → st.phase = .requested →
    exec (.coreStop n) s = .next (s.putCore n { s.core n with sys := { (s.core n).sys with stop := some { st with phase := .draining } } })) ∧
  (∀ (s : State) (n i : Nat) (k : Task) (st : Stop) (cl : Cl) (tr : Trap) (loaded : Bool),
    let c := s.core n
    let die := n / 288
    let d := s.die die
    let base := areaBase d i
    let h := 1 - (match c.k.stopped.bind Trap.next, c.k.iq with
      | some a, _ => a.toNat
      | none, e :: _ => e.addr.toNat
      | none, [] => c.k.fpc.toNat) / 0x10000
    let handlerBase := c.csr.tvec.extractLsb' 0 56
    let len := (c.csr.tvec.extractLsb' 56 8).toNat
    let num := fun (x : Cl) => match x with | .K => 0 | .L => 1 | .C => 2 | .S => 3
    Unheld s → Alive s n k → c.sys.stop = some st → st.phase = .drained → st.why = .trap → st.first = some cl → (c.cluster cl).stopped = some tr → c.sys.sv = false →
    lowestFree d.cutUsed (poolCount d.cutPool) = some i → 1 ≤ len → len ≤ 128 →
    (loaded = true ↔ (c.frame h).img = handlerBase.setWidth 64 ∧ (c.frame h).tag = k.ctx ∧ (c.frame h).empty = false ∧ (c.frame h).loading = 0) →
    ∃ t, exec (.cutWrite n) s = .next t ∧
      let e := t.core n
      t.mem = writeArea s.mem (areaKey d) base c false ∧ i ∈ (t.die die).cutUsed ∧ (∀ m, m ≠ n → t.core m = s.core m) ∧ t.bays = s.bays ∧
      e.sys.sv = true ∧ e.sys.apart = false ∧ e.regs = {} ∧ e.queues = Vector.replicate 16 {} ∧ e.cues = Vector.replicate 4 [] ∧
      e.csr.trapcause = BitVec.ofNat 64 (num cl * 2 ^ 12 + ((List.map (fun x => if (c.cluster x).stopped = none then 0 else 2 ^ (8 + num x)) [.K, .L, .C, .S]).sum) + tr.cause.code) ∧
      e.csr.trapinfo = tr.info ∧ e.csr.gen = c.csr.gen ∧ e.csr.weirStale = c.csr.weirStale ∧ e.csr.tvec = c.csr.tvec ∧
      e.csr.cut = #v[BitVec.ofNat 64 (2 ^ 63 + base), BitVec.ofNat 64 (2 ^ 63 + base + 0x1000), BitVec.ofNat 64 (2 ^ 63 + base + 0x6000),
        BitVec.ofNat 64 (2 ^ 63 + base + 0x5000)] ∧
      e.k.fpc = BitVec.ofNat 17 (h * 0x10000 + 4) ∧ (∀ x, (e.cluster x).iq = [] ∧ (e.cluster x).stopped = none ∧ (e.cluster x).iseq = (c.cluster x).iseq) ∧
      e.acc = c.acc ∧ e.lease = c.lease ∧ e.frame (1 - h) = c.frame (1 - h) ∧
      (loaded = true → e.sys.stop = none ∧ e.frame h = c.frame h) ∧
      (loaded = false → (∃ st1, e.sys.stop = some st1 ∧ st1.phase = .loading) ∧ (e.frame h).loading = (c.frame h).loading + 1 ∧
        (e.frame h).img = handlerBase.setWidth 64 ∧ (e.frame h).len = len * 512)) ∧
  (∀ (s : State) (n : Nat) (k : Task) (st : Stop) (bs : List Byte), Unheld s → Alive s n k → (s.core n).sys.stop = some st → st.phase = .loading → st.why = .trap →
    let c := s.core n
    let f := c.k.fpc.toNat / 0x10000
    (c.frame f).loading = 1 → s.vaReadSv k.ctx (c.csr.tvec.extractLsb' 0 56).toNat ((c.csr.tvec.extractLsb' 56 8).toNat * 512) = .ok bs →
      ∃ t, exec (.handlerImageLoaded n) s = .next t ∧ ButCore s t n ∧ (t.core n).sys.stop = none ∧ (t.core n).sys.sv = c.sys.sv ∧ (t.core n).regs = c.regs ∧
        ((t.core n).frame f).tag = k.ctx ∧ ((t.core n).frame f).empty = false ∧ ((t.core n).frame f).loading = 0 ∧
        ∀ i, 4 * i < bs.length → Map.get 0 ((t.core n).frame f).lanes i = BitVec.ofNat 32 (ofBytes ((bs.drop (4 * i)).take 4))) ∧
  (∀ (s s1 : State) (n item next : Nat) (more : List Nat) (k : Task) (st : Stop) (area : Nat × Nat) (x : Cut), Unheld s → Alive s n k →
    (s.core n).sys.stop = some st → st.phase = .restoring → st.reload = item :: next :: more → st.area = some area → s.cutIn k.ctx area.1 area.2 = .ok (some x) →
    (item = 0 → x.len0 = 0 → ∃ t, exec (.frameReloadComplete n) s = .next t ∧ ButCore s t n ∧ (t.core n).frame0.empty = true ∧
      (t.core n).frame0.img = BitVec.ofNat 64 x.img0) ∧
    (s.reload n x item = .ok s1 →
      exec (.frameReloadComplete n) s = .next (s1.putCore n { s1.core n with sys := { (s1.core n).sys with stop := some { st with reload := next :: more } } }) ∧
      (item = 0 → x.len0 ≠ 0 → ∃ bs, s.vaRead (BitVec.ofNat 16 x.ctx) .ovl x.img0 x.len0 = .ok bs ∧ (s1.core n).frame0.img = BitVec.ofNat 64 x.img0 ∧
        (s1.core n).frame0.fills = BitVec.ofNat 15 x.fills0 ∧ (s1.core n).frame0.len = x.len0 ∧ (s1.core n).frame0.empty = false) ∧
      (item = 2 → (s1.core n).frame0 = (s.core n).frame0 ∧ (s1.core n).mem.bankTag = BitVec.ofNat 16 x.ctx)))) ∧
  (
  ∀ (s : State) (n : Nat) (k : Task), Alive s n k → (s.core n).sys.nextStop = none →
    let c := s.core n
    let limit := (s.die (n / 288)).preemptLimit
    let now := s.sys.pkgCycle.toNat
    let run := limit.toNat / 2 ^ 32
    let cycles := limit.toNat % 2 ^ 32
    let free := c.sys.sv = false ∧ c.sys.stop = none
    (run ≠ 0 → c.sys.startCycle + run * 65536 ≤ now →
      (free → exec (.runLimit n) s = .next (s.putCore n { c with sys := { c.sys with startCycle := now, stop := some { why := .run, phase := .requested } } })) ∧
      (c.sys.sv = true → c.sys.stop = none →
        exec (.runLimit n) s = .next (s.putCore n { c with sys := { c.sys with startCycle := now, nextStop := some .run } }))) ∧
    (run = 0 ∨ now < c.sys.startCycle + run * 65536 → exec (.runLimit n) s = .next s) ∧
    (∀ g, s.graph? k.graph = some g →
      (g.parking = true → cycles ≠ 0 → g.parkStart + cycles ≤ now → free →
        exec (.parkEscalation n) s = .next (s.putCore n { c with sys := { c.sys with stop := some { why := .park, phase := .requested } } })) ∧
      (g.parking = false ∨ cycles = 0 ∨ now < g.parkStart + cycles → exec (.parkEscalation n) s = .next s)) ∧
    (∀ seq : W32, s.host.booted = true → seq = s.host.lastDown + 1 → n < 2048 → free →
      exec (.debugStop seq (BitVec.ofNat 11 n)) s = .next ((s.withHost { s.host with lastDown := seq }).putCore n
        { c with sys := { c.sys with stop := some { why := .debug seq, phase := .requested } } })) ∧
    (∀ seq : W32, s.host.booted = false ∨ seq ≠ s.host.lastDown + 1 → n < 2048 → exec (.debugStop seq (BitVec.ofNat 11 n)) s = .next s))

namespace Sys2Proof.Claim
open Sys2Proof Sys2Proof.Machine

/-- The job at the end of a bay's hazard table. -/
def TableGains (s t : State) (b : Nat) (j : Job) : Prop := (t.bay b).jobs = (s.bay b).jobs ++ [j]

/-- A job with nothing to move between packages. -/
def AllHere (j : Job) : Prop := (∀ r ∈ (jobRead j).runs, r.home = none) ∧ ∀ r ∈ (jobWrite j).runs, r.home = none

/-- The lane that issued a job is in flight with this number, its own. -/
def JobFlight (s : State) (n : Nat) (j : Job) (f : Flight) (pre post : List Flight) : Prop :=
  j.core = some n ∧ j.target = n ∧ j.node = none ∧ (s.cluster n j.cl).flights = pre ++ f :: post ∧ f.no = j.flight ∧
    ∀ g ∈ pre ++ post, g.no ≠ j.flight

end Sys2Proof.Claim

/-- 04 R100, R101, R103, R104, R113: a bay's copy engine takes the command at the head of the next ready stream while its table has room. The job
takes the bay's next sequence number and waits for every job of the table that its footprint meets (in a deterministic task those of its own stream)
and for the commands its card names; where it waits for none it starts. In a deterministic task a job that races with one in the table is
refused with HAZARD_CHECK; a malformed card is refused with ILLEGAL_OP and the index of its first malformed word.

04 R102, R104; 03 R81; 09 R241: a job that waits for nothing reads its source and writes its destination, leaves the table, and no job waits for
it any more; its lane is complete with its leaf, so that what follows it may go on. An overlay's job fills its frame, or the constant bank. A job that
still waits does nothing.

04 R102; 05 R135; 13 R353; 14 R372, R377, R386: a job whose remote request times out, whose home is gone or refuses it, fails: no further write is
made, it leaves the table, its lane is complete with no token and no leaf, and a report with its cause, LSEQ and job word goes to the cluster that
issued it, where it is raised if the cluster runs, held if it has stopped. A failed overlay load leaves its frame empty. -/
def Obligations.JobsRunAndReport : Prop :=
  (
  ∀ (s : State) (n : Nat) (cl : Cl) (cmd : Command) (rest : List Command) (k : Task),
    let b := n / 4
    let y := s.bay b
    let c := s.core n
    let pos := 2 * (n % 4) + (if cl = .S then 1 else 0)
    let s0 := (State.pop { s with via := .bay b } b pos (.stream n cl)).takeSeq b
    let tk : Taken := { source := .stream n cl, core := some n, target := n, cmd := cmd, ctx := k.ctx, who := k.who, det := k.det, node := none }
    let from_ : CardFrom := { block := false, noFrame := decide (cmd.cl ≠ .L), bank := cmd.bank, mask := cmd.mask, self := selfPkg s }
    (cl = .L ∨ cl = .S) → y.logicOn = true → y.logicTarget = none → y.rr = pos → c.stream cl = cmd :: rest → cmd.cl = cl → Alive s n k →
    cmd.held = false → cmd.taken = none → (∀ f ∈ (c.cluster cl).flights, cmd.flight ≤ f.no) → c.sys.stop = none → cmd.inv = none → cmd.pb = none →
    (y.jobs.length = 32 → exec (.jobAccept b) s = .next s) ∧
    (y.jobs.length < 32 →
      (∀ i, cardBad cmd.card from_ = some i →
        ∃ (u : State), exec (.jobAccept b) s = .next (u.tellFailure n (some n) none cmd.cl cmd.flight k.who
          { cause := .illegalOp, info := BitVec.ofNat 64 (i * 2 ^ 56), lseq := cmd.iseq, job := jobWord cmd.cl cmd.index y.seq }) ∧
          (u.bay b).seq = y.seq + 1 ∧ (u.bay b).rr = (pos + 1) % 8 ∧ (u.core n).stream cl = rest ∧ u.mem = s.mem) ∧
      (∀ rs ws, cardBad cmd.card from_ = none → cardKind cmd.card ≤ 1 → (cardClass cmd.card = 2 → cmd.sv = true) →
        resolveCard s0 k.ctx cmd.sv cmd.card = .ok (rs, ws) → (∀ i < 8, vget 0 c.csr.watchCtl i = 0) →
        let j0 := jobOf tk y.seq cmd.card rs ws
        let meets := fun (a : Job) => a.ctx = k.ctx ∧ footprintsMeet a.reads a.writes rs ws = true ∧ (k.det = true → a.core = some n ∧ a.cl = cl)
        (∀ r ∈ (jobRead j0).runs, r.home = none) → (∀ a ∈ y.jobs, a.seq ≠ y.seq) →
        (k.det = false → ∃ t j, exec (.jobAccept b) s = .next t ∧ TableGains s t b j ∧ (t.bay b).seq = y.seq + 1 ∧ (t.bay b).rr = (pos + 1) % 8 ∧
          (t.core n).stream cl = rest ∧ t.mem = s.mem ∧ (t.core n).regs = c.regs ∧
          j.seq = y.seq ∧ j.card = cmd.card ∧ j.reads = rs ∧ j.writes = ws ∧ j.core = some n ∧ j.flight = cmd.flight ∧ j.index = cmd.index ∧
          (∀ q, q ∈ j.preds ↔ ∃ a ∈ y.jobs, a.seq = q ∧ meets a) ∧
          (∀ e, e ∈ j.named → e ∈ cardNames cmd.card) ∧ (j.started = true ↔ j.preds = [] ∧ j.named = [])) ∧
        (∀ a, k.det = true →
          raceOf s0 (s0.bay b) { j0 with preds := edgesOf (s0.bay b) true j0, named := namesLeft s0 n (s0.bay b) cmd.card, watch := none } = some a →
          exec (.jobAccept b) s = .next
            { (s0.refuse b tk y.seq { cause := .hazardCheck, info := BitVec.ofNat 64 (y.seq.toNat * 2 ^ 32 + a.seq.toNat) }) with via := s.via })))) ∧
  (
  ∀ (s : State) (b n : Nat) (j : Job) (f : Flight) (pre post : List Flight) (bs : List Byte) (before after : List Job), Unheld s →
    (s.bay b).jobs = before ++ j :: after → (∀ a ∈ before ++ after, a.seq ≠ j.seq) → JobFlight s n j f pre post → f.watch = none → j.watch = none →
    (cardWord j.card 0) / 2 ^ 57 % 2 = 0 → b = n / 4 →
    (j.preds ≠ [] ∨ j.named ≠ [] → j.started = false → exec (.jobComplete b j.seq) s = .next s) ∧
    (j.preds = [] → j.named = [] → AllHere j → cardKind j.card ≤ 2 → j.started = false →
      exec (.jobComplete b j.seq) s = exec (.jobComplete b j.seq) (s.putJob b { j with started := true })) ∧
    (j.started = true → j.preds = [] → j.named = [] → j.reqs = [] → AllHere j → jobBytes s j = .ok bs →
      let frees := fun (t : State) =>
        (t.bay b).jobs.map Job.seq = (before ++ after).map Job.seq ∧ (∀ a ∈ (t.bay b).jobs, j.seq ∉ a.preds) ∧
        (t.cluster n j.cl).flights = pre ++ post ∧ (t.core n).regs = (s.core n).regs ∧ (t.core n).queues = (s.core n).queues ∧
        ∀ m, m ≠ n → t.core m = s.core m
      (cardKind j.card ≤ 1 → checkDest s j.ctx (jobWrite j).runs = .ok () → ringOf s j.ctx (cardWord j.card 2) (cardWord j.card 3) = none →
        ∃ t, exec (.jobComplete b j.seq) s = .next t ∧ frees t ∧ t.mem = writeRuns s.mem j.ctx (jobWrite j).runs bs j.written ∧
          (t.core n).frame0 = (s.core n).frame0 ∧ (t.core n).frame1 = (s.core n).frame1 ∧
          (∀ w, (jobWrite j).runs = [w] → w.len = bs.length → j.written = [] → t.mem = s.mem.write j.ctx w.key w.pa bs)) ∧
      (cardKind j.card = 2 → j.bank = false → cardWord j.card 2 ≤ 1 →
        let fr := (s.core n).frame (cardWord j.card 2)
        ∃ t, exec (.jobComplete b j.seq) s = .next t ∧ frees t ∧ t.mem = s.mem ∧
          let g := (t.core n).frame (cardWord j.card 2)
          g.tag = j.ctx ∧ g.empty = false ∧ g.loading = fr.loading - 1 ∧ g.img = fr.img ∧ g.fills = fr.fills ∧
            (∀ i, 4 * i < bs.length → Map.get 0 g.lanes i = BitVec.ofNat 32 (ofBytes ((bs.drop (4 * i)).take 4)))) ∧
      (cardKind j.card = 2 → j.bank = true → ∃ t, exec (.jobComplete b j.seq) s = .next t ∧ frees t ∧ t.mem = s.mem ∧
        (t.core n).mem.bankTag = j.ctx ∧ (t.core n).frame0 = (s.core n).frame0 ∧ (t.core n).frame1 = (s.core n).frame1 ∧
        ∀ i, 4 * i < bs.length → Map.get 0 (t.core n).mem.bank i = BitVec.ofNat 32 (ofBytes ((bs.drop (4 * i)).take 4))))) ∧
  (
  (∀ (s : State) (b n home va : Nat) (j : Job) (f : Flight) (pre post : List Flight) (before after : List Job),
    (s.bay b).jobs = before ++ j :: after → (∀ a ∈ before ++ after, a.seq ≠ j.seq) → JobFlight s n j f pre post → b = n / 4 →
    cardKind j.card ≤ 2 → (∃ r ∈ j.reqs, r.home = home) →
    let fails := fun (how : JobEnd) (cause : Cause) (code : Nat) => ∃ t, exec (.jobFail b j.seq how) s = .next t ∧
      (t.bay b).jobs.map Job.seq = (before ++ after).map Job.seq ∧ (t.cluster n j.cl).flights = pre ++ post ∧
      (∀ q < 4, cueProducer q = j.cl → j.flight ∉ vget [] (t.core n).cues q) ∧ (t.core n).regs = (s.core n).regs ∧ t.mem = s.mem ∧
      (cardKind j.card = 2 → j.bank = false → cardWord j.card 2 = 0 → (t.core n).frame0.empty = true ∧ (t.core n).frame0.lanes = []) ∧
      ∃ info, info = remoteInfo code home va ∧ (t.core n).mem.reports = (s.core n).mem.reports ++
        [{ cl := j.cl, trap := { cause := cause, info := info, lseq := j.iseq, job := jobWord j.cl j.index j.seq }, who := j.who }]
    (peerUp s home = false → fails (.peerGone home va) .peerGone 0) ∧
    ((∃ r ∈ j.reqs, r.home = home ∧ r.deadline ≤ s.sys.pkgCycle.toNat) → fails (.timeout home va) .fabricError 1) ∧
    fails (.range home va) .fabricError 2 ∧ fails (.key home va) .fabricError 3) ∧
  (∀ (s : State) (n : Nat) (cl : Cl) (r : Report) (before after : List Report) (k : Task),
    Unheld s → (s.core n).mem.reports = before ++ r :: after → (∀ x ∈ before, x.cl ≠ cl) → (∀ x ∈ after, x.cl = cl → x.before r = false) → r.cl = cl → Alive s n k → k.who = r.who → k.area = none →
    let c := s.core n
    let x := c.cluster cl
    (x.stopped = none → c.sys.stop = none → exec (.failureReport n cl) s = .next (s.putCore n
      { (c.putCluster cl { x with stopped := some r.trap, stall := none }) with
        mem := { c.mem with reports := before ++ after }, sys := { c.sys with stop := some { why := .trap, phase := .requested, first := some cl } } })) ∧
    (∀ tr, x.stopped = some tr → x.held = none → exec (.failureReport n cl) s = .next (s.putCore n
      { (c.putCluster cl { x with held := some r.trap }) with mem := { c.mem with reports := before ++ after } }))))

namespace Sys2Proof.Claim
open Sys2Proof Sys2Proof.Machine

/-- Update a comes before b in canonical order: by issuer, then by the issuer's sequence (04 R116). -/
def comesBefore (a b : Update) : Prop := a.issuer.toNat < b.issuer.toNat ∨ (a.issuer = b.issuer ∧ a.s < b.s)

/-- Some updates performed one at a time, in their order, give a memory. -/
def Applies : Memory → List Update → Memory → Prop
  | m, [], m' => m' = m
  | m, y :: ys, m' => ∃ old m1, m.rmw y.ctx y.key y.pa (amoWidth y.fmt) y.aop y.value.toNat 0 = some (old, m1) ∧ Applies m1 ys m'

/-- The lanes of S in flight on a core, but for those of some updates. -/
def lanesLeft (s : State) (k : Nat) (us : List Update) : List Flight :=
  (s.cluster k .S).flights.filter fun f => decide (∀ y ∈ us, y.dead = true ∨ y.core ≠ k ∨ y.flight ≠ f.no)

/-- No lane of these updates has a write match to raise. -/
def NoMatches (s : State) (us : List Update) : Prop := ∀ y ∈ us, ∀ f ∈ (s.cluster y.core .S).flights, f.no = y.flight → f.watch = none

/-- Every issuer below one has closed at its unit. -/
def lowerDone (closed : List Nat) (y : Update) : Bool := decide (∀ i < y.issuer.toNat, i ∈ closed)

end Sys2Proof.Claim

/-- 04 R115 to R118: a unit with room takes an open group; a full one (8) lets it wait. An update that reaches its unit is held in canonical order, by
issuer and sequence, while 16 are not held; one that finds 16 held puts its group in ordered mode, where the held ones whose lower issuers have all
closed are applied and it is itself applied once every lower issuer has closed and refused before. A refused update is sent again. A close that
reaches the last unit for the last issuer applies what is held in that order, frees the unit, and completes; an earlier one applies, in ordered mode,
what it lets go. Each update applied completes its lane. An update of an issuer that has closed is taken like any other: the model's choice (log 86).
-/
def Obligations.GroupUnits : Prop :=
  ∀ (s : State) (n u : Nat),
    let c := s.core n
    (∀ op rest pre post f, c.mem.opens = op :: rest → u ∈ op.waiting → op.dead = false → op.flight = f.no → op ∉ rest →
      (s.cluster n .S).flights = pre ++ f :: post → (∀ g ∈ pre ++ post, g.no ≠ f.no) → f.watch = none →
      (op.waiting ≠ op.units ∨ unitsWith s op.group op.ctx = []) →
      ((s.unit u).length = 8 → exec (.dgrpOpenTake n u) s = .next s) ∧
      ((s.unit u).length < 8 → ∃ t, exec (.dgrpOpenTake n u) s = .next t ∧ t.mem = s.mem ∧ (t.core n).regs = c.regs ∧
        t.unit u = s.unit u ++ [{ id := op.group, ctx := op.ctx, n := op.n, range := op.ranges }] ∧
        (op.waiting = [u] → (t.core n).mem.opens = rest ∧ (t.cluster n .S).flights = pre ++ post) ∧
        (op.waiting.filter (fun x => x ≠ u) ≠ [] → (t.core n).mem.opens = { op with waiting := op.waiting.filter fun x => x ≠ u } :: rest ∧
          (t.cluster n .S).flights = (s.cluster n .S).flights))) ∧
    (∀ x rest g, c.mem.transit = x :: rest → x.core = n → x.dead = false → s.groupAt x.unit x.group x.ctx = some g →
      g.id = x.group → g.ctx = x.ctx → x.issuer.toNat < g.n → inRanges g.range x.pa (amoWidth x.fmt) = true → SliceOn s x.unit →
      (g.ordered = false → heldIn s x.unit < 16 → ∃ t, exec (.dgrpUpdateArrive n) s = .next t ∧ t.mem = s.mem ∧ (t.core n).mem.transit = rest ∧
        (t.cluster n .S).flights = (s.cluster n .S).flights ∧ ∃ hs, t.groupAt x.unit x.group x.ctx = some { g with held := hs } ∧ hs.Perm (x :: g.held) ∧
          (g.held.Pairwise (fun a b => ¬ comesBefore b a) → hs.Pairwise fun a b => ¬ comesBefore b a)) ∧
      (g.ordered = false → 16 ≤ heldIn s x.unit →
        let now := g.held.filter (lowerDone g.closed)
        let g1 := { g with ordered := true, held := g.held.filter fun y => !lowerDone g.closed y }
        (∀ m, (∃ i < x.issuer.toNat, i ∉ g.closed) → NoMatches s now → Applies s.mem now m → ∃ t, exec (.dgrpUpdateArrive n) s = .next t ∧ t.mem = m ∧
          t.groupAt x.unit x.group x.ctx = some g1 ∧ (t.core n).mem.transit = rest ∧ (t.core n).mem.refused = c.mem.refused ++ [x] ∧
          ∀ k, (t.cluster k .S).flights = lanesLeft s k now) ∧
        (∀ m, (∀ i < x.issuer.toNat, i ∈ g.closed) → c.mem.refused = [] → rest = [] → NoMatches s (now ++ [x]) → Applies s.mem (now ++ [x]) m →
          ∃ t, exec (.dgrpUpdateArrive n) s = .next t ∧ t.mem = m ∧ t.groupAt x.unit x.group x.ctx = some g1 ∧ (t.core n).mem.transit = [] ∧
            (t.core n).mem.refused = [] ∧ ∀ k, (t.cluster k .S).flights = lanesLeft s k (now ++ [x]))) ∧
      (g.ordered = true → (∃ i < x.issuer.toNat, i ∉ g.closed) → ∃ t, exec (.dgrpUpdateArrive n) s = .next t ∧ t.mem = s.mem ∧
        (t.core n).mem.transit = rest ∧ (t.core n).mem.refused = c.mem.refused ++ [x] ∧ t.units = s.units) ∧
      (∀ old m, g.ordered = true → (∀ i < x.issuer.toNat, i ∈ g.closed) → c.mem.refused = [] → rest = [] → (∀ f ∈ (s.cluster n .S).flights, f.watch = none) →
        s.mem.rmw x.ctx x.key x.pa (amoWidth x.fmt) x.aop x.value.toNat 0 = some (old, m) →
        ∃ t, exec (.dgrpUpdateArrive n) s = .next t ∧ t.mem = m ∧ (t.core n).mem.transit = [] ∧ t.units = s.units ∧
          ∀ f ∈ (t.cluster n .S).flights, f ∈ (s.cluster n .S).flights ∧ f.no ≠ x.flight)) ∧
    (∀ x rest, c.mem.refused = x :: rest → exec (.dgrpUpdateResend n) s =
      .next (s.putCore n { c with mem := { c.mem with refused := rest, transit := x :: c.mem.transit } })) ∧
    (∀ op rest g f pre post, c.mem.closes = op :: rest → op.waiting = [u] → op.units = [u] → op.dead = false → mayClose c op = true → op.flight = f.no →
      s.unit u = [g] → g.id = op.group → g.ctx = op.ctx → op.issuer.toNat < g.n → op.issuer.toNat ∉ g.closed → SliceOn s u →
      s.units.Pairwise (fun a b => a.1 < b.1) → s.cores.Pairwise (fun a b => a.1 < b.1) → (∃ e ∈ s.cores, e.1 = n) →
      (∀ e ∈ s.cores, e.1 ≠ n → e.2.mem.closes = []) → rest = [] →
      (s.cluster n .S).flights = pre ++ f :: post → (∀ y ∈ pre ++ post, y.no ≠ f.no) → f.watch = none →
      (∀ m, (∀ i < g.n, i ≠ op.issuer.toNat → i ∈ g.closed) → (∀ y ∈ g.held, y.issuer.toNat < g.n) → NoMatches s g.held → Applies s.mem g.held m →
        ∃ t, exec (.dgrpCloseArrive n u) s = .next t ∧ t.mem = m ∧ t.unit u = [] ∧ (t.core n).mem.closes = [] ∧ (t.core n).regs = c.regs ∧
          ∀ k, (t.cluster k .S).flights = (lanesLeft s k g.held).filter fun h => decide (k ≠ n ∨ h.no ≠ f.no)) ∧
      ((∃ i < g.n, i ≠ op.issuer.toNat ∧ i ∉ g.closed) →
        let closed := setIns g.closed op.issuer.toNat
        (g.ordered = false → ∃ t, exec (.dgrpCloseArrive n u) s = .next t ∧ t.mem = s.mem ∧ t.unit u = [{ g with closed := closed }] ∧
          (t.core n).mem.closes = [{ op with waiting := [] }] ∧ (t.cluster n .S).flights = (s.cluster n .S).flights) ∧
        (∀ m, g.ordered = true → NoMatches s (g.held.filter (lowerDone closed)) → Applies s.mem (g.held.filter (lowerDone closed)) m →
          ∃ t, exec (.dgrpCloseArrive n u) s = .next t ∧ t.mem = m ∧
            t.unit u = [{ g with closed := closed, held := g.held.filter fun y => !lowerDone closed y }] ∧
            (t.core n).mem.closes = [{ op with waiting := [] }] ∧ ∀ k, (t.cluster k .S).flights = lanesLeft s k (g.held.filter (lowerDone closed)))))

namespace Sys2Proof.Claim
open Sys2Proof Sys2Proof.Machine

/-- The lane with flight number `no` is in flight, f is it, and nothing is to be raised behind it. -/
def InFlightAs (s : State) (n : Nat) (cl : Cl) (no : Nat) (f : Flight) (pre post : List Flight) : Prop :=
  (s.cluster n cl).flights = pre ++ f :: post ∧ f.no = no ∧ f.watch = none ∧ ∀ g ∈ pre ++ post, g.no ≠ no

/-- Every slice is on, and none is leaving it. -/
def AllOn (s : State) : Prop := ∀ b, (s.bay b).power = .on ∧ (s.bay b).target = none

/-- A request of the same stream that came before one waits at a die (03 R89; 05 R136). -/
def StreamMate (s : State) (r : RemoteReq) (came : Nat) : Prop :=
  ∃ d < 4, ∃ w ∈ (s.die d).wire, w.came < came ∧ ∃ q, w.req = some q ∧ r.src = q.src ∧ r.core = q.core ∧ r.cls = q.cls

end Sys2Proof.Claim

/-- 03 R89; 05 R129, R132, R136, R137, R142: a home checks a request's incarnations, its range and its key, performs it, and answers; a request of a
life gone by is dropped and counted, and one of a reserved OP is dropped (16 R416). One that comes in at another die than the one that holds its bytes
crosses with its stamp, its packet by their bridge (16 R427), and one whose stream has an earlier request that still waits at a die waits where it
came in.

05 R137: a die that has sent another nothing for 64 cycles sends it a beat with its count. A die applies the oldest request from another once it
has seen all that the stamp names and no earlier request of its stream still waits, and merges the stamp into its own vector and the sender's; a beat
only counts. A tile that a member of a collective places waits for its stamp likewise. What crosses is the model's reading of R137 (log 32).

05 R130, R131, R135, R143; 14 R386: an answer frees the request's entry and brings its data to the queue entry or the register that waits; with
the last one the lane is complete. A request that is not answered in time, or is refused, or whose home is gone, fails its lane with a report. -/
def Obligations.RemoteRequestsAndAnswers : Prop :=
  (
  ∀ (s : State) (r : RemoteReq),
    let here := Config.ingressDie r.src r.core r.cls % 4
    let die := dieOfPa r.addr % 4
    let ok := current s r.src r.sInc r.rInc = true
    let answers := fun (status : Nat) (bs : List Byte) (m : Memory) =>
      ∃ t, exec (.remoteRequest r) s = .next t ∧ t.mem = m ∧ t.cores = s.cores ∧ t.fab.sent = s.fab.sent ++ [.response
        { src := selfPkg s, dst := r.src, core := r.core, tag := r.tag, sInc := selfInc s, rInc := peerInc s r.src, ctx := r.ctx, status := status, data := bs }]
    (2 < r.op → exec (.remoteRequest r) s = .next s) ∧
    (r.op ≤ 2 → ¬ ok → exec (.remoteRequest r) s = .next (s.withFab { s.fab with peerStale := s.fab.peerStale + 1 })) ∧
    (r.op ≤ 2 → ok → AllOn s →
      (installed s r.addr r.len = false → answers 1 [] s.mem) ∧
      (installed s r.addr r.len = true → here = die → StreamMate s r s.fab.came →
        ∃ t, exec (.remoteRequest r) s = .next t ∧ t.mem = s.mem ∧ t.cores = s.cores ∧ t.fab.sent = s.fab.sent ∧
          (t.die die).wire = (s.die die).wire ++
            [{ src := die, came := s.fab.came, no := vget 0 (s.die die).seen die, stamp := Vector.replicate 4 0, req := some r }]) ∧
      (installed s r.addr r.len = true → here = die → ¬ StreamMate s r s.fab.came →
        let st := homeStatus s r.striped r.addr r.len r.key
        (st = 1 ∨ st = 2 → answers st [] s.mem) ∧
        (∀ bs, st = 0 → r.op = 0 → s.mem.read r.ctx r.key r.addr r.len = some bs → answers 0 bs s.mem) ∧
        (st = 0 → r.op = 1 → s.mem.writeBlocked r.ctx r.addr r.len = false →
          answers 0 [] (s.mem.write r.ctx r.key r.addr (r.data.take r.len))) ∧
        (∀ old m, st = 0 → r.op = 2 → s.mem.rmw r.ctx r.key r.addr r.len r.aop (ofBytes (r.data.take 8)) (ofBytes ((r.data.drop 8).take 8)) = some (old, m) →
          answers 0 (bytesOf 8 old) m)) ∧
      (installed s r.addr r.len = true → here ≠ die → ∃ t, exec (.remoteRequest r) s = .next t ∧ t.mem = s.mem ∧ t.cores = s.cores ∧
        t.fab.came = s.fab.came + 1 ∧ t.fab.sent = s.fab.sent ∧ vget [] (t.port (24 + 4 * here + die)).out (min r.cls 2) =
          vget [] (s.port (24 + 4 * here + die)).out (min r.cls 2) ++ [{ flits := flitsOf (min r.cls 2) false ((Packet.request r).payload r.dst) }] ∧ (t.die here).sent = (s.die here).sent + 1 ∧
        (t.die die).wire = (s.die die).wire ++ [{ src := here, came := s.fab.came, no := (s.die here).sent + 1, stamp := (s.die here).vector.setIfInBounds here ((s.die here).sent + 1), req := some r }]))) ∧
  (
  (∀ (s : State) (d e : Nat), d < 4 → e < 4 → d ≠ e →
    (vget 0 (s.die d).lastSend e + 64 ≤ s.sys.pkgCycle.toNat → ∃ t, exec (.dieClockBeat d e) s = .next t ∧ t.mem = s.mem ∧ t.cores = s.cores ∧
      vget 0 (t.die d).lastSend e = s.sys.pkgCycle.toNat ∧
      (t.die e).wire = (s.die e).wire ++ [{ src := d, no := (s.die d).sent, stamp := Vector.replicate 4 0, req := none }]) ∧
    (s.sys.pkgCycle.toNat < vget 0 (s.die d).lastSend e + 64 → exec (.dieClockBeat d e) s = .next s)) ∧
  (∀ (s : State) (die src : Nat) (w : Wire) (before after : List Wire), (s.die die).wire = before ++ w :: after → (∀ x ∈ before, x.src ≠ src) →
    w.src = src → src < 4 → die < 4 →
    (w.req = none → w.tile = none → ∃ t, exec (.crossDieApply die src) s = .next t ∧ t.mem = s.mem ∧ t.fab = s.fab ∧ (t.die die).wire = before ++ after ∧
      vget 0 (t.die die).seen src = w.no ∧ (t.die die).vector = (s.die die).vector) ∧
    (w.req = none → w.tile ≠ none → (s.die die).mayApply die w = false → exec (.crossDieApply die src) s = .next s) ∧
    (∀ r, w.req = some r →
      ((s.die die).mayApply die w = false ∨ StreamMate s r w.came → exec (.crossDieApply die src) s = .next s) ∧
      (∀ bs, (s.die die).mayApply die w = true → ¬ StreamMate s r w.came → AllOn s → r.op = 0 → homeStatus s r.striped r.addr r.len r.key = 0 →
        s.mem.read r.ctx r.key r.addr r.len = some bs →
        ∃ t, exec (.crossDieApply die src) s = .next t ∧ t.mem = s.mem ∧ (t.die die).wire = before ++ after ∧ vget 0 (t.die die).seen src = w.no ∧
          (∀ k < 4, vget 0 (t.die die).vector k = (if vget 0 (s.die die).vector k ≤ vget 0 w.stamp k then vget 0 w.stamp k else vget 0 (s.die die).vector k)) ∧
          (∃ a, t.fab.sent = s.fab.sent ++ [.response a] ∧ a.data = bs ∧ a.status = 0))))) ∧
  (
  (∀ (s : State) (a : RemoteResp) (n : Nat) (r : RemoteOp) (f : Flight) (pre post : List Flight), a.core = n → (s.core n).mem.remote = [r] → r.tag = a.tag →
    r.home = a.src → s.fab.resend = [] → r.dead = false → InFlightAs s n r.cl r.flight f pre post →
    (current s a.src a.sInc a.rInc = false →
      exec (.remoteResponse a) s = .next (s.withFab { s.fab with peerStale := s.fab.peerStale + 1 })) ∧
    (current s a.src a.sInc a.rInc = true → a.status = 0 →
      let done := fun (t : State) => exec (.remoteResponse a) s = .next t ∧ (t.core n).mem.remote = [] ∧ (t.cluster n r.cl).flights = pre ++ post ∧
        t.mem = s.mem ∧ t.bays = s.bays ∧ (∀ m, m ≠ n → t.core m = s.core m)
      (∀ q e left right, r.op = 0 → r.queue = some q → q < 16 → ((s.core n).queue q).ring = [] → ((s.core n).queue q).chip = left ++ e :: right →
        e.src = r.flight → (∀ x ∈ left ++ right, x.src ≠ r.flight) →
        ∃ t, done t ∧ (t.core n).regs = (s.core n).regs ∧ ((t.core n).queue q).chip = left ++
          { e with data := e.data ||| BitVec.ofNat 2048 (ofBytes (a.data.take r.len) * 2 ^ (8 * r.off)), fill := .ready } :: right) ∧
      (r.op = 1 → r.queue = none → ∃ t, done t ∧ (t.core n).regs = (s.core n).regs ∧ (t.core n).queues = (s.core n).queues) ∧
      (∀ d, r.op = 2 → r.queue = none → r.dest = some d →
        ∃ t, done t ∧ (t.core n).regs = (s.core n).regs.setSx d (amoResult r.fmt (ofBytes (a.data.take r.len))))) ∧
    (current s a.src a.sInc a.rInc = true → a.status = 1 ∨ a.status = 2 → r.queue = none →
      ∃ t, exec (.remoteResponse a) s = .next t ∧ (t.core n).mem.remote = [] ∧ (t.cluster n r.cl).flights = pre ++ post ∧ t.mem = s.mem ∧
        (t.core n).mem.reports = (s.core n).mem.reports ++ [{ cl := r.cl, trap := { cause := .fabricError, info := remoteInfo (a.status + 1) r.home r.va.toNat, lseq := r.iseq, job := remoteWord }, who := r.who }])) ∧
  (∀ (s : State) (n : Nat) (r : RemoteOp) (f : Flight) (pre post : List Flight), (s.core n).mem.remote = [r] → InFlightAs s n r.cl r.flight f pre post →
    (s.sys.pkgCycle.toNat < r.deadline → exec (.remoteTimeout n r.tag) s = .next s) ∧
    (r.deadline ≤ s.sys.pkgCycle.toNat → r.dead = false → r.queue = none →
      ∃ t, exec (.remoteTimeout n r.tag) s = .next t ∧ (t.core n).mem.remote = [] ∧ (t.cluster n r.cl).flights = pre ++ post ∧ t.mem = s.mem ∧
        (t.core n).mem.reports = (s.core n).mem.reports ++ [{ cl := r.cl, trap := { cause := .fabricError, info := remoteInfo 1 r.home r.va.toNat, lseq := r.iseq, job := remoteWord }, who := r.who }])) ∧
  (∀ (s : State) (pkg : Nat) (inc : W16), pkg < 64 →
    exec (.peerStateUpdate pkg 1 inc) s = .next (s.withFab { s.fab with peer := s.fab.peer.setIfInBounds pkg (BitVec.ofNat 64 (inc.toNat * 2 ^ 48 + 1)) }) ∧
    (∀ n c r f pre post (state : BitVec 2), state ≠ 1 → s.cores = [(n, c)] → c.mem.remote = [r] → r.home = pkg → r.dead = false → r.queue = none →
      (∀ e ∈ s.bays, e.2.jobs = []) → InFlightAs s n r.cl r.flight f pre post →
      ∃ t, exec (.peerStateUpdate pkg state inc) s = .next t ∧ vget 0 t.fab.peer pkg = BitVec.ofNat 64 (inc.toNat * 2 ^ 48 + state.toNat) ∧
        (t.core n).mem.remote = [] ∧ (t.cluster n r.cl).flights = pre ++ post ∧ t.mem = s.mem ∧
        (t.core n).mem.reports = c.mem.reports ++ [{ cl := r.cl, trap := { cause := .peerGone, info := remoteInfo 0 pkg r.va.toNat, lseq := r.iseq, job := remoteWord }, who := r.who }])))

namespace Sys2Proof.Claim
open Sys2Proof Sys2Proof.Machine

/-- The answer a contribution of another package gets. -/
def Answered (s t : State) (p : Contrib) (status : Nat) : Prop :=
  ∃ a, t.fab.sent = s.fab.sent ++ [.response a] ∧ a.dst = p.src ∧ a.tag = p.tag ∧ a.status = status ∧ a.ctx = p.ctx ∧ a.data = []

/-- Element i of a folded tile: the sum, or for MAXR the maximum, each rounded once (05 R140; 07 R173, R178). -/
def folded (op : Nat) (a b : List W32) : List W32 := (a.zip b).map fun x => BitVec.ofNat 32 (if op = 4 then fmax32 x.1.toNat x.2.toNat else fadd32 x.1.toNat x.2.toNat)

end Sys2Proof.Claim

/-- 05 R139 to R142; 10 R284: a contribution of a life gone by is counted and dropped, one of an aborted group dropped. A byte-exact tile is written
where the group's started job has it, and is refused while there is none; one whose slice is asleep waits for it (02 R70). The router keeps a
destination's fold of ranks 0 to k - 1: rank k is folded in as it comes, one later contribution waits, one already folded is answered again, and the
fold of all ranks is written. A flagged tile is folded into memory in rank order and refused out of it, and a prefix only where nothing is folded yet.
A tile placed here crosses, with its stamp, from the die it came in at to the one that holds its bytes (R136, R137). What answers a contribution is
the model's reading (log 27), as is what crosses (log 32); a whole fold that meets no job of its group here is written under key 0, the model's choice
(log 26).

05 R144; 13 R366: an ABORT fails the package's jobs of the group, frees what its routers hold of it, and is acknowledged; an acknowledgement takes
its sender off the list, and the group leaves the list with its last. -/
def Obligations.CollectivesFoldAndAbort : Prop :=
  (
  ∀ (s : State) (p : Contrib),
    let taken := current s p.src p.sInc p.rInc = true ∧ (p.ctx, p.group) ∉ s.fab.abortedHere ∧ p.src ≠ selfPkg s
    let from_ := Config.ingressDie p.src 0 0 % 4
    let die := dieOfPa p.dst % 4
    let stays := p.place = false ∨ from_ = die
    let live := taken ∧ stays ∧ AllOn s
    let n := maskCount p.mask
    let start : Comb := { die := dieOfPa p.dst, ctx := p.ctx, group := p.group, dst := p.dst, k := 0, acc := [], first := p }
    (current s p.src p.sInc p.rInc = false →
      exec (.contribution p) s = .next (s.withFab { s.fab with peerStale := s.fab.peerStale + 1 }) ∧
      exec (.flaggedTile p) s = .next (s.withFab { s.fab with peerStale := s.fab.peerStale + 1 })) ∧
    ((p.ctx, p.group) ∈ s.fab.abortedHere → current s p.src p.sInc p.rInc = true → stays → exec (.contribution p) s = .next s) ∧
    (current s p.src p.sInc p.rInc = true → ¬ stays → ∃ t, exec (.contribution p) s = .next t ∧ t.mem = s.mem ∧ t.fab.sent = s.fab.sent ∧ t.bays = s.bays ∧
      t.fab.came = s.fab.came + 1 ∧ (t.die from_).sent = (s.die from_).sent + 1 ∧
      (t.die die).wire = (s.die die).wire ++
        [{ src := from_, came := s.fab.came, no := (s.die from_).sent + 1, req := none, tile := some p,
           stamp := (s.die from_).vector.setIfInBounds from_ ((s.die from_).sent + 1) }]) ∧
    (taken → stays → (awakeAll s p.dst 64).isOk = false → ∃ t, exec (.contribution p) s = .next t ∧ t.mem = s.mem ∧ t.fab.kept = s.fab.kept ++ [p] ∧
      t.fab.combs = s.fab.combs ∧ t.fab.sent = s.fab.sent) ∧
    (live → collJobs s p.ctx p.group = [] →
      (p.place = true → ∃ t, exec (.contribution p) s = .next t ∧ t.mem = s.mem ∧ t.bays = s.bays ∧ Answered s t p 4) ∧
      (p.place = false → p.flagged = false → p.isPrefix = false → keyOf p ∉ s.fab.flaggedKeys →
        (combAt s p = none → (s.fab.combs.filter fun e => e.die = dieOfPa p.dst).length < 4096 → start ∉ s.fab.combs →
          (p.idx = 0 → 2 ≤ n → ∃ t, exec (.contribution p) s = .next t ∧ t.mem = s.mem ∧ Answered s t p 0 ∧
            t.fab.combs = s.fab.combs ++ [{ start with k := 1, acc := p.tile }]) ∧
          (p.idx ≠ 0 → ∃ t, exec (.contribution p) s = .next t ∧ t.mem = s.mem ∧ t.fab.sent = s.fab.sent ∧
            t.fab.combs = s.fab.combs ++ [{ start with parked := some p }])) ∧
        (∀ e before after, s.fab.combs = before ++ e :: after → (∀ x ∈ before ++ after, x ≠ e) → combAt s p = some e →
          (p.idx < e.k → ∃ t, exec (.contribution p) s = .next t ∧ t.mem = s.mem ∧ t.fab.combs = s.fab.combs ∧ Answered s t p 0) ∧
          (e.k < p.idx → e.parked = none → ∃ t, exec (.contribution p) s = .next t ∧ t.mem = s.mem ∧ t.fab.sent = s.fab.sent ∧
            t.fab.combs = before ++ { e with parked := some p } :: after) ∧
          (p.idx = e.k → 0 < e.k → e.parked = none → e.k + 1 < maskCount e.first.mask → ∃ t, exec (.contribution p) s = .next t ∧ t.mem = s.mem ∧
            Answered s t p 0 ∧ t.fab.combs = before ++ { e with k := e.k + 1, acc := folded e.first.op e.acc p.tile } :: after) ∧
          (p.idx = e.k → 0 < e.k → e.parked = none → e.k + 1 = maskCount e.first.mask → e.ctx = p.ctx → e.group = p.group →
            { e with k := e.k + 1, acc := folded e.first.op e.acc p.tile } ∉ before ++ after →
            ∃ t, exec (.contribution p) s = .next t ∧ Answered s t p 0 ∧ t.fab.combs = before ++ after ∧
              t.mem = s.mem.write e.ctx 0 e.dst (tileBytes (folded e.first.op e.acc p.tile)))))) ∧
    (∀ b j u r, live → collJobs s p.ctx p.group = [(b, j)] → agrees j p = true → j.started = true → tileAt j p.dst = some (u, r) → s.job? b j.seq = some j →
      (p.place = true → ∃ t, exec (.contribution p) s = .next t ∧ Answered s t p 0 ∧
        t.mem = s.mem.write j.ctx (tileKey j u) (tilePa j u) (tileBytes p.tile) ∧ ∃ k, t.job? b j.seq = some k ∧ Map.get [] k.tiles u = p.tile) ∧
      (p.place = false → p.isPrefix = true → p.idx < maskCount j.mask →
        (Map.get 0 j.folded u ≠ 0 → ∃ t, exec (.flaggedTile p) s = .next t ∧ t.mem = s.mem ∧ Answered s t p 4) ∧
        (Map.get 0 j.folded u = 0 → ∃ t, exec (.flaggedTile p) s = .next t ∧ Answered s t p 0 ∧
          t.mem = s.mem.write j.ctx (tileKey j u) (tilePa j u) (tileBytes p.tile) ∧ ∃ k, t.job? b j.seq = some k ∧ Map.get 0 k.folded u = p.idx)) ∧
      (p.place = false → p.isPrefix = false →
        (p.idx ≠ Map.get 0 j.folded u → ∃ t, exec (.flaggedTile p) s = .next t ∧ t.mem = s.mem ∧ Answered s t p 4) ∧
        (p.idx = 0 → Map.get 0 j.folded u = 0 → 2 ≤ maskCount j.mask → ∃ t, exec (.flaggedTile p) s = .next t ∧ Answered s t p 0 ∧
          t.mem = s.mem.write j.ctx (tileKey j u) (tilePa j u) (tileBytes p.tile) ∧ ∃ k, t.job? b j.seq = some k ∧ Map.get 0 k.folded u = 1) ∧
        (∀ bs, p.idx = Map.get 0 j.folded u → 0 < p.idx → p.idx + 1 < maskCount j.mask → s.mem.read j.ctx (tileKey j u) (tilePa j u) 64 = some bs →
          ∃ t, exec (.flaggedTile p) s = .next t ∧ Answered s t p 0 ∧
            t.mem = s.mem.write j.ctx (tileKey j u) (tilePa j u) (tileBytes (folded p.op ((tilesOf bs).headD []) p.tile)) ∧
            ∃ k, t.job? b j.seq = some k ∧ Map.get 0 k.folded u = p.idx + 1)))) ∧
  (
  (∀ (s : State) (src group : Nat) (ctx : W16) (mask : W64),
    let mine := fun (c : W16) (g : Nat) => c = ctx ∧ g = group
    let clean := fun (t : State) => exec (.collectiveAbort src ctx group mask) s = .next t ∧ t.mem = s.mem ∧ (∀ e ∈ t.fab.combs, ¬ mine e.ctx e.group) ∧
      (∀ p ∈ t.fab.arrived ++ t.fab.kept, ¬ mine p.ctx p.group) ∧ (∀ k ∈ t.fab.flaggedKeys, ¬ mine k.1 k.2.1) ∧ (∀ x ∈ t.fab.resend, ¬ mine x.1.ctx x.1.group) ∧
      (ctx, group) ∈ t.fab.abortedHere ∧ t.fab.sent = s.fab.sent ++ [.abortAck src ctx group] ∧ t.fab.aborting = s.fab.aborting
    (collJobs s ctx group = [] → ∃ t, clean t ∧ t.cores = s.cores) ∧
    (∀ b n j f pre post, collJobs s ctx group = [(b, j)] → s.job? b j.seq = some j → cardKind j.card = 3 → cardWord j.card 0 / 2 ^ 57 % 2 = 0 →
      JobFlight s n j f pre post → ∃ t, clean t ∧ t.job? b j.seq = none ∧ (t.cluster n j.cl).flights = pre ++ post ∧
        ∃ r, (t.core n).mem.reports = (s.core n).mem.reports ++ [r] ∧ r.cl = j.cl ∧ r.who = j.who ∧ r.trap.cause = .collectiveAborted ∧ r.trap.lseq = j.iseq)) ∧
  (∀ (s : State) (src group : Nat) (ctx : W16) (before after : List (W16 × Nat × List Nat)) (ks : List Nat),
    s.fab.aborting = before ++ (ctx, group, ks) :: after → (∀ a ∈ before ++ after, a.2.2 ≠ [] ∧ (a.1, a.2.1) ≠ (ctx, group)) →
    exec (.abortAck src ctx group) s = .next (s.withFab { s.fab with aborting := before ++
      (if (ks.filter fun k => k ≠ src) = [] then [] else [(ctx, group, ks.filter fun k => k ≠ src)]) ++ after })))

namespace Sys2Proof.Claim
open Sys2Proof Sys2Proof.Machine

/-- A port's event leaves everything but the port, and the list of what was sent, as it was. -/
def PortOnly (s t : State) (i : Nat) : Prop :=
  t.mem = s.mem ∧ t.cores = s.cores ∧ t.bays = s.bays ∧ t.dies = s.dies ∧ t.sys = s.sys ∧ t.fab.peer = s.fab.peer ∧
    ∀ j, j ≠ i → t.port j = s.port j

/-- The number the port acknowledges. -/
def acks (p : Port) : Nat := (p.expect - 1).toNat

/-- Nothing is outstanding to any package. -/
def Idle (s : State) : Prop := (∀ e ∈ s.cores, e.2.mem.remote = []) ∧ ∀ e ∈ s.bays, e.2.jobs = []

end Sys2Proof.Claim

/-- 16 R417 to R419, R421, R423, R427: at a flit boundary an up port sends a control flit first, then a replayed one, then, while fewer than 64 flits
(16 on a bridge between dies) are unacknowledged, the next flit of the urgent, else the request, else the bulk class, and of bulk once 15 flit times
have passed without it; it is numbered, checked, sent with its parity trailer (R422), and kept. Replayed flits first, a replay request as round 3, and
bridge ports from 24 on are the model's reading (log 73). An acknowledgement frees every flit up to its SEQ; a receiver silent for 32 flit times sends
one. A parity request is answered with its round's symbols; a replay request has every flit from its SEQ sent again.

16 R414, R420 to R424: a flit that passes its check and has the SEQ expected joins its class's packet, and one with another SEQ is dropped; a
packet complete goes to what it names. A flit that cannot be corrected is kept and its first round of parity asked for; the answer is tried with it,
and then the next round, and then a replay. A request without an answer for 128 flit times is sent again. A port not up takes nothing; a control flit
of a reserved CTYPE is ignored. What comes by a bridge is left to the die that applies it (05 R137; log 73).

16 R425 to R427, R432; 05 R127, R143: a port that loses its lock trains. Trained again with the same neighbour it sends again what is not
acknowledged; with another life of the neighbour it starts from SEQ 0, and the peer's entry takes the state up and the incarnation. A port that has
trained for 1,050,000 cycles is down: what it holds is discarded, and a package that no port leads to any more is set down. A bridge between dies
trains with its own life, and never falls. -/
def Obligations.LinkPorts : Prop :=
  (
  ∀ (s : State) (i : Nat),
    let p := s.port i
    let cap := if 24 ≤ i ∧ i < 40 ∧ (i - 24) / 4 ≠ (i - 24) % 4 then 16 else 64
    let sends := fun (e : Instr) (f : BitVec 1024) (q : Port → Prop) =>
      ∃ t, exec e s = .next t ∧ PortOnly s t i ∧ t.fab.sent = s.fab.sent ++ [.flit i f (baseParity f)] ∧ q (t.port i) ∧ (t.port i).quiet = 0 ∧ (t.port i).up = true
    (p.up = false → exec (.flitBoundary i) s = .next s) ∧
    (p.up = true →
      (∀ f fs, p.control = f :: fs → sends (.flitBoundary i) (sealFlit f 0 (acks p) true) fun q => q.control = fs ∧ q.out = p.out ∧ q.retry = p.retry ∧ q.nextSeq = p.nextSeq) ∧
      (∀ f fs, p.control = [] → p.resend = f :: fs → sends (.flitBoundary i) f fun q => q.resend = fs ∧ q.out = p.out ∧ q.retry = p.retry ∧ q.nextSeq = p.nextSeq) ∧
      (p.control = [] → p.resend = [] → cap ≤ p.retry.length → ∃ t, exec (.flitBoundary i) s = .next t ∧ PortOnly s t i ∧ t.fab.sent = s.fab.sent ∧
        (t.port i).quiet = p.quiet + 1 ∧ (t.port i).noBulk = p.noBulk + 1 ∧ (t.port i).out = p.out) ∧
      (∀ k g gs more, p.control = [] → p.resend = [] → p.retry.length < cap → k < 3 → vget [] p.out k = { flits := g :: gs } :: more →
        ((k = 0 ∧ 15 ≤ p.noBulk) ∨ (p.noBulk < 15 ∧ ∀ j, k < j → j < 3 → vget [] p.out j = [])) →
        let f := sealFlit g p.nextSeq.toNat (acks p) true
        sends (.flitBoundary i) f (fun q => q.nextSeq = p.nextSeq + 1 ∧ q.retry = p.retry ++ [f] ∧ q.noBulk = (if k = 0 then 0 else p.noBulk + 1) ∧
          vget [] q.out k = (if gs = [] then more else { flits := gs, started := true } :: more) ∧ ∀ j < 3, j ≠ k → vget [] q.out j = vget [] p.out j) ∧
        (k = 0 → 15 ≤ p.noBulk → sends (.bulkFloorFlit i) f fun q => q.nextSeq = p.nextSeq + 1 ∧ q.retry = p.retry ++ [f] ∧ q.noBulk = 0))) ∧
    (p.noBulk < 15 → exec (.bulkFloorFlit i) s = .next s) ∧
    (∀ g gs more, p.up = true → 15 ≤ p.noBulk → p.control = [] → p.resend = [] → p.retry.length < cap → vget [] p.out 0 = { flits := g :: gs } :: more →
      ∃ t, exec (.bulkFloorFlit i) s = .next t ∧ PortOnly s t i ∧ (t.port i).nextSeq = p.nextSeq + 1 ∧ (t.port i).noBulk = 0) ∧
    (∀ (seq : Byte) before f after, p.retry = before ++ f :: after → flitSeq f = seq.toNat → (∀ x ∈ before, flitSeq x ≠ seq.toNat) → p.resend = [] →
      ∃ t, exec (.linkAck i seq) s = .next t ∧ PortOnly s t i ∧ t.fab.sent = s.fab.sent ∧ t.port i = { p with retry := after }) ∧
    (p.up = true → (32 ≤ p.quiet → exec (.ackIdleTimeout i) s = .next (s.putPort i { p with control := p.control ++ [controlFlit 0 0 0 0] })) ∧
      (p.quiet < 32 → exec (.ackIdleTimeout i) s = .next s)) ∧
    (∀ (seq : Byte) (round : BitVec 2) before f after, p.retry = before ++ f :: after → flitSeq f = seq.toNat → (∀ x ∈ before, flitSeq x ≠ seq.toNat) →
      exec (.linkReplayRequest i seq) s = .next (s.putPort i { p with resend := f :: after }) ∧
      (round = 1 ∨ round = 2 → exec (.linkParityRequest i seq round) s = .next (s.putPort i
        { p with control := p.control ++ [controlFlit 2 seq.toNat round.toNat (answerSymbols f round.toNat)] })))) ∧
  (
  ∀ (s : State) (i : Nat),
    let p := s.port i
    let asks := fun (q : Port) (d : BitVec 1024 × Nat × List Nat) (f : BitVec 1024) =>
      q.damaged = some d ∧ q.control = p.control ++ [f] ∧ q.expect = p.expect ∧ q.reqTime = 0
    (∀ f par, p.up = false → exec (.flitReceive i f par) s = .next s) ∧
    (∀ f par, p.up = true → p.damaged = none → crcOk f = true → flitClass f < 3 → flitAv f = false → flitCirc f = false →
      (flitSeq f ≠ p.expect.toNat → ∃ t, exec (.flitReceive i f par) s = .next t ∧ PortOnly s t i ∧ t.port i = p ∧ t.fab.sent = s.fab.sent) ∧
      (flitSeq f = p.expect.toNat →
        (flitPos f = 1 → vget [] p.slots (flitClass f) = [] → ∃ t, exec (.flitReceive i f par) s = .next t ∧ PortOnly s t i ∧
          (t.port i).expect = p.expect + 1 ∧ vget [] (t.port i).slots (flitClass f) = [f] ∧ (t.port i).control = p.control) ∧
        (flitPos f = 0 → vget [] p.slots (flitClass f) ≠ [] → ∃ t, exec (.flitReceive i f par) s = .next t ∧ PortOnly s t i ∧
          (t.port i).expect = p.expect + 1 ∧ vget [] (t.port i).slots (flitClass f) = vget [] p.slots (flitClass f) ++ [f]) ∧
        (∀ bs r, flitPos f = 3 → vget [] p.slots (flitClass f) = [] → wholePacket [f] = some bs → packetOf bs = some (selfPkg s, .response r) →
          ∃ u, exec (.flitReceive i f par) s = .next (if 24 ≤ i ∧ i < 40 ∧ (i - 24) / 4 ≠ (i - 24) % 4 then u else u.takeResponse r) ∧ PortOnly s u i ∧
            (u.port i).expect = p.expect + 1 ∧ vget [] (u.port i).slots (flitClass f) = []))) ∧
    (∀ f par, p.up = true → crcOk f = true → flitClass f = 3 → 3 < flitByte f 4 % 16 → exec (.flitReceive i f par) s = .next s) ∧
    (∀ f par, p.up = true → p.damaged = none → flitClass f < 3 → recover f (trailerSymbols par) = none →
      ∃ t, exec (.flitReceive i f par) s = .next t ∧ PortOnly s t i ∧ asks (t.port i) (f, 1, trailerSymbols par) (controlFlit 1 p.expect.toNat 1 0)) ∧
    (∀ f symbols (round : BitVec 2) (more : BitVec 160), p.damaged = some (f, round.toNat, symbols) → round = 1 ∨ round = 2 →
      let all := symbols ++ elemsOf 10 (8 * 2 ^ round.toNat - 8 * 2 ^ (round.toNat - 1)) more.toNat
      (round = 1 → recover f all = none → ∃ t, exec (.linkParityAnswer i p.expect round more) s = .next t ∧ PortOnly s t i ∧
        asks (t.port i) (f, 2, all) (controlFlit 1 p.expect.toNat 2 0)) ∧
      (round = 2 → recover f all = none → p.replays < 2 → ∃ t, exec (.linkParityAnswer i p.expect round more) s = .next t ∧ PortOnly s t i ∧
        asks (t.port i) (f, 3, all) (controlFlit 3 p.expect.toNat 0 0) ∧ (t.port i).replays = p.replays + 1) ∧
      (round = 2 → recover f all = none → 2 ≤ p.replays → ∃ t, exec (.linkParityAnswer i p.expect round more) s = .next t ∧ PortOnly s t i ∧
        (t.port i).up = false ∧ (t.port i).training = true) ∧
      (∀ g, recover f all = some g → flitAv g = false → flitCirc g = false → flitSeq g = p.expect.toNat → flitPos g = 1 → flitClass g < 3 →
        vget [] p.slots (flitClass g) = [] → p.heldBack = [] → ∃ t, exec (.linkParityAnswer i p.expect round more) s = .next t ∧ PortOnly s t i ∧
          (t.port i).damaged = none ∧ (t.port i).expect = p.expect + 1 ∧ vget [] (t.port i).slots (flitClass g) = [g])) ∧
    (∀ f r symbols, p.up = true → p.damaged = some (f, r, symbols) →
      (128 ≤ p.reqTime → exec (.parityRequestTimeout i) s = .next (s.putPort i { p with reqTime := 0, control := p.control ++
        [if r = 3 then controlFlit 3 p.expect.toNat 0 0 else controlFlit 1 p.expect.toNat r 0] })) ∧
      (p.reqTime < 128 → exec (.parityRequestTimeout i) s = .next s))) ∧
  (
  ∀ (s : State) (i : Nat) (inc : W16),
    let p := s.port i
    let x := neighbourOf (selfPkg s) (i / 4)
    (p.up = true → exec (.laneLockLoss i) s = .next (s.putPort i { p with up := false, training := true, since := s.sys.pkgCycle.toNat })) ∧
    (p.up = false → exec (.laneLockLoss i) s = .next s) ∧
    (p.up = false → i < 24 → selfInc s ≠ 0 →
      (p.neighbour = inc → peerWord s x = inc.toNat * 2 ^ 48 + 1 → exec (.linkTrainingComplete i inc) s = .next (s.putPort i
        { p with resend := p.retry, up := true, training := false, quiet := 0, reqTime := 0 })) ∧
      (p.neighbour ≠ inc → Idle s → x < 64 → ∃ t, exec (.linkTrainingComplete i inc) s = .next t ∧ t.mem = s.mem ∧ t.cores = s.cores ∧
        vget 0 t.fab.peer x = BitVec.ofNat 64 (inc.toNat * 2 ^ 48 + 1) ∧ (t.port i).up = true ∧ (t.port i).nextSeq = 0 ∧ (t.port i).expect = 0 ∧
        (t.port i).retry = [] ∧ (t.port i).neighbour = inc)) ∧
    (p.up = false → 24 ≤ i → i < 40 → (i - 24) / 4 ≠ (i - 24) % 4 → p.neighbour = inc → inc = selfInc s → inc ≠ 0 →
      exec (.linkTrainingComplete i inc) s = .next (s.putPort i { p with resend := p.retry, up := true, training := false, quiet := 0, reqTime := 0 }) ∧
        exec (.portDown i) s = .next s) ∧
    (p.up = false → p.training = true → i < 24 → p.since + 1050000 ≤ s.sys.pkgCycle.toNat →
      ((∀ k < 64, k ≠ selfPkg s → peerWord s k % 4 ≠ 1) → exec (.portDown i) s = .next (s.putPort i { neighbour := p.neighbour, training := false, since := p.since, noBulk := p.noBulk })) ∧
      (∀ k < 64, k ≠ selfPkg s → peerWord s k % 4 = 1 → Idle s → (∀ j < 24, j ≠ i → (s.port j).isDown = true) →
        ∃ t, exec (.portDown i) s = .next t ∧ t.mem = s.mem ∧ peerWord t k = (peerInc s k).toNat * 2 ^ 48 ∧ (t.port i).isDown = true)) ∧
    (s.sys.pkgCycle.toNat < p.since + 1050000 → exec (.portDown i) s = .next s))

namespace Sys2Proof.Claim
open Sys2Proof Sys2Proof.Machine

/-- A posted receive that a packet of a message may go to: its message is not over, it has not had this packet, and the peer and, where the message
has one, the tag are its own. -/
def Awaits (d : UeDesc) (peer : Nat) (tag : Option W64) (index : Nat) : Prop :=
  d.recv = true ∧ d.total ≠ some d.got.length ∧ index ∉ d.got ∧ (d.words.getD 0 0).toNat / 2 ^ 32 % 2 ^ 16 = peer ∧ ∀ v, tag = some v → d.words.getD 2 0 = v

end Sys2Proof.Claim

/-- 16 R429 to R431: a packet from the network goes to the oldest posted receive that awaits it, of its peer and, where its message has one, its tag,
at its own place in the message's buffer in whatever order the packets come, and one that no receive awaits is dropped. When a message is over its
completion record says how, how many bytes moved, the peer and the tag, and its slot is free. An acknowledged packet is waited for no more; a send is
over once every packet is, and one that ends before counts the bytes acknowledged. The record's address drops its low five bits, and which message a
packet belongs to, are the model's (logs 36, 101). -/
def Obligations.NetworkEngine : Prop :=
  ∀ (s : State) (ep : Nat) (e : Endpoint), s.endpoint? ep = some e →
    (∀ d m peer (tag : Option W64) index (payload : List Byte) (last : Bool) before after, peer < e.peers → e.descs = before ++ d :: after →
      Awaits d peer tag index → (∀ x ∈ before, ¬ Awaits x peer tag index) → d ∉ after → payload ≠ [] → payload.length ≤ 4096 →
      4096 * index + payload.length ≤ (d.words.getD 0 0).toNat % 2 ^ 32 →
      s.vaPost d.ctx .jobWrite ((d.words.getD 1 0).toNat + 4096 * index) payload = s.withMem m →
      ∃ t, exec (.uePacketReceive ep peer tag ⟨index, payload⟩ last) s = .next t ∧ t.mem = m ∧ t.bays = s.bays ∧
        t.endpoint? ep = some { e with descs := before ++ { d with pkts := d.pkts + 1, bytes := d.bytes + payload.length, got := d.got ++ [index],
                                                                    total := if last then some (index + 1) else d.total } :: after }) ∧
    (∀ peer (tag : Option W64) index (payload : List Byte) (last : Bool), e.peers ≤ peer ∨ (∀ d ∈ e.descs, ¬ Awaits d peer tag index) →
      exec (.uePacketReceive ep peer tag ⟨index, payload⟩ last) s = .next s) ∧
    (∀ d before after, e.descs = before ++ d :: after → (∀ x ∈ before, x.recv ≠ d.recv ∨ x.slot ≠ d.slot) → d ∉ before ++ after → e.destroying = none →
      let s1 := s.putEndpoint ep { e with descs := before ++ after }
      let record := (d.words.getD 3 0).toNat % 2 ^ 56 / 32 * 32
      let written := fun (status : Nat) => s1.vaPost d.ctx .jobWrite record (bytesOf 8 status ++
        bytesOf 8 (d.bytes - (d.unacked.map fun k => min 4096 (d.bytes - 4096 * (k - d.first))).sum) ++
        bytesOf 8 ((d.words.getD 0 0).toNat / 2 ^ 32 % 2 ^ 16) ++ bytesOf 8 (d.words.getD 2 0).toNat)
      let ends := fun (status : BitVec 2) => ∃ t, exec (.ueMessageComplete ep d.recv d.slot status) s = .next t ∧ t.mem = (written status.toNat).mem ∧
        t.endpoint? ep = some { e with descs := before ++ after }
      (d.recv = true → d.total = some d.got.length → ends 0) ∧ (d.recv = true → d.total ≠ some d.got.length → exec (.ueMessageComplete ep d.recv d.slot 0) s = .next s) ∧
      (d.recv = false → d.unacked = [] → ends 0) ∧ (d.recv = false → d.unacked ≠ [] → exec (.ueMessageComplete ep d.recv d.slot 0) s = .next s) ∧
      (d.recv = false → ends 1)) ∧
    (∀ k, exec (.uePacketAcknowledge ep k) s = .next (s.putEndpoint ep
      { e with descs := e.descs.map fun d => { d with unacked := d.unacked.filter fun x => x ≠ k } }))

namespace Sys2Proof.Claim
open Sys2Proof Sys2Proof.Machine

/-- No work of any task is in hand: no task on a core or waiting for one, no nest, no graph, no job. -/
def Quiet (s : State) : Prop :=
  s.nests = [] ∧ s.graphs = [] ∧ (∀ e ∈ s.bays, e.2.jobs = [] ∧ e.2.nodeCmds = []) ∧ (∀ u ∈ s.units, ∀ g ∈ u.2, g.held = []) ∧
    ∀ e ∈ s.cores, e.2.mem.drops = [] ∧ e.2.sys.prefetch = [] ∧ e.2.mem.remote = [] ∧ e.2.mem.transit = [] ∧ e.2.mem.refused = [] ∧ e.2.mem.opens = [] ∧ e.2.mem.closes = []

/-- The eight words of a curtain record (13 R365). -/
def curtain (id : W16) (sc : Scope) (frame : W64) : List Nat :=
  [id.toNat * 2 ^ 48 + sc.cause.code * 2 ^ 40 + (if sc.swept then 2 ^ 33 else 0), sc.purged * 2 ^ 32 + sc.killed, sc.cancelled * 2 ^ 32 + sc.pruned,
    frame.toNat, sc.drops * 2 ^ 32 + sc.dropped, 0, 0, 0]

end Sys2Proof.Claim

/-- 13 R341, R342, R346 to R349, R359, R360, R364: a firing that waited for a scope index takes a freed one: the node is READY under a new scope of
its own. The READY node fired first that has no slot takes one. The walker puts a nest's next task, with the indices of its place in the walk, into a
free one of the callboard's 8,192 entries. A callboard serves the ready work of the highest priority: a nest's oldest task goes to a free core of its
domain; a host callback is posted to the host, a copy node to the bay of its anchor. Graphs of one level take turns, each after the one that its level
served last. A callboard gives its scope indices in turn (log 98), and the walker produces one task of each open nest before each dispatch: the
model's choices (logs 98, 84). A step that meets a host-owned page or a slice asleep waits (01 R40; 02 R70). -/
def Obligations.CallboardsHandOutWork : Prop :=
  (∀ (s : State) (die g i : Nat) (rest : List (Nat × Nat)) (x : Graph) (id : W16) (ws : List W64), Unheld s → (s.die die).creations = (g, i) :: rest →
    (s.reap.freeScope die = none → exec (.scopeCreate die) s = .next s) ∧
    (s.graph? g = some x → x.die = die → (s.node g i).status = 0 → x.settled = none →
      let s0 := s.putDie die { s.die die with creations := rest }
      let s1 := (s0.reap.giveScope die id).putScope id { ctx := x.ctx, parent := some x.scope, curtain := some (nodeCurtain x i) }
      s.reap.freeScope die = some id → s0.reap.freeScope die = some id → s1.vaWords x.ctx (x.nodeVa i) 16 = .ok ws → nodeMalformed i ws = false → nodeKind (wordAt ws 0) ≠ 0 →
      nodeAudit (wordAt ws 0) = false → (s1.readyNode g i id ws []).blocked = none →
      ∃ t, exec (.scopeCreate die) s = .next t ∧ (t.node g i).status = 1 ∧ (t.node g i).scope = some id ∧ (t.node g i).words = ws ∧
        (g, i) ∈ (t.die die).ready ∧ (t.die die).creations = rest ∧ t.cores = s.cores ∧
        ∃ sc, t.scope? id = some sc ∧ sc.ctx = x.ctx ∧ sc.parent = some x.scope ∧ sc.curtain = some (nodeCurtain x i) ∧ sc.killing = false)) ∧
  (∀ (s : State) (die g i : Nat) (x : Graph) (before after : List (Nat × Nat)), (s.die die).ready = before ++ (g, i) :: after →
    (∀ e ∈ before, (s.node e.1 e.2).status ≠ 1 ∨ (s.node e.1 e.2).slot = true) → (s.node g i).status = 1 → (s.node g i).slot = false → s.graph? g = some x →
    (slotsUsed s x.die < 4096 → exec (.nodeSlotAssign die) s = .next (s.putNode g i { s.node g i with slot := true })) ∧
    (4096 ≤ slotsUsed s x.die → exec (.nodeSlotAssign die) s = .next s)) ∧
  (∀ (s : State) (die k core : Nat) (n : Nest), Unheld s → s.nests = [(k, n)] → (s.die die).ready = [] → n.node = none → n.owner = none →
    n.anchor / 288 = die → nestOpen s n = true → n.capFree = true → n.requeued = [] → n.next < n.total → n.queued.length < 8192 →
    let t := nestTask s n k
    let head := n.queued.headD t
    (podMember s n head = true → freeCore s n.domain n.anchor n.lastCore head.ringBay = some core → head.audit = false →
      ∃ u, exec (.taskDispatch die) s = .next u ∧ (u.core core).sys.prefetch = (s.core core).sys.prefetch ++ [head] ∧ u.mem = s.mem ∧
        Map.find? u.nests k = some { n with out := n.out + 1, lastCore := some core, next := n.next + 1, queued := (n.queued ++ [t]).tail } ∧
        (u.die die).rrGraph = (s.die die).rrGraph.setIfInBounds (nestPrio s n) n.graph ∧ (∀ m, m ≠ core → u.core m = s.core m)) ∧
    (podMember s n head = true → freeCore s n.domain n.anchor n.lastCore head.ringBay = none →
      exec (.taskDispatch die) s = .next (s.putNest k { n with next := n.next + 1, queued := n.queued ++ [t] })) ∧
    t.tid = BitVec.ofNat 32 n.next ∧ t.scope = n.scope ∧ t.arg = n.desc.getD 2 0 ∧ t.index = nestIndices n.desc n.next) ∧
  (∀ (s : State) (die g i p : Nat) (x : Graph), Unheld s → s.nests = [] → (s.putStatus g i 2).blocked = none → readyWork s die = [(g, p, .node g i)] → s.graph? g = some x → nodeOpen s g i = true →
    let n := s.node g i
    let ends := fun (u : State) => exec (.taskDispatch die) s = .next (u.putDie die { u.die die with rrGraph := (u.die die).rrGraph.setIfInBounds p g })
    (nodeKind (n.w 0) = 3 → ends ((s.putStatus g i 2).postUp 2 0x081 [x.ctx.toNat, x.va.toNat, i, n.w 12])) ∧
    (nodeKind (n.w 0) = 2 → ∃ u, ends u ∧ (u.node g i).status = 2 ∧
      (u.bay (x.anchor / 4)).nodeCmds = (s.bay (x.anchor / 4)).nodeCmds ++ 
        [{ graph := g, node := i, pb := BitVec.ofNat 64 (n.w 12), ctx := x.ctx, scope := n.scope.getD x.scope }])) ∧
  (∀ rr ws w, pickWork rr ws = some w → w ∈ ws ∧ (∀ v ∈ ws, v.2.1 ≤ w.2.1) ∧
    let last := vget 0 rr w.2.1
    ∀ v ∈ ws, v.2.1 = w.2.1 → ¬ ((last < v.1 ∧ w.1 ≤ last) ∨ ((last < v.1 ↔ last < w.1) ∧ v.1 < w.1))) ∧
  (∀ (ws : List W64) (t : Nat), (ws.getD 0 0).extractLsb' 53 6 = 0 → nestLoops ws ≤ 4 → (∀ i < 4, 0 < nestExtent ws i) →
    let e := nestExtent ws
    let at_ := fun (i n : Nat) => BitVec.ofInt 64 ((n : Int) * nestStep ws i)
    nestIndices ws t = [at_ 0 (t / (e 1 * e 2 * e 3) % e 0), at_ 1 (t / (e 2 * e 3) % e 1), at_ 2 (t / e 3 % e 2), at_ 3 (t % e 3)])

/-- 13 R364 to R366; 04 R123, R124: a kill of a live scope is recorded, and what waits of its subtree is taken off: a task in a prefetch buffer is
purged and counted. The running task ends at its kill point, once nothing synchronous of it is in flight, nor a `ref.exec` whose writes to other
packages are not answered (03 R92), and is counted: as killed if a lane of it has issued, else as purged (13 R370). When nothing of the subtree is
left, its curtain is written: scope, cause, counts and FRAME. -/
def Obligations.KillsEndInACurtain : Prop :=
  (∀ (s : State) (id : W16) (sc : Scope), Unheld s → s.scopes = [(id.toNat, sc)] → sc.killing = false → sc.written = false → sc.parent = none →
    (∀ ctx : W16, ctx ≠ sc.ctx → exec (.killForward id ctx) s = .next s) ∧
    (Quiet s → ∃ t, exec (.killForward id sc.ctx) s = .next t ∧ t.mem = s.mem ∧ t.cores = s.cores ∧
      t.scope? id = some { sc with killing := true, cause := .killed }) ∧
    (∀ n c k, s.nests = [] → s.graphs = [] → (∀ e ∈ s.bays, e.2.nodeCmds = []) → s.cores = [(n, c)] → c.sys.prefetch = [k] → k.scope = id →
      k.area = none → k.block = none → k.nest = none → ∃ t, exec (.killForward id sc.ctx) s = .next t ∧ t.mem = s.mem ∧
        (t.core n).sys.prefetch = [] ∧ (t.core n).regs = c.regs ∧
        t.scope? id = some { sc with killing := true, cause := .killed, purged := sc.purged + 1 })) ∧
  (∀ (s : State) (n : Nat) (k : Task), Unheld s → (s.core n).sys.task = some k → (s.core n).mem.drops = [] →
    let busy := (∃ cl, ∃ f ∈ (s.cluster n cl).flights, f.kind = .sync) ∨ (∃ f ∈ (s.cluster n .K).flights, f.kind = .remote) ∨ (s.core n).cmds ≠ []
    (s.dying k.scope = false ∨ busy → exec (.killPoint n) s = .next s) ∧
    (∀ id sc, ¬ busy → s.scopes = [(id, sc)] → id = k.scope.toNat → sc.killing = true → sc.written = false → sc.parent = none → Quiet s →
      k.block = none → k.nest = none → k.area = none → k.saved = [] → NoLease s n → NoReceives s k → (s.core n).debugPending = 0 →
      (s.core n).mem.weirs = [] → (s.core n).mem.parts = [] →
      ∃ t, exec (.killPoint n) s = .next t ∧ Vacated s t n ∧ t.mem = s.mem ∧ (∀ m, m ≠ n → t.core m = s.core m) ∧

        ((∃ cl, (s.cluster n cl).iseq ≠ 0) → t.scope? k.scope = some { sc with
          killed := sc.killed + 1, dropped := sc.dropped + ((s.core n).mem.streamL.length + (s.core n).mem.streamS.length) }) ∧
        ((∀ cl, (s.cluster n cl).iseq = 0) → t.scope? k.scope = some { sc with purged := sc.purged + 1 }))) ∧
  (∀ (s : State) (id : W16) (sc : Scope), Unheld s → s.scopes = [(id.toNat, sc)] → Quiet s → (∀ e ∈ s.cores, e.2.sys.task = none) →
    (sc.killing = false ∨ sc.written = true → exec (.curtainWrite id) s = .next s) ∧
    (∀ va, sc.killing = true → sc.written = false → sc.curtain = some va →
      let u := s.vaWrite sc.ctx (.store 8) va.toNat (bytesOf 64 (joinNat 64 (curtain id sc s.sys.frame)))
      u.blocked = none → ∃ t, exec (.curtainWrite id) s = .next t ∧ t.mem = u.mem ∧
      t.scope? id = some { sc with written := true }))

/-- 13 R360, R361; 09 R255; 14 R372: a node that has waited AGE_LIMIT ticks without a dispatch is raised one level, never above 2; one whose RELEASE
time has come is released. FRAME counts once every 256 cycles, and does not while a node of a deterministic graph that has passed its DEADLINE is not
terminal: that node is marked late once, with an entry of its graph's fault queue, of KIND 1 and cause TIMETABLE_SLIP; each tick that it stalls adds 1
to its SLIP. The zeros in that entry's task, TRAPINFO and lane are the model's reading (log 45), as is when a tick falls (log 51).

13 R367, R369: work that has waited 256 cycles for a core parks the graph of the lowest priority that runs in its domain below its own; a parking
graph is PARKED, with its GSTAT, once none of its tasks is on a core; and the graph the callboard parked first runs again after 256 cycles in which it
could, counted afresh whenever it could not. That the 256 cycles count from the first dispatch that found no free core is the model's reading (log
52). -/
def Obligations.DeadlinesAndParking : Prop :=
  (
  (∀ (s : State) (g i : Nat) (x : Graph), s.graph? g = some x →
    let n := s.node g i
    let limit := (s.die x.die).ageLimit.toNat
    let now := s.sys.frame.toNat
    ((n.status = 1 ∨ n.status = 2) → limit ≠ 0 → n.raised < 2 → n.lastTick + limit ≤ now →
      exec (.agePromotion g i) s = .next (s.putNode g i { n with raised := n.raised + 1, lastTick := n.lastTick + limit })) ∧
    (limit = 0 ∨ 2 ≤ n.raised ∨ now < n.lastTick + limit → exec (.agePromotion g i) s = .next s) ∧
    (n.status = 1 → n.released = false → n.w 3 ≤ now → exec (.nodeReleaseTime g i) s = .next (s.putNode g i { n with released := true })) ∧
    (now < n.w 3 → exec (.nodeReleaseTime g i) s = .next s)) ∧
  (∀ (s : State), s.graphs = [] → s.sys.late = [] →
    exec .deadlineStall s = .next s ∧
    (256 * (s.sys.ticks + 1) ≤ s.sys.pkgCycle.toNat →
      exec .frameTick s = .next (s.withSys { s.sys with ticks := s.sys.ticks + 1, frame := s.sys.frame + 1 })) ∧
    (s.sys.pkgCycle.toNat < 256 * (s.sys.ticks + 1) → exec .frameTick s = .next s)) ∧
  (∀ (s : State) (g i : Nat) (x : Graph) (n : NodeSt), s.graphs = [(g, x)] → x.nodes = [(i, n)] → x.det = true → x.settled = none →
    n.w 4 ≠ 0 → n.w 4 ≤ s.sys.frame.toNat → n.status ≠ 3 → n.status ≠ 4 → n.status ≠ 5 →
    (n.late = false → s.sys.late = [] → ∃ t, exec .deadlineStall s = .next t ∧ (t.node g i).late = true ∧ t.sys.late = [(g, i)] ∧
      t.sys.frame = s.sys.frame ∧ t.cores = s.cores) ∧
    (∀ w, n.late = false → s.sys.late = [] → Unheld s → n.owed = 0 →
      let m := (s.putNode g i { n with late := true, owes := false }).withSys { s.sys with late := [(g, i)] }
      let count := w.toNat % 2 ^ 32
      let entry := [i % 4096 * 2 ^ 52 + 1 * 2 ^ 48 + Cause.timetableSlip.code * 2 ^ 40, 0, x.anchor * 2 ^ 53, s.sys.frame.toNat]
      let u := (m.vaWrite x.ctx (.store 8) ((x.words.getD 2 0).toNat + 32 * (count % max 1 ((x.words.getD 3 0).toNat / 2 ^ 32 % 2 ^ 16)))
        (bytesOf 32 (joinNat 64 entry))).vaStore x.ctx (x.va.toNat + 24) 8 (w.toNat / 2 ^ 32 * 2 ^ 32 + (count + 1) % 2 ^ 32)
      m.vaWords x.ctx (x.va.toNat + 24) 1 = .ok [w] → u.blocked = none → ∃ t, exec .deadlineStall s = .next t ∧ t.mem = u.mem) ∧
    (n.late = true → s.sys.late = [(g, i)] → 256 * (s.sys.ticks + 1) ≤ s.sys.pkgCycle.toNat →
      (∃ t, exec .frameTick s = .next t ∧ t.sys.frame = s.sys.frame ∧ t.sys.ticks = s.sys.ticks + 1 ∧ t.cores = s.cores) ∧
      (Unheld s → n.owes = false → n.owed = 0 →
        let u := (s.withSys { s.sys with ticks := s.sys.ticks + 1 }).vaModify x.ctx (x.nodeVa i + 88) fun w => w / 2 ^ 32 * 2 ^ 32 + (w % 2 ^ 32 + 1) % 2 ^ 32
        u.blocked = none → ∃ t, exec .frameTick s = .next t ∧ t.mem = u.mem)))) ∧
  (
  (∀ (s : State) (die : Nat),
    (parkVictim s die = none → exec (.autoPark die) s = .next s) ∧
    (∀ g, parkVictim s die = some g →
      (∃ w ∈ waitingWork s, ∃ v, w.2.2.1 / 288 = die ∧ w.2.2.2 + 256 ≤ s.sys.pkgCycle.toNat ∧ (v, g) ∈ runningOn s w.2.1 w.2.2.1 ∧ v < w.1 ∧
        ∀ q ∈ runningOn s w.2.1 w.2.2.1, v ≤ q.1) ∧
      (∀ x, s.graph? g = some x → x.settled = none → x.parking = false → x.parked = false →
        exec (.autoPark die) s = .next (s.putGraph g { x with parking := true, byCallboard := true, parkStart := s.sys.pkgCycle.toNat, quiet := none })))) ∧
  (∀ (s : State) (g : Nat) (x : Graph), s.graph? g = some x →
    (x.parking = true → x.settled = none → graphRuns s g = false → Unheld s →
      ((s.putGraph g { x with parking := false, parked := true }).putGstat g 5).blocked = none →
      exec (.graphParked g) s = .next ((s.putGraph g { x with parking := false, parked := true }).putGstat g 5)) ∧
    (x.parking = false ∨ graphRuns s g = true → exec (.graphParked g) s = .next s)) ∧
  (∀ (s : State) (g die : Nat) (x : Graph), s.graphs = [(g, x)] → x.die = die → x.byCallboard = true → x.parked = true → x.settled = none →
    let now := s.sys.pkgCycle.toNat
    (∀ q, Unheld s → (s.unpark g).blocked = none → unparkOk s x = true → x.quiet = some q → q + 256 ≤ now → ∃ t y, exec (.autoUnpark die) s = .next t ∧ t.graph? g = some y ∧
      y.parked = false ∧ y.parking = false ∧ y.byCallboard = false ∧ t.cores = s.cores) ∧
    (unparkOk s x = false ∨ x.quiet = none ∨ (∃ q, x.quiet = some q ∧ now < q + 256) → exec (.autoUnpark die) s = .next s) ∧
    (∀ dt, (s.tickTo dt).graph? g = some { x with quiet := if unparkOk s x then some (x.quiet.getD now) else none })))

namespace Sys2Proof.Claim
open Sys2Proof Sys2Proof.Machine

/-- No cluster waits for a page, nothing of the memory side does, and no endpoint is being destroyed. -/
def NothingStalled (s : State) : Prop :=
  (∀ e ∈ s.cores, ∀ cl, (e.2.cluster cl).stall = none) ∧ s.sys.heldWrites = [] ∧ ∀ e ∈ s.fab.endpoints, e.2.destroying = none

/-- The entry of a translation cache that leads from an address to a page or to a table, with its leaf, is one that a request removes: of
one page, of a context, every one, or those of a key's pages (01 R31). A table entry leads to pages of any key. -/
def Removed (r : Xinv) (ctx : W16) (base size : Nat) (leaf : Option W64) : Prop :=
  (r.kind = 0 ∧ ctx = r.ctx ∧ base ≤ r.vpn.toNat * 4096 ∧ r.vpn.toNat * 4096 < base + size) ∨ (r.kind = 1 ∧ ctx = r.ctx) ∨ r.kind = 2 ∨
    (r.kind = 3 ∧ ∀ l, leaf = some l → leafKey l.toNat = r.vpn.toNat % 1024)

/-- One cache level of the package after a removal: the same caches, each without the removed entries. -/
def Thinned {α : Type} (old new : Map (List α)) (gone : α → Prop) : Prop :=
  new.map Prod.fst = old.map Prod.fst ∧ ∀ c ∈ new, ∃ o ∈ old, o.1 = c.1 ∧ ∀ x, x ∈ c.2 ↔ x ∈ o.2 ∧ ¬gone x

end Sys2Proof.Claim

/-- 01 R31, R32; 02 R63, R64: an invalidation enters the package's FIFO of 8, or is held until one leaves; the oldest completes once nothing that used
an entry it removes is outstanding, and then exactly the cached translations and table entries it names are gone from every cache. A tag sweep enters
its die's FIFO of 4, or is held; when it completes no slice line and no slot row of the die has its context's tag, but lines written meanwhile, and
lines whose tag an error has taken.

01 R40, R41; 17 R437: the host's consent to a migration makes the page the device's and sends its invalidation, after which the clusters that wait
for the page go on; its refusal, or none in time, raises MIGRATION, subcode REFUSED, on each of them, and is told to a step of the sequencer that
waits. A reclaim gives a page back: it is the host's once its invalidation is over, and the host is answered. That a reply is for the oldest request
and one that comes late is dropped is the model's reading (log 64), as are the statuses of a reclaim (log 66). A package that has not started takes no
request (R439). -/
def Obligations.InvalidationAndMigration : Prop :=
  (
  (∀ (s : State) (e : Instr) (r : Xinv),
    ((∃ ctx vpn, e = .xinvPage ctx vpn ∧ r = { kind := 0, ctx := ctx, vpn := vpn }) ∨ (∃ ctx, e = .xinvContext ctx ∧ r = { kind := 1, ctx := ctx, vpn := 0 }) ∨
      (e = .xinvAll ∧ r = { kind := 2, ctx := 0, vpn := 0 }) ∨ (∃ key, e = .xinvKey key ∧ r = { kind := 3, ctx := 0, vpn := key.setWidth 44 })) →
    (s.sys.xinvFifo.length < 8 → s.sys.xinvHeld = [] →
      exec e s = .next (s.withSys { s.sys with xinvFifo := s.sys.xinvFifo ++ [r], xinvIssued := s.sys.xinvIssued + 1 })) ∧
    (s.sys.xinvFifo.length = 8 → exec e s = .next (s.withSys { s.sys with xinvHeld := s.sys.xinvHeld ++ [r] }))) ∧
  (∀ (s : State) (ctx : W16) (vpn : BitVec 44) (key : BitVec 10), s.sys.xinvFifo.length < 8 → s.sys.xinvHeld = [] →
    let issued := fun (kind : Nat) (c : W16) (p : BitVec 44) =>
      s.withSys { s.sys with xinvFifo := s.sys.xinvFifo ++ [{ kind := kind, ctx := c, vpn := p }], xinvIssued := s.sys.xinvIssued + 1 }
    exec (.xinvPage ctx vpn) s = .next (issued 0 ctx vpn) ∧ exec (.xinvContext ctx) s = .next (issued 1 ctx 0) ∧
      exec .xinvAll s = .next (issued 2 0 0) ∧ exec (.xinvKey key) s = .next (issued 3 0 (key.setWidth 44))) ∧
  (∀ (s : State) (r : Xinv) (rest : List Xinv),
    (s.sys.xinvHeld = r :: rest →
      (s.sys.xinvFifo.length < 8 → exec .xinvAccept s = .next (s.withSys { s.sys with xinvFifo := s.sys.xinvFifo ++ [r], xinvHeld := rest,
                                                                                       xinvIssued := s.sys.xinvIssued + 1 })) ∧
      (s.sys.xinvFifo.length = 8 → exec .xinvAccept s = .next s)) ∧
    (s.sys.xinvFifo = r :: rest →
      (r.waits s = true → exec .xinvComplete s = .next s) ∧
      (r.waits s = false → ∃ t, exec .xinvComplete s = .next t ∧ t.sys.xinvFifo = rest ∧ t.sys.xinvDone = s.sys.xinvDone + 1 ∧ t.mem = s.mem ∧
        t.cores = s.cores ∧ Thinned s.sys.tlb1 t.sys.tlb1 (fun x => Removed r x.ctx x.base x.size (some x.leaf)) ∧
        Thinned s.sys.tlb2 t.sys.tlb2 (fun x => Removed r x.ctx x.base x.size (some x.leaf)) ∧
        Thinned s.sys.walked t.sys.walked (fun w => Removed r w.ctx w.base w.size none)))) ∧
  (∀ (s : State) (die : Nat) (ctx : W16),
    let d := s.die die
    (d.sweepFifo.length < 4 → d.sweepHeld = [] → ∃ t, exec (.tagSweep die ctx) s = .next t ∧ (t.die die).sweepFifo = d.sweepFifo ++ [ctx] ∧
      (t.die die).sweepIssued = d.sweepIssued + 1 ∧ t.mem.cells = s.mem.cells ∧ t.mem.tags = s.mem.tags ∧ t.cores = s.cores) ∧
    (d.sweepFifo.length = 4 → exec (.tagSweep die ctx) s = .next (s.putDie die { d with sweepHeld := d.sweepHeld ++ [ctx] })) ∧
    (∀ rest, d.sweepHeld = ctx :: rest → d.sweepFifo.length < 4 → ∃ t, exec (.tagSweepAccept die) s = .next t ∧ (t.die die).sweepFifo = d.sweepFifo ++ [ctx] ∧
      (t.die die).sweepHeld = rest ∧ (t.die die).sweepIssued = d.sweepIssued + 1 ∧ t.mem.tags = s.mem.tags ∧ t.cores = s.cores) ∧
    (∀ rest, d.sweepHeld = ctx :: rest → d.sweepFifo.length = 4 → exec (.tagSweepAccept die) s = .next s) ∧
    (∀ rest, d.sweepFifo = ctx :: rest → ctx ≠ 0 → s.mem.wf = true → (s.mem.tags.Pairwise fun a b => a.1 < b.1) → ∃ t, exec (.tagSweepComplete die) s = .next t ∧ (t.die die).sweepFifo = rest ∧
      (t.die die).sweepDone = d.sweepDone + 1 ∧ t.mem.wf = true ∧
      (∀ u ∈ t.mem.tags, u.2 = ctx → bayOfPa u.1 / 72 = die → u.1 ∈ s.mem.during ∨ u.1 ∈ s.mem.orphan ∨ u.1 ∈ s.mem.tagLost) ∧
      (∀ e ∈ t.cores, e.1 / 288 = die → ∀ row ∈ e.2.acc, row.2.tag ≠ ctx) ∧
      (∀ n, n / 288 ≠ die → t.core n = s.core n)))) ∧
  (
  (∀ (s : State) (status : Byte) (f : Flip) (before after : List Flip), s.sys.flips = before ++ f :: after → (∀ x ∈ before, x.replied = true ∨ x.toHost = true) →
    f.replied = false → f.toHost = false → f ∉ before ++ after →
    let down := s.withHost { s.host with lastDown := s.host.lastDown + 1 }
    (f.late = true → exec (.migrationReply status) s = .next (down.withSys { down.sys with flips := before ++ after })) ∧
    (f.late = false → status = 0 → s.sys.xinvFifo.length < 8 → s.sys.xinvHeld = [] → ∃ t, exec (.migrationReply status) s = .next t ∧
      t.sys.flips = before ++ { f with replied := true } :: after ∧ t.host.lastDown = s.host.lastDown + 1 ∧ t.cores = s.cores ∧
      t.sys.xinvFifo = s.sys.xinvFifo ++ [{ kind := 0, ctx := f.ctx, vpn := BitVec.ofNat 44 (f.base.toNat / 4096), flip := true }] ∧
      t.mem = (match leafSite down f.ctx f.base.toNat with
        | some (a, e) => (replicas a e).foldl (fun m p => m.rawWrite 0 p (bytesOf 8 (setBits (m.read64 p) 6 6 1))) s.mem
        | none => s.mem)) ∧
    (∀ n c va, f.late = false → s.bays = [] → s.cores = [(n, c)] → c.k.stall = some (f.ctx, f.base.toNat, va) →
      c.l.stall = none → c.c.stall = none → c.s.stall = none → c.sys.task.isSome = true → c.sys.stop = none → c.k.stopped = none →
      let refused := fun (t : State) => (t.core n).k.stopped = some { cause := .migration, info := vaInfo 0x31 va, lseq := c.k.iseq } ∧ t.mem = s.mem ∧
        t.sys.refused = s.sys.refused ++ (if f.queued then [(f.ctx, f.base.toNat)] else [])
      (status ≠ 0 → ∃ t, exec (.migrationReply status) s = .next t ∧ refused t ∧ t.sys.flips = before ++ after) ∧
      ((∀ x ∈ before, x.replied = true ∨ x.toHost = true ∨ x.late = true) → ∃ t, exec .migrationTimeout s = .next t ∧ refused t ∧
        t.sys.flips = before ++ { f with late := true } :: after))) ∧
  (∀ (s : State) (f : Flip) (before after : List Flip), s.sys.flips = before ++ f :: after → (∀ x ∈ before, x.replied = false) → f ∉ before → f.replied = true →
    (∀ x ∈ s.sys.xinvFifo ++ s.sys.xinvHeld, x.ctx ≠ f.ctx ∨ x.vpn ≠ BitVec.ofNat 44 (f.base.toNat / 4096)) →
    let gone := s.withSys { s.sys with flips := before ++ after }
    (f.toHost = false → NothingStalled s → exec .migrationFlipComplete s = .next gone) ∧
    (∀ n c va, f.toHost = false → s.sys.heldWrites = [] → s.cores = [(n, c)] → c.k.stall = some (f.ctx, f.base.toNat, va) →
      ∃ t, exec .migrationFlipComplete s = .next t ∧ (t.core n).k.stall = none ∧ t.mem = s.mem ∧ t.sys.flips = before ++ after) ∧
    (f.toHost = true → NothingStalled s → exec .pageReclaimComplete s = .next (gone.reply 0x041 0 0 []))) ∧
  (∀ (s : State) (seq : W32) (ctx : W16) (va : W64) (sz : BitVec 4), seq = s.host.lastDown + 1 →
    (s.host.booted = false → exec (.pageReclaim seq ctx va sz) s = .next s) ∧ (s.host.booted = true →
    let down := s.withHost { s.host with lastDown := seq }
    (12 ≤ sz.toNat → exec (.pageReclaim seq ctx va sz) s = .next (down.reply 0x041 2 0 [])) ∧
    (sz.toNat < 12 → (∃ f ∈ s.sys.flips, f.ctx = ctx ∧ f.base = va ∧ f.late = false) → exec (.pageReclaim seq ctx va sz) s = .next s) ∧
    (sz.toNat < 12 → (∀ f ∈ s.sys.flips, f.ctx ≠ ctx ∨ f.base ≠ va ∨ f.late = true) →
      (mayReclaim down ctx va.toNat sz.toNat = false → exec (.pageReclaim seq ctx va sz) s = .next (down.reply 0x041 1 0 [])) ∧
      (mayReclaim down ctx va.toNat sz.toNat = true → s.sys.xinvFifo.length < 8 → s.sys.xinvHeld = [] → ∃ t, exec (.pageReclaim seq ctx va sz) s = .next t ∧
        t.sys.xinvFifo = s.sys.xinvFifo ++ [{ kind := 0, ctx := ctx, vpn := BitVec.ofNat 44 (va.toNat / 4096), reclaim := true }] ∧
        (∃ f, t.sys.flips = s.sys.flips ++ [f] ∧ f.ctx = ctx ∧ f.base = va ∧ f.toHost = true ∧ f.replied = true) ∧ t.cores = s.cores ∧ t.host = down.host)))))

namespace Sys2Proof.Claim
open Sys2Proof Sys2Proof.Machine

/-- The router of a bay. -/
def routerAt (s : State) (b : Nat) : Router := Map.get {} s.routers b

/-- Output o's field of a slot-table entry: its valid bit and its input code (02 R53). -/
def outputValid (w : Nat) (o : Nat) : Bool := w.testBit (4 * o + 3)
def outputFrom (w : Nat) (o : Nat) : Nat := w / 2 ^ (4 * o) % 8

/-- Whether the router of bay b of its die has the port of a code: rows of nine bays, north to south (02 R52, R53; log 38). -/
def portExists (b p : Nat) : Prop :=
  (p = 0 ∧ 9 ≤ b) ∨ (p = 1 ∧ b % 9 ≠ 8) ∨ (p = 2 ∧ b < 63) ∨ (p = 3 ∧ b % 9 ≠ 0) ∨ p = 4 ∨ (p = 5 ∧ b = 40)

/-- A valid entry, as 02 R53 defines it. -/
def EntryValid (b w : Nat) : Prop :=
  ∀ o < 6, outputValid w o = true → portExists b (outputFrom w o) ∧ outputFrom w o ≠ o ∧ (o = 5 → b = 40) ∧
    ∀ o' < 6, o' ≠ o → outputValid w o' = true → outputFrom w o' ≠ outputFrom w o

/-- Every entry of the staged bank is valid. -/
def StagedValid (b : Nat) (r : Router) : Prop :=
  ∀ k < 256, EntryValid b (Map.get 0 r.table ((if r.ctl.getLsbD 1 then 0 else 1) * 256 + k)).toNat

/-- One record in a die's error log (02 R69). -/
def recorded (s : State) (die : Nat) (ctx : W16) (array kind loc : Nat) : State :=
  s.putDie die { s.die die with
    errlog := Map.set (s.die die).errlog ((s.die die).errHead.toNat % 64)
      (BitVec.ofNat 64 (ctx.toNat * 2 ^ 48 + array * 2 ^ 40 + kind * 2 ^ 32 + s.sys.frame.toNat % 2 ^ 32), BitVec.ofNat 64 loc)
    errHead := (s.die die).errHead + 1 }

/-- No write waits for a page or a slice, and no endpoint is being destroyed. -/
def NothingHeld (s : State) : Prop := s.sys.heldWrites = [] ∧ ∀ e ∈ s.fab.endpoints, e.2.destroying = none

end Sys2Proof.Claim

/-- 02 R53, R54, R56: in the first cycle of slot 0 that is not before AT, each router of the die whose ARM is 1 flips its bank if every staged entry is
valid, with the staged version, MISS 0 and ARM 0; else ERR is set and ARM cleared, and its bank stands. Before that cycle, and at the routers
of other dies or with ARM 0, nothing changes. A bay that injects flits of a circuit-mode job, its own bay and those of the slices it reads,
and finds no slot counts one demoted flit, up to 65,535 (04 R110). Which ports the routers at the edges have is the model's (log 38). -/
def Obligations.SlotTablesSwap : Prop :=
  (∀ (s : State) (die : Nat), (s.sys.pkgCycle.toNat < (s.die die).slotSwap.toNat ∨ s.sys.pkgCycle.toNat % 256 ≠ 0) →
    exec (.slotTableSwap die) s = .next s) ∧
  (∀ (s : State) (die : Nat), (s.die die).slotSwap.toNat ≤ s.sys.pkgCycle.toNat → s.sys.pkgCycle.toNat % 256 = 0 →
    ∃ t, exec (.slotTableSwap die) s = .next t ∧ t.mem = s.mem ∧ t.cores = s.cores ∧ t.bays = s.bays ∧ t.dies = s.dies ∧ t.sys = s.sys ∧
      ∀ b,
        let r := routerAt s b
        let r' := routerAt t b
        (b / 72 ≠ die ∨ r.ctl.getLsbD 2 = false → r' = r) ∧ r'.inputs = r.inputs ∧
        (b / 72 = die → r.ctl.getLsbD 2 = true → StagedValid (b % 72) r →
          r'.table = r.table ∧ r'.ctl.getLsbD 1 = !r.ctl.getLsbD 1 ∧ r'.ctl.extractLsb' 48 16 = r.ctl.extractLsb' 32 16 ∧
            r'.ctl.extractLsb' 32 16 = r.ctl.extractLsb' 32 16 ∧ r'.ctl.extractLsb' 16 16 = 0 ∧ r'.ctl.getLsbD 2 = false ∧
            r'.ctl.getLsbD 0 = r.ctl.getLsbD 0 ∧ r'.ctl.extractLsb' 3 13 = r.ctl.extractLsb' 3 13) ∧
        (b / 72 = die → r.ctl.getLsbD 2 = true → ¬StagedValid (b % 72) r →
          r'.table = r.table ∧ r'.ctl.getLsbD 3 = true ∧ r'.ctl.getLsbD 2 = false ∧
            r'.ctl.extractLsb' 0 2 = r.ctl.extractLsb' 0 2 ∧ r'.ctl.extractLsb' 4 60 = r.ctl.extractLsb' 4 60)) ∧
  (∀ (s : State) (b : Nat),
    let r := routerAt s b
    let job := ∃ y ∈ s.bays, ∃ j ∈ y.2.jobs, j.started = true ∧ (cardWord j.card 0).testBit 57 = true ∧
      (b = y.1 ∨ ∃ x ∈ j.reads, ∃ r ∈ x.runs, r.home = none ∧ isSlice r.pa = true ∧ b ∈ r.bays)
    (¬job → exec (.circuitInjectionTimeout b) s = .next s) ∧
    (job → (r.ctl.getLsbD 0 = false ∨ ∀ k < 256, ∀ o < 6,
        let w := (Map.get 0 r.table ((if r.ctl.getLsbD 1 then 1 else 0) * 256 + k)).toNat
        outputValid w o = true → outputFrom w o ≠ 4) →
      ∃ r', exec (.circuitInjectionTimeout b) s = .next { s with routers := Map.set s.routers b r' } ∧ r'.table = r.table ∧ r'.bad = r.bad ∧
        r'.inputs = r.inputs ∧ (r'.ctl.extractLsb' 16 16).toNat = min ((r.ctl.extractLsb' 16 16).toNat + 1) 65535 ∧
        r'.ctl.extractLsb' 0 16 = r.ctl.extractLsb' 0 16 ∧ r'.ctl.extractLsb' 32 32 = r.ctl.extractLsb' 32 32) ∧
    (∀ k o, k < 256 → o < 6 → r.ctl.getLsbD 0 = true → r.bad = [] →
      let w := (Map.get 0 r.table ((if r.ctl.getLsbD 1 then 1 else 0) * 256 + k)).toNat
      outputValid w o = true → outputFrom w o = 4 → exec (.circuitInjectionTimeout b) s = .next s))

/-- 02 R58, R60, R65, R67, R69: a scrubber's visit that finds nothing changes nothing but the slice scrubber's place; a corrected error is one record
of KIND 0; an uncorrectable one poisons its line or row, is recorded, and ends the context its tag names, if that context is current still. A line
whose data is beyond correction is found so whenever it is visited; one whose tag is gone is an orphan, which a visit to its data finds too. A slice
that is not ON is not scrubbed. The patrol of HBM and DDR5 names no context and rests during self-refresh. How LOC packs a slot row's place (log 39),
and KIND and CTX of these records (log 81), are the model's choices.

02 R70, R71, R72; 17 R440: a request that breaks R71 is refused with status 1; one it allows begins, and is answered with status 0 when the unit
has come to its state, or with status 1 if by then the rule forbids it, the unit staying as it is. A slice that was OFF comes back with zeros and no
tags; one that was in RETAIN keeps all it holds. HBM and DDR5 enter self-refresh only in package idle. What waited for the slice is written when it is
on. HBM and DDR5 leave self-refresh when a die becomes active. (The codes of target states and the status of a malformed request, 2, are the model's:
log 37; that a slice on its way to a state it may no longer take stays as it is, log 67.) -/
def Obligations.ScrubbingAndPower : Prop :=
  (
  (∀ (s : State) (u : StorageUnit), (∀ pa, u ≠ .sliceData pa) → (∀ pa, u = .sliceTag pa → lineOf pa ∉ s.mem.tagLost) → exec (.scrubVisit u .clean) s = .next s) ∧
  (∀ (s : State) (pa : Nat) (found : Ecc), (s.bay (bayOfPa pa)).power ≠ .on → exec (.scrubVisit (.sliceData pa) found) s = .next s) ∧
  (∀ (s : State) (pa : Nat), (s.bay (bayOfPa pa)).power = .on →
    let b := bayOfPa pa
    let on := s.putBay b { s.bay b with scrub := (pa % Config.sliceSize / 64 + 1) % 65536 }
    (lineOf pa ∉ s.mem.damaged → lineOf pa ∈ s.mem.tagLost → exec (.scrubVisit (.sliceData pa) .clean) s = exec (.scrubVisit (.sliceTag pa) .clean) on) ∧
    (lineOf pa ∉ s.mem.damaged → lineOf pa ∉ s.mem.tagLost → exec (.scrubVisit (.sliceData pa) .clean) s = .next on ∧
      exec (.scrubVisit (.sliceData pa) .corrected) s = .next (recorded on (b / 72) 0 0 0 pa)) ∧
    (lineOf pa ∈ s.mem.damaged → lineOf pa ∉ s.mem.tagLost → ∀ found, exec (.scrubVisit (.sliceData pa) found) s = exec (.scrubVisit (.sliceData pa) .uncorrectable) s) ∧
    (pa < Config.sliceEnd → ∃ t, exec (.scrubVisit (.sliceTag pa) .uncorrectable) s = .next t ∧ lineOf pa ∈ t.mem.orphan ∧ t.cores = s.cores ∧
      t.scopes = s.scopes ∧ t.dies = (recorded s (b / 72) 0 1 4 pa).dies ∧ t.host.lastUp = s.host.lastUp + 1) ∧
    let spoiled := on.withMem { s.mem with poison := setIns s.mem.poison (lineOf pa), damaged := s.mem.damaged.filter (· ≠ lineOf pa) }
    let owner := if lineOf pa ∈ s.mem.orphan then 0 else Map.get 0 s.mem.tags (lineOf pa)
    (owner = 0 → lineOf pa ∉ s.mem.tagLost → exec (.scrubVisit (.sliceData pa) .uncorrectable) s = .next (recorded spoiled (b / 72) 0 0 2 pa)) ∧
    (∀ sc, owner ≠ 0 → lineOf pa ∉ s.mem.tagLost → pa < Config.sliceEnd → ∃ t, exec (.scrubVisit (.sliceData pa) .uncorrectable) s = .next t ∧ t.cores = s.cores ∧
      t.dies = (recorded spoiled (b / 72) owner 0 1 pa).dies ∧ t.host.lastUp = s.host.lastUp + 1 ∧ lineOf pa ∈ t.mem.poison ∧
      (t.mem = ((recorded spoiled (b / 72) owner 0 1 pa).postUp 2 0x083
        [owner.toNat * 2 ^ 48 + 2 ^ 32 + s.sys.frame.toNat % 2 ^ 32, pa % 2 ^ 64]).mem) ∧
      (rootScope t owner = rootScope s owner → currentCtx t owner = true → s.scope? (rootScope s owner) = some sc → sc.ctx = owner → sc.killing = false →
        ∃ k, t.scope? (rootScope s owner) = some k ∧ k.killing = true ∧ k.cause = .uncorrectable))) ∧
  (∀ (s : State) (c row : Nat), exec (.scrubVisit (.slotRow c row) .corrected) s =
      .next (recorded s (c / 288) 0 2 0 (c / 4 % 72 * 2 ^ 24 + c % 4 * 2 ^ 16 + row)) ∧
    ((Map.get {} (s.core c).acc row).tag = 0 → ∃ t, exec (.scrubVisit (.slotRow c row) .uncorrectable) s = .next t ∧
      (Map.get {} (t.core c).acc row).poison = true ∧ t.mem = s.mem ∧ t.scopes = s.scopes ∧ ∀ n, n ≠ c → t.core n = s.core n)) ∧
  (∀ (s : State) (b bank slot : Nat) (found : Ecc), found ≠ .clean → ∃ t, exec (.scrubVisit (.slotEntry b bank slot) found) s = .next t ∧
    bank * 256 + slot ∈ (routerAt t b).bad ∧ (routerAt t b).table = (routerAt s b).table ∧ (routerAt t b).ctl = (routerAt s b).ctl ∧
    t.mem = s.mem ∧ t.cores = s.cores ∧ t.scopes = s.scopes) ∧
  (∀ (s : State) (b bank : Nat) (found : Ecc), b < 288 →
    let line := (s.bay b).scrub
    (line % 16 ≠ bank → exec (.scrubForced b bank found) s = .next s) ∧
    (line % 16 = bank → exec (.scrubForced b bank found) s = exec (.scrubVisit (.sliceData (b * Config.sliceSize + 64 * line)) found) s) ∧
    (line % 16 = bank → line < 65536 → (s.bay b).power = .on → b * Config.sliceSize + 64 * line ∉ s.mem.damaged ++ s.mem.tagLost →
      exec (.scrubForced b bank .clean) s = .next (s.putBay b { s.bay b with scrub := (line + 1) % 65536 }))) ∧
  (∀ (s : State) (pa : Nat) (found : Ecc),
    ((isHbm pa = false ∧ isDdr s pa = false) ∨ s.host.selfRefresh = true → exec (.patrolScrub pa found) s = .next s) ∧
    ((isHbm pa = true ∨ isDdr s pa = true) → s.host.selfRefresh = false →
      (lineOf pa ∉ s.mem.damaged → exec (.patrolScrub pa .clean) s = .next s) ∧
      (lineOf pa ∈ s.mem.damaged → ∀ found, exec (.patrolScrub pa found) s = exec (.patrolScrub pa .uncorrectable) s) ∧
      (lineOf pa ∉ s.mem.damaged → exec (.patrolScrub pa .corrected) s = .next (recorded s (dieOfPa pa) 0 (if isSlice pa then 0 else if isHbm pa then 11 else 12) 0 pa)) ∧
      exec (.patrolScrub pa .uncorrectable) s = .next (recorded (s.withMem { s.mem with poison := setIns s.mem.poison (lineOf pa), damaged := s.mem.damaged.filter (· ≠ lineOf pa) })
        (dieOfPa pa) 0 (if isSlice pa then 0 else if isHbm pa then 11 else 12) 2 pa)))) ∧
  (
  (∀ (s : State) (seq : W32) (target die : BitVec 2) (bay : BitVec 7) (st : BitVec 2),
    let down := s.withHost { s.host with lastDown := seq }
    (seq ≠ s.host.lastDown + 1 ∨ s.host.booted = false → exec (.powerState seq target die bay st) s = .next s) ∧
    (seq = s.host.lastDown + 1 → s.host.booted = true →
      (target = 3 ∨ (target ≠ 2 ∧ 71 < bay.toNat) ∨ st = 3 ∨ (target ≠ 0 ∧ st = 2) → exec (.powerState seq target die bay st) s = .next (down.reply 0x020 2 0 [])) ∧
      (s.host.powerReqs = [] → st ≠ 3 → bay.toNat ≤ 71 →
        let b := 72 * die.toNat + bay.toNat
        let waiting (unit : Nat) : HostIf := { s.host with lastDown := seq, powerReqs := [(seq, target.toNat, unit, st.toNat)] }
        (target = 0 → (s.bay b).target = none →
          (st ≠ 0 ∧ (sliceWeir s b = true ∨ (st = 2 ∧ sliceTagged s b = true)) → exec (.powerState seq target die bay st) s = .next (down.reply 0x020 1 0 [])) ∧
          (st = 0 ∨ (sliceWeir s b = false ∧ (st = 1 ∨ sliceTagged s b = false)) → exec (.powerState seq target die bay st) s =
            .next ((s.withHost (waiting b)).putBay b { s.bay b with target := some (if st = 0 then .on else if st = 1 then .retain else .off) }))) ∧
        (target = 1 → st ≠ 2 → (s.bay b).logicTarget = none →
          (st = 1 → logicFree s b = false → exec (.powerState seq target die bay st) s = .next (down.reply 0x020 1 0 [])) ∧
          (st = 1 → logicFree s b = true → exec (.powerState seq target die bay st) s =
            .next ((s.withHost (waiting b)).putBay b { s.bay b with logicTarget := some false })) ∧
          (st = 0 → (s.die die.toNat).active = true → exec (.powerState seq target die bay st) s =
            .next ((s.withHost (waiting b)).putBay b { s.bay b with logicTarget := some true }))) ∧
        (target = 2 → st = 1 → (s.die die.toNat).target = none →
          ((∃ i < 72, (s.bay (72 * die.toNat + i)).logicOn = true) → exec (.powerState seq target die bay st) s = .next (down.reply 0x020 1 0 [])) ∧
          ((∀ i < 72, (s.bay (72 * die.toNat + i)).logicOn = false) → exec (.powerState seq target die bay st) s =
            .next ((s.withHost (waiting die.toNat)).putDie die.toNat { s.die die.toNat with target := some false })))))) ∧
  (∀ (s : State) (b : Nat), s.host.powerReqs = [] → NothingHeld s →
    (∀ d, (s.bay b).target = some .on → (s.bay b).power = .retain → s.sys.due = [d] → bayOfPa d.pa = b →
      exec (.sliceWake b) s = .next (((s.putBay b { s.bay b with power := .on, target := none }).withMem (d.apply s.mem)).withSys { s.sys with due := [] })) ∧
    (s.sys.due = [] →
    ((s.bay b).target = none → exec (.powerTransitionComplete 0 b) s = .next s ∧ exec (.sliceWake b) s = .next s) ∧
    (∀ p, p ≠ Power.on → (s.bay b).target = some p →
      (sliceWeir s b = false ∧ (p = .retain ∨ sliceTagged s b = false) →
        exec (.powerTransitionComplete 0 b) s = .next (s.putBay b { s.bay b with power := p, target := none })) ∧
      (sliceWeir s b = true ∨ (p = .off ∧ sliceTagged s b = true) →
        exec (.powerTransitionComplete 0 b) s = .next (s.putBay b { s.bay b with target := none }))) ∧
    ((s.bay b).target = some .on → exec (.sliceWake b) s = exec (.powerTransitionComplete 0 b) s ∧
      ((s.bay b).power ≠ .off → exec (.sliceWake b) s = .next (s.putBay b { s.bay b with power := .on, target := none })) ∧
      ((s.bay b).power = .off → s.mem.wf = true → ∃ t, exec (.sliceWake b) s = .next t ∧ t.bay b = { s.bay b with power := .on, target := none } ∧
        t.mem.wf = true ∧ (∀ pa, bayOfPa pa = b → t.mem.byte pa = 0 ∧ Map.get 0 t.mem.tags pa = 0 ∧ pa ∉ t.mem.poison ++ t.mem.orphan) ∧
        ∀ pa, bayOfPa pa ≠ b → t.mem.byte pa = s.mem.byte pa ∧ Map.get 0 t.mem.tags pa = Map.get 0 s.mem.tags pa ∧ (pa ∈ t.mem.poison ↔ pa ∈ s.mem.poison) ∧ (pa ∈ t.mem.orphan ↔ pa ∈ s.mem.orphan))) ∧
    (∀ on, (s.bay b).logicTarget = some on →
      ((if on then (s.die (b / 72)).active else logicFree s b) = true →
        exec (.powerTransitionComplete 1 b) s = .next (s.putBay b { s.bay b with logicOn := on, logicTarget := none })) ∧
      ((if on then (s.die (b / 72)).active else logicFree s b) = false →
        exec (.powerTransitionComplete 1 b) s = .next (s.putBay b { s.bay b with logicTarget := none }))) ∧
    (∀ on, (s.die b).target = some on →
      (on = true ∨ (∀ i < 72, (s.bay (72 * b + i)).logicOn = false) →
        exec (.powerTransitionComplete 2 b) s = .next ((s.putDie b { s.die b with active := on, target := none }).withHost
          { s.host with selfRefresh := if on then false else s.host.selfRefresh })) ∧
      (on = false → (∃ i < 72, (s.bay (72 * b + i)).logicOn = true) →
        exec (.powerTransitionComplete 2 b) s = .next (s.putDie b { s.die b with target := none }))))) ∧
  (∀ (s : State) (b : Nat) (seq : W32) (p : Power) (st : Nat), NothingHeld s → s.sys.due = [] → s.host.powerReqs = [(seq, 0, b, st)] → (s.bay b).target = some p → p ≠ .on →
    st = (if p = .retain then 1 else 2) →
    let answered (y : Bay) (status : Nat) : State := ((s.putBay b y).withHost { s.host with powerReqs := [] }).reply 0x020 status 0 []
    (sliceWeir s b = false ∧ (p = .retain ∨ sliceTagged s b = false) → exec (.powerTransitionComplete 0 b) s =
      .next (answered { s.bay b with power := p, target := none } 0)) ∧
    (sliceWeir s b = true ∨ (p = .off ∧ sliceTagged s b = true) → exec (.powerTransitionComplete 0 b) s =
      .next (answered { s.bay b with target := none } 1))) ∧
  (∀ s : State, (packageIdle s = true → exec .selfRefreshEntry s = .next (s.withHost { s.host with selfRefresh := true })) ∧
    (packageIdle s = false → exec .selfRefreshEntry s = .next s) ∧ exec .selfRefreshExit s = .next (s.withHost { s.host with selfRefresh := false })))

namespace Sys2Proof.Claim
open Sys2Proof Sys2Proof.Machine

/-- A die whose command port, empty so far, has taken a command and completed it. -/
def portOver (d : Die) : Die := { d with cbFifo := [], cbIssued := d.cbIssued + 1, cbDone := d.cbDone + 1 }

/-- A die whose port, empty so far, has taken a command that is not complete. -/
def portTaken (d : Die) (c : CbCmd) : Die := { d with cbFifo := [{ c with started := true }], cbIssued := d.cbIssued + 1 }

/-- No node's own scope. -/
def NoNode (s : State) (id : W16) : Prop := ∀ g ∈ s.graphs, ∀ n ∈ g.2.nodes, n.2.scope ≠ some id

/-- The oldest command of a die's port is complete. -/
def portDone (s : State) (die : Nat) : State := s.putDie die (s.die die).popCmd

/-- A root launch of the record (ws, ns) at va: a scope of its own under its context's root scope, a resumed graph's being the one it had,
whose curtain is the one after the nodes', and its graph put in hand (13 R348, R355, R364, R369; logs 98, 99). -/
def launched (s : State) (die : Nat) (ctx : W16) (va : W64) (resume : Bool) (who : Option (W32 × BitVec 12)) (ws : List W64) (ns : List (List W64))
    (u : State) : Prop :=
  ∃ id s0 sc, (s.ensureRoot ctx).launchScope die ctx va resume = some (id, s0) ∧
    let s1 := s0.dropSettled ctx va
    s1.scope? id = some sc ∧
    let s2 := s1.putScope id { sc with curtain := some (BitVec.ofNat 64 (wordAt ws 4 + 64 * bits (wordAt ws 0) 60 48)) }
    let g := nextKey s2.graphs
    u = s2.startGraph g { rootGraph die ctx va ws id g with hostSeq := who } ns

end Sys2Proof.Claim

/-- 13 R369; 19 R447: the port of a die takes commands while its FIFO has room, and completes them in order: a launch or resume when its graph is
RUNNING, at once where its records do not allow it or its context is of slot 0, later where a page of it is the host's or a slice asleep; a park when
the graph is PARKED; an unpark and a kill at once; and a command that names no graph at once. (That a failing launch still counts as completed is the
model's: log 33; so is that one for slot 0 does, log 83; which records are malformed, log 108. That a store to a full port waits is the model's
reading: log 56.)

17 R436, R437; 13 R349, R369; 19 R447: the host's launch, resume and kill requests are commands of a callboard's port, under the context they
name; a request waits in the ring while the port is full, and one whose SEQ is not the next is not consumed. A reply is one entry of KIND 1 with the
request's OP, the next SEQ, and the last SEQ consumed as ACK. An acknowledged host-callback node becomes COMPLETE, unless a cone takes it or a kill
has reached it; the acknowledgement waits while a page it writes is the host's. A context of slot 0 is refused a launch. A package that has not
started takes no request (R439). (The statuses of a launch that fails are the model's: log 33; for slot 0, log 83; of an acknowledgement that no node
waits for, log 44. That a request for a full port stays in the ring is its reading: log 56; the scope a launch gets is the model's: logs 98, 99.) -/
def Obligations.CommandsAndRequests : Prop :=
  (
  (∀ (s : State) (die op : Nat) (arg : BitVec 56) (e : Instr),
    ((e = .cbLaunch die arg ∧ op = 0) ∨ (e = .cbResume die arg ∧ op = 1) ∨ (e = .cbPark die arg ∧ op = 2) ∨ (e = .cbUnpark die arg ∧ op = 3) ∨
      (e = .cbKill die arg ∧ op = 4)) →
    let d := s.die die
    let va : W64 := arg.setWidth 64
    let cmd : CbCmd := { op := op, ctx := d.cbCtx, arg := arg }
    let on := s.putDie die (portTaken d cmd)
    let closed := s.putDie die (portOver d)
    let held := s.putDie die { d with cbFifo := [cmd], cbIssued := d.cbIssued + 1 }
    let then_ := fun (u : State) => (u.blocked = none → exec e s = .next (portDone u die)) ∧ (∀ h, u.blocked = some h → exec e s = .next (held.waitFor h))
    Unheld s →
    (∀ c rest, d.cbFifo = c :: rest → c.op < 5 → (c.op ≠ op ∨ c.arg ≠ arg) →
      (d.cbFifo.length < 8 → exec e s = .next (s.putDie die { d with cbFifo := d.cbFifo ++ [cmd], cbIssued := d.cbIssued + 1 })) ∧
      (d.cbFifo.length = 8 → exec e s = .next s)) ∧
    (d.cbFifo = [] → op ≤ 1 → d.cbCtx.toNat % 4096 = 0 → exec e s = .next closed) ∧
    (d.cbFifo = [] → op ≤ 1 → d.cbCtx.toNat % 4096 ≠ 0 → (op = 1 → resumeBusy on d.cbCtx va.toNat = false) →
      (∀ ws ns, launchRecords on d.cbCtx va.toNat true = .ok (ws, ns) →
        (∀ u, launched on die d.cbCtx va (decide (op = 1)) none ws ns u → then_ u) ∧
        ((on.ensureRoot d.cbCtx).launchScope die d.cbCtx va (decide (op = 1)) = none → exec e s = .next on)) ∧
      (launchRecords on d.cbCtx va.toNat true = .error .malformed → exec e s = .next closed) ∧
      (∀ h, launchRecords on d.cbCtx va.toNat true = .error (.unread h) → (h.delays = true → exec e s = .next (held.waitFor h)) ∧
        (h.delays = false → exec e s = .next closed))) ∧
    (d.cbFifo = [] → op = 1 → resumeBusy on d.cbCtx va.toNat = true → exec e s = .next closed) ∧
    (d.cbFifo = [] → (op = 2 ∨ op = 3) → s.graphNamed d.cbCtx va.toNat = none → exec e s = .next closed) ∧
    (∀ g x, d.cbFifo = [] → s.graphNamed d.cbCtx va.toNat = some g → s.graph? g = some x → x.settled = none →
      (op = 2 → x.parking = false → x.parked = false → exec e s =
        .next (on.putGraph g { x with parking := true, byCallboard := false, parkStart := s.sys.pkgCycle.toNat, quiet := none })) ∧
      (op = 2 → x.parked = true → exec e s = .next (closed.putGraph g { x with byCallboard := false })) ∧
      (op = 3 → (x.parking = true ∨ x.parked = true) →
        then_ ((on.putGraph g { x with parking := false, parked := false, byCallboard := false, quiet := none }).putGstat g 1)) ∧
      (op = 3 → x.parking = false → x.parked = false → exec e s = .next closed)) ∧
    (∀ g x rest, op = 2 → d.cbFifo = { cmd with started := true } :: rest → s.graphNamed d.cbCtx va.toNat = some g → s.graph? g = some x →
      (x.parked = false → exec e s = .next (s.putDie die d)) ∧
      (x.parked = true → exec e s = .next (portDone (s.putDie die d) die))) ∧
    (d.cbFifo = [] → op = 4 →
      (s.scope? (arg.setWidth 16) = none → exec e s = .next closed) ∧
      (∀ sc, s.scope? (arg.setWidth 16) = some sc → sc.killing = false → sc.parent = none → NoNode s (arg.setWidth 16) → ∃ t k, exec e s = .next t ∧ t.dies = closed.dies ∧ t.mem = s.mem ∧
        t.cores = s.cores ∧ t.graphs = s.graphs ∧ t.scope? (arg.setWidth 16) = some k ∧ k.killing = true ∧ k.cause = .killed))) ∧
  (∀ (s : State) (die : Nat) (arg : BitVec 56), Unheld s → (s.die die).cbFifo = [] →
    let ctx := (s.die die).cbCtx
    let va : W64 := arg.setWidth 64
    let on := fun (op : Nat) => s.putDie die (portTaken (s.die die) { op := op, ctx := ctx, arg := arg })
    (∀ ws ns u, ctx.toNat % 4096 ≠ 0 → launchRecords (on 0) ctx va.toNat true = .ok (ws, ns) → launched (on 0) die ctx va false none ws ns u → u.blocked = none →
      exec (.cbLaunch die arg) s = .next (portDone u die)) ∧
    (∀ ws ns u, ctx.toNat % 4096 ≠ 0 → resumeBusy (on 1) ctx va.toNat = false → launchRecords (on 1) ctx va.toNat true = .ok (ws, ns) →
      launched (on 1) die ctx va true none ws ns u → u.blocked = none → exec (.cbResume die arg) s = .next (portDone u die)) ∧
    (∀ g x, s.graphNamed ctx va.toNat = some g → s.graph? g = some x → x.settled = none →
      let y : Graph := { x with parking := false, parked := false, byCallboard := false, quiet := none }
      (x.parking = false → x.parked = false →
        exec (.cbPark die arg) s = .next ((on 2).putGraph g { x with parking := true, byCallboard := false, parkStart := s.sys.pkgCycle.toNat, quiet := none })) ∧
      (x.parked = true → (((on 3).putGraph g y).putGstat g 1).blocked = none →
        exec (.cbUnpark die arg) s = .next (portDone (((on 3).putGraph g y).putGstat g 1) die))) ∧
    (∀ sc, s.scope? (arg.setWidth 16) = some sc → sc.killing = false → sc.parent = none → NoNode s (arg.setWidth 16) →
      ∃ t k, exec (.cbKill die arg) s = .next t ∧ t.mem = s.mem ∧ t.scope? (arg.setWidth 16) = some k ∧ k.killing = true ∧ k.cause = .killed))) ∧
  (
  (∀ (s : State) (op status result : Nat), op < 4096 → status < 256 → result < 2 ^ 56 → s.reply op status result [] =
    (s.withMem (s.mem.rawWrite 0 (ringBase s.host.ringUp + 64 * (s.host.lastUp.toNat % ringSlots s.host.ringUp))
      (bytesOf 64 ((s.host.lastUp + 1).toNat * 2 ^ 32 + s.host.lastDown.toNat % 2 ^ 16 * 2 ^ 16 + 2 ^ 12 + op
        + 2 ^ 64 * (status + result * 256))))).withHost (s.host.keep (s.host.lastUp + 1)
      (bytesOf 64 ((s.host.lastUp + 1).toNat * 2 ^ 32 + s.host.lastDown.toNat % 2 ^ 16 * 2 ^ 16 + 2 ^ 12 + op + 2 ^ 64 * (status + result * 256))))) ∧
  (∀ (s : State) (seq : W32) (ctx : W16) (va : W64) (scope : W16) (die : BitVec 2) (e : Instr) (op : Nat) (code : BitVec 12) (n : Nat) (arg : BitVec 56),
    ((e = .hostLaunch seq ctx va die ∧ op = 0 ∧ code = 0x030 ∧ n = die.toNat ∧ arg = va.setWidth 56) ∨
      (e = .hostResume seq ctx va die ∧ op = 1 ∧ code = 0x031 ∧ n = die.toNat ∧ arg = va.setWidth 56) ∨
      (e = .hostKill seq ctx scope ∧ op = 4 ∧ code = 0x032 ∧ n = scope.toNat / 16384 ∧ arg = scope.setWidth 56)) →
    let d := s.die n
    let down := s.withHost { s.host with lastDown := seq }
    let at_ := { d with cbCtx := ctx }
    let cmd : CbCmd := { op := op, ctx := ctx, arg := arg, hostSeq := some (seq, code) }
    let on := down.putDie n (portTaken at_ cmd)
    let closed := down.putDie n (portOver at_)
    let held := down.putDie n { at_ with cbFifo := [cmd], cbIssued := d.cbIssued + 1 }
    Unheld s →
    let addr : W64 := arg.setWidth 64
    (s.host.booted = false ∨ seq ≠ s.host.lastDown + 1 ∨ 8 ≤ d.cbFifo.length → exec e s = .next s) ∧ (s.host.booted = true →
    (∀ c rest, seq = s.host.lastDown + 1 → d.cbFifo = c :: rest → c.op < 5 → d.cbFifo.length < 8 →
      exec e s = .next (down.putDie n { at_ with cbFifo := d.cbFifo ++ [cmd], cbIssued := d.cbIssued + 1 })) ∧
    (seq = s.host.lastDown + 1 → d.cbFifo = [] → op ≤ 1 → ctx.toNat % 4096 = 0 → exec e s = .next (closed.reply code.toNat 2 0 [])) ∧
    (seq = s.host.lastDown + 1 → d.cbFifo = [] → op ≤ 1 → ctx.toNat % 4096 ≠ 0 → (op = 1 → resumeBusy on ctx addr.toNat = false) →
      (∀ ws ns u, launchRecords on ctx addr.toNat true = .ok (ws, ns) → launched on n ctx addr (decide (op = 1)) (some (seq, code)) ws ns u →
        (u.blocked = none → exec e s = .next (portDone u n)) ∧ (∀ h, u.blocked = some h → exec e s = .next (held.waitFor h))) ∧
      (launchRecords on ctx addr.toNat true = .error .malformed → exec e s = .next (closed.reply code.toNat 2 0 [])) ∧
      (∀ h, launchRecords on ctx addr.toNat true = .error (.unread h) → (h.delays = true → exec e s = .next (held.waitFor h)) ∧
        (h.delays = false → exec e s = .next (closed.reply code.toNat 1 0 [])))) ∧
    (seq = s.host.lastDown + 1 → d.cbFifo = [] → op = 1 → ctx.toNat % 4096 ≠ 0 → resumeBusy on ctx addr.toNat = true → exec e s = .next (closed.reply 0x031 1 0 [])) ∧
    (seq = s.host.lastDown + 1 → d.cbFifo = [] → op = 4 →
      (s.scope? scope = none → exec e s = .next (closed.reply 0x032 0 0 [])) ∧
      (∀ sc, s.scope? scope = some sc → sc.killing = false → sc.parent = none → NoNode s scope → ∃ t k, exec e s = .next t ∧ t.dies = closed.dies ∧
        t.mem = (closed.reply 0x032 0 0 []).mem ∧ t.host = (closed.reply 0x032 0 0 []).host ∧ t.cores = s.cores ∧
        t.scope? scope = some k ∧ k.killing = true ∧ k.cause = .killed)))) ∧
  (∀ (s : State) (ctx : W16) (va : W64) (scope : W16) (die : BitVec 2), Unheld s → s.host.booted = true →
    let seq := s.host.lastDown + 1
    let on := fun (op : Nat) (code : BitVec 12) => (s.withHost { s.host with lastDown := seq }).putDie die.toNat
      (portTaken { s.die die.toNat with cbCtx := ctx } { op := op, ctx := ctx, arg := va.setWidth 56, hostSeq := some (seq, code) })
    let addr : W64 := (va.setWidth 56).setWidth 64
    (∀ ws ns u, (s.die die.toNat).cbFifo = [] → ctx.toNat % 4096 ≠ 0 → launchRecords (on 0 0x030) ctx addr.toNat true = .ok (ws, ns) →
      launched (on 0 0x030) die.toNat ctx addr false (some (seq, 0x030)) ws ns u → u.blocked = none → exec (.hostLaunch seq ctx va die) s = .next (portDone u die.toNat)) ∧
    (∀ ws ns u, (s.die die.toNat).cbFifo = [] → ctx.toNat % 4096 ≠ 0 → resumeBusy (on 1 0x031) ctx addr.toNat = false →
      launchRecords (on 1 0x031) ctx addr.toNat true = .ok (ws, ns) →
      launched (on 1 0x031) die.toNat ctx addr true (some (seq, 0x031)) ws ns u → u.blocked = none → exec (.hostResume seq ctx va die) s = .next (portDone u die.toNat)) ∧
    (∀ sc, (s.die (scope.toNat / 16384)).cbFifo = [] → s.scope? scope = some sc → sc.killing = false → sc.parent = none → NoNode s scope →
      ∃ t k, exec (.hostKill seq ctx scope) s = .next t ∧ t.cores = s.cores ∧ t.scope? scope = some k ∧ k.killing = true ∧ k.cause = .killed)) ∧
  (∀ (s : State) (seq : W32) (ctx : W16) (va : W64) (node : BitVec 12),
    let down := s.withHost { s.host with lastDown := seq }
    let i := node.toNat
    Unheld s →
    (s.host.booted = false ∨ seq ≠ s.host.lastDown + 1 → exec (.callbackAcknowledge seq ctx va node) s = .next s) ∧
    (s.host.booted = true → seq = s.host.lastDown + 1 →
      (s.graphNamed ctx va.toNat = none → exec (.callbackAcknowledge seq ctx va node) s = .next (down.reply 0x033 1 0 [])) ∧
      (∀ g, s.graphNamed ctx va.toNat = some g →
        ((s.node g i).status ≠ 2 ∨ nodeKind ((s.node g i).w 0) ≠ 3 → exec (.callbackAcknowledge seq ctx va node) s = .next (down.reply 0x033 1 0 [])) ∧
        ((s.node g i).status = 2 → nodeKind ((s.node g i).w 0) = 3 →
          let ends := (s.node g i).cancelAfter = false ∧ (s.node g i).untold = none ∧ ∀ sc, (s.node g i).scope = some sc → s.dying sc = false
          let after := fun (u : State) => (u.blocked = none → exec (.callbackAcknowledge seq ctx va node) s = .next u) ∧
            (∀ h, u.blocked = some h → exec (.callbackAcknowledge seq ctx va node) s = .next (s.waitFor h))
          (ends → after (((((down.nodeRoot g i (List.replicate 32 0) 0).terminal g i 3).decrementAll g i).settle g).reply 0x033 0 0 [])) ∧
          (¬ends → after ((down.settle g).reply 0x033 0 0 [])))))))

namespace Sys2Proof.Claim
open Sys2Proof Sys2Proof.Machine

/-- The address of a control register of a die (01 R38, R39). -/
def register (die off : Nat) : Nat := 0x100000000 + die * 0x4000000 + off

/-- A masked write: bits outside the mask stay. -/
def masked (old new mask : W64) : W64 := (old &&& ~~~mask) ||| (new &&& mask)

/-- What a full FIFO makes of a request: it stands behind those that wait (01 R31; 02 R63; log 56). -/
def xinvKept (s : State) (v : W64) : State :=
  let r : Xinv := { kind := (v.extractLsb' 60 4).toNat, ctx := v.extractLsb' 44 16, vpn := v.setWidth 44 }
  if s.sys.xinvFifo.length < 8 ∧ s.sys.xinvHeld = [] then
    s.withSys { s.sys with xinvFifo := s.sys.xinvFifo ++ [r], xinvIssued := s.sys.xinvIssued + 1 }
  else s.withSys { s.sys with xinvHeld := s.sys.xinvHeld ++ [r] }

/-- The offsets of a die's blocks that hold registers (01 R31; 02 R55, R63, R69; 05 R126, R127; 13 R369; 14 R376; 15 R404). -/
def holdsRegister (die off : Nat) : Prop :=
  (die = 0 ∧ (off = 0x10000 ∨ off = 0x10008 ∨ off = 0x10010 ∨ off = 0x10018 ∨ (0x300000 ≤ off ∧ off < 0x300028) ∨ (0x300040 ≤ off ∧ off < 0x300080) ∨
      (0x300100 ≤ off ∧ off < 0x300300))) ∨
    (0x100000 ≤ off ∧ off < 0x100058) ∨ (0x1F0000 ≤ off ∧ off < 0x1F0030) ∨ (0x1F1000 ≤ off ∧ off < 0x1F1400) ∨
    (0x200000 ≤ off ∧ off < 0x248000 ∧ off % 0x1000 < 0x808)

/-- A step's record of this start, from the one before (17 R438, R439). -/
def bootOutcome (prev : BitVec 2) (alternate passed : Bool) : BitVec 2 :=
  if prev = 2 then (if alternate then (if passed then 3 else 2) else 0) else if passed then 1 else 2

end Sys2Proof.Claim

/-- 16 R430; 17 R434 to R437; 15 R406; 02 R70: an endpoint takes the lowest free number, and is refused where there is none or where a ring or its
table cannot be reached; it is destroyed at once if no descriptor of it is posted. The signature ring takes effect at once. A malformed request is
answered with STATUS 2 and does nothing else. The doorbell's entries are consumed up to the one it names, in SEQ order, each with its ACK; a write of
a ring's base sends again what no ACK has covered, and starts both rings again at SEQ 1; an ACK that runs behind has them sent again too. Ring traffic
goes by the die 0 link while it is up, else by the die 2 link; a package that has not started presents no ring (R439). The statuses of endpoint
requests (log 96), of other KINDs (log 41), and what is sent again when (log 97) are the model's.

15 R406; 17 R437: every 1,050,000 cycles a die's appended records are signed as one entry of the signature ring, while the ring has room, and the
host is told; else they wait. Without an identity nothing is signed. (The signature itself is free: log 12.) -/
def Obligations.RingsAndSignatures : Prop :=
  (
  (∀ (s : State) (seq : W32) (ctx : W16) (logSend logRecv : BitVec 4) (sendVa recvVa peerVa : W64) (peers : BitVec 17),
    let goes := fun (t : State) => exec (.endpointCreate seq ctx logSend logRecv sendVa recvVa peerVa peers) s = .next t
    let down := s.withHost { s.host with lastDown := seq }
    let e : Endpoint := { ctx := ctx, sendVa := sendVa, sendSlots := 2 ^ (logSend.toNat + 6), recvVa := recvVa,
                          recvSlots := 2 ^ (logRecv.toNat + 6), peerVa := peerVa, peers := peers.toNat }
    (s.host.booted = false ∨ seq ≠ s.host.lastDown + 1 → goes s) ∧
    (s.host.booted = true → seq = s.host.lastDown + 1 →
      (6 < logSend.toNat ∨ 6 < logRecv.toNat ∨ peers = 0 ∨ 65536 < peers.toNat → goes (down.reply 0x010 2 0 [])) ∧
      (logSend.toNat ≤ 6 → logRecv.toNat ≤ 6 → peers ≠ 0 → peers.toNat ≤ 65536 →
        ((∀ i < 1024, (s.endpoint? i).isSome = true) → goes (down.reply 0x010 1 0 [])) ∧
        (∀ id < 1024, s.endpoint? id = none → (∀ i < id, (s.endpoint? i).isSome = true) →
          (endpointCheck down e = .ok () → goes ((down.putEndpoint id e).reply 0x010 0 id [])) ∧
          (s.blocked = none → s.sys.refused = [] →
            (∀ c info, endpointCheck down e = .error (.trap c info) → goes (down.reply 0x010 1 0 [])) ∧
            (∀ h, endpointCheck down e = .error h → h.delays = true → goes (s.waitFor h))))))) ∧
  (∀ (s : State) (seq : W32) (ctx : W16) (id : BitVec 10),
    let down := s.withHost { s.host with lastDown := seq }
    let goes := fun (t : State) => exec (.endpointDestroy seq ctx id) s = .next t
    (s.host.booted = false ∨ seq ≠ s.host.lastDown + 1 → goes s) ∧
    (s.host.booted = true → seq = s.host.lastDown + 1 →
      (s.endpoint? id.toNat = none → goes (down.reply 0x011 1 0 [])) ∧
      (∀ x, s.endpoint? id.toNat = some x →
        (x.ctx ≠ ctx ∨ x.destroying.isSome = true → goes (down.reply 0x011 1 0 [])) ∧
        (x.ctx = ctx → x.destroying = none → x.descs ≠ [] ∨ (∃ w ∈ s.sys.heldWrites, w.1 = ctx) → goes (down.putEndpoint id.toNat { x with destroying := some seq })) ∧
        (x.ctx = ctx → x.destroying = none → x.descs = [] → (∀ w ∈ s.sys.heldWrites, w.1 ≠ ctx) → (s.fab.endpoints.Pairwise fun a b => a.1 < b.1) → ∃ (u : State),
          goes (u.reply 0x011 0 0 []) ∧ u.endpoint? id.toNat = none ∧ u.mem = s.mem ∧ u.host = down.host ∧
          ∀ k, k ≠ id.toNat → u.endpoint? k = s.endpoint? k)))) ∧
  (∀ (s : State) (seq : W32) (ring consumed : W64) (log : BitVec 4) (op : BitVec 12),
    let down := s.withHost { s.host with lastDown := seq }
    (s.host.booted = false ∨ seq ≠ s.host.lastDown + 1 → exec (.signatureRingSet seq ring log consumed) s = .next s ∧ exec (.ringRequestMalformed seq op) s = .next s) ∧
    (s.host.booted = true → seq = s.host.lastDown + 1 →
      exec (.ringRequestMalformed seq op) s = .next (down.reply op.toNat 2 0 []) ∧
      (11 < log.toNat ∨ ring.toNat % 4096 ≠ 0 ∨ consumed.toNat % 8 ≠ 0 → exec (.signatureRingSet seq ring log consumed) s = .next (down.reply 0x012 2 0 [])) ∧
      (log.toNat ≤ 11 → ring.toNat % 4096 = 0 → consumed.toNat % 8 = 0 → exec (.signatureRingSet seq ring log consumed) s =
        .next ((down.withHost { down.host with sigRing := some (ring, 2 ^ (log.toNat + 4), consumed) }).reply 0x012 0 0 [])))) ∧
  (∀ (s : State) (seq : W32),
    let rung := s.withHost { s.host with bell := seq, ringLink := if s.host.linkUp then 0 else 1 }
    let ws := downEntry rung seq
    let w0 := (ws.getD 0 0).toNat
    (s.host.booted = false → exec (.doorbell seq) s = .next s) ∧ (s.host.booted = true →
    (seq = s.host.lastDown → exec (.doorbell seq) s = .next rung) ∧
    (((downEntry s (s.host.lastDown + 1)).getD 0 0).toNat / 2 ^ 32 ≠ (s.host.lastDown + 1).toNat →
      exec (.doorbell seq) s = .next rung) ∧
    (seq = s.host.lastDown + 1 → w0 / 2 ^ 32 = seq.toNat →
      let h := rung.host.hear (w0 / 2 ^ 16 % 2 ^ 16)
      let heard := (rung.withHost h).withMem (h.unread.foldl (fun m x => m.rawWrite 0 (upSlot h.ringUp x.1) x.2) s.mem)
      let down := heard.withHost { heard.host with lastDown := seq }
      (w0 / 2 ^ 12 % 16 = 2 → exec (.doorbell seq) s = .next down) ∧
      (3 ≤ w0 / 2 ^ 12 % 16 ∨ (w0 / 2 ^ 12 % 16 = 0 ∧ (w0 % 2 ^ 12 < 0x010 ∨ 0x041 < w0 % 2 ^ 12)) →
        exec (.doorbell seq) s = .next (down.reply (w0 % 2 ^ 12) 2 0 [])) ∧
      (w0 / 2 ^ 12 % 16 = 0 → w0 % 2 ^ 12 = 0x012 → (ws.getD 2 0).toNat < 16 → ws.getD 4 0 = 0 → ws.getD 5 0 = 0 → ws.getD 6 0 = 0 → ws.getD 7 0 = 0 →
        exec (.doorbell seq) s = exec (.signatureRingSet seq (ws.getD 1 0) ((ws.getD 2 0).setWidth 4) (ws.getD 3 0)) heard)))) ∧
  (∀ (s : State) (value : W64), ∃ v, v.extractLsb' 12 52 = value.extractLsb' 12 52 ∧ v.extractLsb' 4 8 = 0 ∧ v.extractLsb' 0 4 = value.extractLsb' 0 4 ∧
    let again := fun (h : HostIf) => (s.withHost h).withMem (s.host.unread.foldl (fun m x => m.rawWrite 0 (upSlot h.ringUp x.1) x.2) s.mem)
    let link : BitVec 1 := if s.host.linkUp then 0 else 1
    (s.host.booted = false → ∀ up, exec (.ringRestart up value) s = .next s) ∧
    (s.host.booted = true → exec (.ringRestart true value) s = .next (again { s.host with lastDown := 0, lastUp := 0, bell := 0, ringLink := link, ringUp := v }) ∧
      exec (.ringRestart false value) s = .next (again { s.host with lastDown := 0, lastUp := 0, bell := 0, ringLink := link, ringDown := v })))) ∧
  (
  ∀ (s : State) (die : Nat), s.host.sigWait = [] →
    let d := s.die die
    let now := s.sys.pkgCycle.toNat
    let due := s.putDie die { d with batchCycle := now }
    (vget 0 s.host.bootRec 1 ≠ 1 → exec (.signatureBatch die) s = .next s) ∧
    (vget 0 s.host.bootRec 1 = 1 →
      (now < d.batchCycle + 1050000 → exec (.signatureBatch die) s = .next s) ∧
      (d.batchCycle + 1050000 ≤ now →
        (d.batch = [] ∨ s.host.sigRing = none → exec (.signatureBatch die) s = .next due) ∧
        (∀ ring n consumed first rest, s.host.sigRing = some (ring, n, consumed) → d.batch = first :: rest →
          let count := ofBytes (s.mem.rawRead 0 (hostPa consumed) 8)
          (n ≤ s.host.sigSeq - count → exec (.signatureBatch die) s = .next due) ∧
          (s.host.sigSeq - count < n → ∃ t sig, exec (.signatureBatch die) s = .next t ∧ (t.die die).batch = [] ∧ (t.die die).batchCycle = now ∧
            t.host.sigSeq = s.host.sigSeq + 1 ∧ t.host.lastUp = s.host.lastUp + 1 ∧ t.cores = s.cores ∧ sig.length = 384 ∧
            let head := bytesOf 8 (die * 2 ^ 48 + s.host.sigSeq % 2 ^ 40) ++ bytesOf 8 first.1 ++ bytesOf 8 (rest.length + 1) ++ bytesOf 8 s.sys.frame.toNat
              ++ sha256 ((first :: rest).map Prod.snd).flatten ++ List.replicate 64 0
            t.mem = ((due.withMem (s.mem.rawWrite 0 (hostPa ring + 512 * (s.host.sigSeq % n)) (head ++ sig))).postUp 2 0x082 [ofBytes (head.take 8)]).mem)))))

/-- 01 R38, R39; 02 R48; 03 R91; 15 R406; 17 R433, R439: an access through a link that is up reaches HBM, DDR5 and the host window, in arrival order,
and any other range is answered Unsupported Request. Die 0's link may go down and come up. SPDM is answered with the package's identity, and with an
error where there is none. (What an access through a link that is down does, and that die 0's link stays down after the alternate of its training, are
the model's: log 40. What the reads of damaged memory give is free: log 88. The code of an SPDM error is free: log 12.)

17 R438, R439; 02 R61; 05 R143: a package reset runs the boot steps in order: a step that failed on the start before takes its alternate, or is
not run; when both images have failed the device stays in its ROM. Every core, callboard, queue and register is as after reset; the slices hold zeros,
and all other memory is kept. The package's incarnation follows the count of its starts. (The layout of the configuration image is the model's: log
42.) -/
def Obligations.PcieAndReset : Prop :=
  (
  (∀ (s : State) (link : BitVec 1) (write : Bool) (pa : Nat) (data : List Byte),
    let n := data.length
    let goes := fun (t : State) => exec (.hostPcieAccess link write pa data) s = .next t
    let host := { s.host with selfRefresh := if isHostWin pa then s.host.selfRefresh else false, pcieUr := false, pcieReply := [] }
    let arrived := s.withHost host
    ((link = 0 ∧ s.host.linkUp = false) ∨ s.host.booted = false → goes s) ∧
    ((link = 1 ∨ s.host.linkUp = true) → s.host.booted = true → 0 < n →
      let last := pa + n - 1
      let reaches := (isHbm pa ∧ isHbm last) ∨ (isDdr s pa ∧ isDdr s last) ∨ (isHostWin pa ∧ isHostWin last)
      (¬reaches → goes (s.withHost { host with pcieUr := true })) ∧
      (reaches → write = true → s.mem.writeBlocked 0 pa n = false → goes (arrived.withMem (s.mem.write 0 0 pa data))) ∧
      (∀ bs, reaches → write = false → s.mem.read 0 0 pa n = some bs → goes (s.withHost { host with pcieReply := bs })) ∧
      (reaches → write = false → s.mem.read 0 0 pa n = none → ∃ bs, bs.length = n ∧ goes (s.withHost { host with pcieReply := bs })))) ∧
  (∀ (s : State) (up : Bool), exec (.pcieLinkStateChange up) s =
    .next (s.withHost { s.host with linkUp := up && !(s.host.booted && decide (vget 0 s.host.bootRec 5 ≠ 1)) })) ∧
  (∀ (s : State) (msg : List Byte),
    (vget 0 s.host.bootRec 1 = 1 → exec (.spdmRequest msg) s = .next (s.withFab { s.fab with sent := s.fab.sent ++ [.spdm (Config.spdmAnswer msg)] })) ∧
    (vget 0 s.host.bootRec 1 ≠ 1 → ∃ code, exec (.spdmRequest msg) s = .next (s.withFab { s.fab with sent := s.fab.sent ++ [.spdm [0x13, 0x7F, code, 0]] })))) ∧
  (
  ∀ (s : State) (passed : W16) (image : List Byte),
    ∃ t, exec (.packageReset passed image) s = .next t ∧ t.host.bootCount = s.host.bootCount + 1 ∧
      t.cores = State.reset.cores ∧ t.bays = State.reset.bays ∧ t.dies = State.reset.dies ∧ t.routers = State.reset.routers ∧
      t.scopes = State.reset.scopes ∧ t.nests = State.reset.nests ∧ t.graphs = State.reset.graphs ∧ t.units = State.reset.units ∧
      (staysInRom s.host.bootRec (bootRecord s.host.bootRec passed) = false →
        t.host.booted = true ∧ t.host.linkUp = decide (vget 0 t.host.bootRec 5 = 1) ∧
        (∀ i < 7, vget 0 t.host.bootRec i = bootOutcome (vget 0 s.host.bootRec i) (decide (i = 0 ∨ i = 2 ∨ i = 5)) (passed.getLsbD i)) ∧
        (∀ i, 7 ≤ i → i < 16 → vget 0 t.host.bootRec i = 0) ∧
        (stepOk t.host.bootRec 3 = false → t.sys.ddrSize = 0) ∧ (stepOk t.host.bootRec 6 = false → t.sys.ctxTable = 0 ∧
          ∀ pa, t.mem.byte pa = if isSlice pa then 0 else s.mem.byte pa) ∧
        (stepOk t.host.bootRec 6 = true →
          let base := bits (imageWord (if stepOk t.host.bootRec 0 then image else []) 0) 51 24 * 2 ^ 24
          ∀ pa, pa < base ∨ base + 4096 ≤ pa → t.mem.byte pa = if isSlice pa then 0 else s.mem.byte pa) ∧
        (stepOk t.host.bootRec 4 = false → t.fab.podCfg.getLsbD 0 = false) ∧
        t.fab.podCfg.extractLsb' 48 16 = BitVec.ofNat 16 ((s.host.bootCount + 1) % 65535 + 1)) ∧
      (vget 0 s.host.bootRec 0 = 2 → passed.getLsbD 0 = false → t.host.booted = false ∧ t.host.linkUp = false ∧
        ∀ pa, t.mem.byte pa = if isSlice pa then 0 else s.mem.byte pa))

/-- 01 R31, R38, R39; 02 R53, R55; 05 R126; 06 R159, R160; 09 R256; 13 R369; 14 R376; 15 R404: registers written from outside the programs: each keeps
its writable bits, read-only registers and offsets that hold none ignore the write, a slot-table entry of the active bank is not written, QCFG_q keeps
its rules and raises QUEUE_PROTOCOL on K for a queue that holds entries, and a LOOP register keeps its form. (That an offset which holds no register,
and an access of 4 bytes outside the slot tables, write nothing is the model's: log 55. That a request which meets a full FIFO is kept behind the
others is the model's: log 56.) -/
def Obligations.RegistersWritten : Prop :=
  (∀ (s : State) (pa size : Nat) (v : W64), (isCtl pa = false ∨ (size ≠ 4 ∧ size ≠ 8) ∨ pa % size ≠ 0) → exec (.registerWrite pa size v) s = .next s) ∧
  (∀ (s : State) (v : W64),
    let wr := fun (die off : Nat) => exec (.registerWrite (register die off) 8 v) s
    wr 0 0x10000 = .next (s.withSys { s.sys with ctxTable := masked s.sys.ctxTable v 0x000FFFFFFF000001 }) ∧
    wr 0 0x300000 = .next (s.withFab { s.fab with podCfg := masked s.fab.podCfg v 0xFFFF3F3F00000001 }) ∧
    wr 0 0x300008 = .next (s.withFab { s.fab with stripe := masked s.fab.stripe v 0x00FFFFFF00FFFFFF }) ∧
    wr 0 0x300010 = .next (s.withFab { s.fab with timeout := v.setWidth 32 }) ∧
    (∀ i < 64, ∃ t, wr 0 (0x300100 + 8 * i) = .next t ∧ t.mem = s.mem ∧ t.cores = s.cores ∧ t.sys = s.sys ∧ t.fab.podCfg = s.fab.podCfg ∧
      t.fab.peer = s.fab.peer.setIfInBounds i (masked (vget 0 s.fab.peer i) v 0xFFFF000000000003)) ∧
    wr 0 0x10010 = .next s ∧ wr 0 0x10018 = .next s ∧ wr 0 0x10008 = .next (xinvKept s v) ∧
    (∀ die off, die < 4 → off < 0x4000000 → off % 8 = 0 → ¬holdsRegister die off → wr die off = .next s) ∧
    (∀ die off, die < 4 → off < 0x4000000 → off % 4 = 0 → ¬(0x200000 ≤ off ∧ off < 0x248000 ∧ off % 0x1000 < 0x800) →
      exec (.registerWrite (register die off) 4 v) s = .next s) ∧
    ∀ die < 4,
      let d := s.die die
      wr die 0x100000 = .next (s.putDie die { d with cbCtx := v.setWidth 16 }) ∧
      wr die 0x1F0000 = .next (s.putDie die { d with slotSwap := v }) ∧
      wr die 0x100010 = .next s ∧ wr die 0x100018 = .next s ∧ wr die 0x1F0008 = .next s ∧ wr die 0x100028 = .next s ∧
      (wr die 0x100020 = .next (if d.cutUsed = [] then s.putDie die { d with cutPool := masked d.cutPool v 0xFFCFFFFFFFF81FFF } else s)) ∧
      (wr die 0x100030 = .next (if d.erxUsed = [] then s.putDie die { d with erxPool := masked d.erxPool v 0xFFCFFFFFFFFFDFFF } else s)) ∧
      (8 ≤ d.cbFifo.length → wr die 0x100008 = .next s) ∧
      (d.sweepFifo = [] → d.sweepHeld = [] → ∃ t, wr die 0x1F0010 = .next t ∧ t.cores = s.cores ∧ t.sys = s.sys ∧
        t.die die = { d with sweepFifo := [v.setWidth 16], sweepIssued := d.sweepIssued + 1 } ∧ (die, v.setWidth 16) ∈ t.mem.sweeping ∧
        ∀ pa, t.mem.byte pa = s.mem.byte pa ∧ Map.get 0 t.mem.tags pa = Map.get 0 s.mem.tags pa) ∧
      (d.sweepFifo ≠ [] → d.sweepFifo.length < 4 → d.sweepHeld = [] →
        wr die 0x1F0010 = .next (s.putDie die { d with sweepFifo := d.sweepFifo ++ [v.setWidth 16], sweepIssued := d.sweepIssued + 1 })) ∧
      (4 ≤ d.sweepFifo.length ∨ d.sweepHeld ≠ [] → wr die 0x1F0010 = .next (s.putDie die { d with sweepHeld := d.sweepHeld ++ [v.setWidth 16] })) ∧
      (∀ c rest, d.cbFifo = c :: rest → c.op < 5 → d.cbFifo.length < 8 → wr die 0x100008 =
        .next (s.putDie die { d with cbFifo := d.cbFifo ++ [{ op := v.toNat / 2 ^ 60, ctx := d.cbCtx, arg := v.setWidth 56 }], cbIssued := d.cbIssued + 1 }))) ∧
  (∀ (s : State) (die b bank slot : Nat) (v : W64), die < 4 → b < 72 → bank < 2 → slot < 256 →
    let i := 72 * die + b
    let r := routerAt s i
    let goes := fun (t : State) => exec (.registerWrite (register die (0x200000 + b * 0x1000 + bank * 0x400 + slot * 4)) 4 v) s = .next t
    (r.ctl.getLsbD 1 = decide (bank = 1) → goes s) ∧
    (r.ctl.getLsbD 1 ≠ decide (bank = 1) → ∃ r', goes { s with routers := Map.set s.routers i r' } ∧ r'.ctl = r.ctl ∧
      ((r.table.Pairwise fun x y => x.1 < y.1) → (Map.get 0 r'.table (bank * 256 + slot)) = v.setWidth 32 &&& 0x00FFFFFF) ∧
      ∀ k, k ≠ bank * 256 + slot → Map.get 0 r'.table k = Map.get 0 r.table k) ∧
    (∃ r', exec (.registerWrite (register die (0x200000 + b * 0x1000 + 0x800)) 8 v) s = .next { s with routers := Map.set s.routers i r' } ∧
      r'.table = r.table ∧ r'.ctl.extractLsb' 48 16 = r.ctl.extractLsb' 48 16 ∧ r'.ctl.extractLsb' 32 16 = v.extractLsb' 32 16 ∧
      r'.ctl.extractLsb' 4 28 = r.ctl.extractLsb' 4 28 ∧ r'.ctl.getLsbD 3 = (r.ctl.getLsbD 3 && !v.getLsbD 3) ∧ r'.ctl.getLsbD 2 = v.getLsbD 2 ∧
      r'.ctl.getLsbD 1 = r.ctl.getLsbD 1 ∧ r'.ctl.getLsbD 0 = v.getLsbD 0)) ∧
  (∀ (s : State) (core q : Nat) (v : W64),
    let c := s.core core
    let x := c.queue q
    let w := v &&& 0x8FF00FFFFFFFFFFF
    let found := translateRange s c.ctx c.sys.sv (.ring (core / 4)) anyFmt ((w.extractLsb' 0 44).toNat * 4096) (((w.extractLsb' 56 4).toNat + 1) * 4096)
    let goes := fun (t : State) => exec (.qcfgWrite core q v) s = .next t
    let kept := fun (pages : List Nat) => s.putCore core (c.putQueue q { x with cfg := w, head := 0, tail := 0, pages := pages })
    (16 ≤ q → goes s) ∧
    (q < 16 → (x.chip ≠ [] ∨ x.ring ≠ []) → goes (s.raiseLane core .K .queueProtocol (BitVec.ofNat 64 q))) ∧
    (q < 16 → x.chip = [] → x.ring = [] →
      ((q = 13 ∨ q = 14) → goes s) ∧
      (q ≠ 13 → q ≠ 14 → w.getLsbD 63 = false → goes (kept [])) ∧
      (∀ ps, q ≠ 13 → q ≠ 14 → w.getLsbD 63 = true → found = .ok ps → goes (kept (ps.map fun p => p.place.pa))) ∧
      (∀ h, q ≠ 13 → q ≠ 14 → w.getLsbD 63 = true → found = .error h → goes (s.halted core .K h)))) ∧
  (∀ (s : State) (core : Nat) (level : BitVec 3) (v : W64),
    exec (.loopCsrWrite core level v) s =
      .next (s.writeLoop core (if level.toNat < 2 then .K else if level.toNat < 4 then .L else if level.toNat < 6 then .C else .S) (level.toNat % 2) v))

/-! ## The machine as a whole -/

/-- 08 R194 to R211, R220 to R225: every instruction that some lane encodes is read back from its word, with every operand, by the map of its cluster.
(What counts as well formed is the encodings' own: 08 R208, 06 R162.) -/
def Obligations.DecodeTakesBackEncode : Prop :=
  ∀ (i : Instr) (cl : Cl), i.wellFormed = true → i.cluster = some cl → encode i < 2 ^ 32 ∧ decode cl (encode i) = .ok i

/-- 08 R198, R208: a word that a map decodes is the encoding of what it decodes to, so no bit of it is dropped, and that instruction is
well formed and of the map's cluster; a word of more than one meaning there is none. -/
def Obligations.DecodingDropsNoBit : Prop :=
  ∀ (cl : Cl) (w : Nat) (i : Instr), w < 2 ^ 32 → decode cl w = .ok i → encode i = w ∧ i.wellFormed = true ∧ i.cluster = some cl

/-- 08 R209 to R225: words written out from the manual's encodings, one or more of each map, and what each reads as; a word of a reserved
opcode, one with a reserved bit set, and one with a cue bit its cluster does not have are refused, each by its name. -/
def Obligations.WordsReadAsTheManualSays : Prop :=
  decode .K 0x02420C00 = .ok (.add 4 4 3) ∧ decode .K 0x10318001 = .ok (.addi 3 3 1) ∧ decode .K 0x00000000 = .error .opcode ∧
    decode .K 0x02420C80 = .error .field ∧ decode .K 0x50460FF8 = .ok (.bCond 1 3 0 0xFF8) ∧
    decode .K 0xA8A5B000 = .ok (.treeBisect 10 11 12) ∧ decode .L 0x10202001 = .ok (.ldq 1 0 2 1) ∧ decode .L 0x13086B05 = .ok (.lCp 1 4 3 5 0x105) ∧
    decode .L 0x40202001 = .error .cue ∧ decode .S 0x80842002 = .ok (.stqWb 8 4 2 2) ∧ decode .C 0x80210880 = .ok (.vadd 8 1 1 2 0 0) ∧
    decode .C 0x82E12000 = .ok (.vfmaQs 8 1 4 0 0 0) ∧ decode .C 0x9A493880 = .ok (.mma 9 2 2 3 1 0 0 2)

/-- 06 R149 to R155; 08 R194, R198; 06 R161: a cluster's turn with a lane at the head of its issue queue runs that lane: step is exec of what its word
decodes to, with that lane as the current one (the order of the turns is the model's: logs 3, 4, 31; K has no turn while a `ref.exec` of it waits for
a package: log 72); a word that is no instruction raises ILLEGAL_OP with the decoder's reason and the lane's address in TRAPINFO; a lane of S that
names a register a remote operation still owes, a stopped cluster, the first lane of a SYNC line and, while the core stops, its other lanes do
nothing. With an empty queue, fetch serves the cluster first. An event of the agenda is its own exec, but a cut, which comes only once the core has
drained. -/
def Obligations.StepRunsTheDecodedInstruction : Prop :=
  (∀ (s : State) (dt n : Nat) (cl : Cl) (later : List (Nat × Act)) (e : Entry) (rest : List Entry), s.agenda = (dt, .lane n cl) :: later →
    let t := s.tickTo dt
    ∀ u, ((t.cluster n cl).iq ≠ [] ∧ u = t) ∨ ((t.cluster n cl).iq = [] ∧ u = t.fetch n cl) →
      (u.clusterRuns n cl = false → step s = .next u) ∧
      ((u.cluster n cl).iq = [] → step s = .next u) ∧
      (u.clusterRuns n cl = true → (u.cluster n cl).iq = e :: rest →
        let held := e.sync = true ∨ (e.later = true ∧ (u.core n).sys.stop ≠ none)
        (e.mark ≠ none ∨ held → step s = .next u) ∧
        (e.mark = none → ¬held →
          (∀ i, decode cl e.word.toNat = .ok i → (cl = .S → u.awaits n i = false) → step s = exec i { u with curCore := n, cur := e, via := .core n }) ∧
          (∀ i, decode cl e.word.toNat = .ok i → cl = .S → u.awaits n i = true → step s = .next u) ∧
          (∀ r, decode cl e.word.toNat = .error r → step s =
            .next (u.raiseLane n cl .illegalOp (BitVec.ofNat 64 (r.reason * 2 ^ 56 + e.addr.toNat))))))) ∧
  (∀ (s : State) (dt : Nat) (e : Instr) (later : List (Nat × Act)), s.agenda = (dt, .event e) :: later → (∀ n, e ≠ .cutWrite n) →
    step s = exec e (s.tickTo dt)) ∧
  (∀ (s : State) (dt : Nat), (s.tickTo dt).sys.pkgCycle = s.sys.pkgCycle + BitVec.ofNat 64 dt ∧ (s.tickTo dt).agenda = s.agenda.tail ∧
    (s.tickTo dt).cores = s.cores ∧ (s.tickTo dt).mem = s.mem ∧ (s.tickTo dt).blocked = none ∧ (s.tickTo dt).via = .none) ∧
  (∀ s : State, s.agenda = [] → s.host.booted = false →
    (s.host.bootCount = 0 → step s = exec (.packageReset Config.bootPassed Config.bootImage) (s.tickTo 1)) ∧
    (s.host.bootCount ≠ 0 → step s = .next (s.tickTo 1))) ∧
  (∀ s : State, s.agenda = [] → s.host.booted = true →
    let u := (s.tickTo 1).swapAll
    turns exec u ≠ [] ∧ ∃ turn ∈ turns exec u, step s = turn u)

/-- 01 R31; 02 R55, R61, R63, R69; 05 R126; 13 R360, R362, R368, R369; 14 R376; 15 R404; 17 R435: what the manual gives for reset: the package
registers, every die's registers, no task on any core, slices of zeros without tags, and nothing in hand anywhere. The memory has its canonical form.
(Registers for which the manual gives no value are zero: log 1; bytes of memory that nothing has written: log 2.) -/
def Obligations.ResetState : Prop :=
  State.reset.Inv ∧ State.reset.sys.pkgCycle = 0 ∧ State.reset.sys.frame = 0 ∧ State.reset.sys.ctxTable = 0 ∧ State.reset.sys.xinvIssued = 0 ∧
    State.reset.sys.xinvDone = 0 ∧ State.reset.fab.podCfg = 0 ∧ State.reset.host.ringDown = 0 ∧ State.reset.host.ringUp = 0 ∧
    (∀ d, let x := State.reset.die d
      x.cbCtx = 0 ∧ x.cbIssued = 0 ∧ x.cbDone = 0 ∧ x.cbFifo = [] ∧ x.cutPool = 0 ∧ x.erxPool = 0 ∧ x.erxLog = 0 ∧ x.erxHead = 0 ∧ x.erxTail = 0 ∧
        x.slotSwap = 0 ∧ x.errHead = 0 ∧ x.ageLimit = 4096 ∧ x.preemptLimit = 0x40000100000) ∧
    (∀ b, (routerAt State.reset b).ctl = 0) ∧ (∀ pa, State.reset.mem.byte pa = 0 ∧ Map.get 0 State.reset.mem.tags pa = 0 ∧ pa ∉ State.reset.mem.poison) ∧
    (∀ n, (State.reset.core n).sys.task = none ∧ (State.reset.core n).sys.sv = false ∧ (State.reset.core n).lease = .none ∧
      ∀ cl, ((State.reset.core n).cluster cl).iq = [] ∧ ((State.reset.core n).cluster cl).stopped = none) ∧
    State.reset.graphs = [] ∧ State.reset.nests = [] ∧ State.reset.scopes = []

/-- Every instruction and event of the table has a next state in every state: the machine takes its traps as the manual describes them, and
nothing faults or is refused. -/
def Obligations.EveryStepAnswers : Prop :=
  (∀ (i : Instr) (s : State), ∃ t, exec i s = .next t) ∧ ∀ s : State, ∃ t, step s = .next t

/-- Every step keeps memory's canonical form: rising addresses, and no byte listed that reads as an unlisted one does. -/
def Obligations.EveryStepKeepsMemoryCanonical : Prop :=
  ∀ s t : State, s.Inv → step s = .next t → t.Inv

end
end

