-- ==== Sys2Proof/Laws/State.lean ====
section
/-! SUPPORT. What each update of the state leaves as it was, field by field, so that no later proof unfolds a record update. -/

namespace Sys2Proof.Laws
open Sys2Proof Sys2Proof.Machine

@[simp] theorem putCore_cores (s : State) (n : Nat) (c : Core) : (s.putCore n c).cores = Map.set s.cores n c := rfl
@[simp] theorem putCore_bays (s : State) (n : Nat) (c : Core) : (s.putCore n c).bays = s.bays := rfl
@[simp] theorem putCore_dies (s : State) (n : Nat) (c : Core) : (s.putCore n c).dies = s.dies := rfl
@[simp] theorem putCore_routers (s : State) (n : Nat) (c : Core) : (s.putCore n c).routers = s.routers := rfl
@[simp] theorem putCore_units (s : State) (n : Nat) (c : Core) : (s.putCore n c).units = s.units := rfl
@[simp] theorem putCore_scopes (s : State) (n : Nat) (c : Core) : (s.putCore n c).scopes = s.scopes := rfl
@[simp] theorem putCore_nests (s : State) (n : Nat) (c : Core) : (s.putCore n c).nests = s.nests := rfl
@[simp] theorem putCore_graphs (s : State) (n : Nat) (c : Core) : (s.putCore n c).graphs = s.graphs := rfl
@[simp] theorem putCore_mem (s : State) (n : Nat) (c : Core) : (s.putCore n c).mem = s.mem := rfl
@[simp] theorem putCore_sys (s : State) (n : Nat) (c : Core) : (s.putCore n c).sys = s.sys := rfl
@[simp] theorem putCore_fab (s : State) (n : Nat) (c : Core) : (s.putCore n c).fab = s.fab := rfl
@[simp] theorem putCore_host (s : State) (n : Nat) (c : Core) : (s.putCore n c).host = s.host := rfl
@[simp] theorem putCore_agenda (s : State) (n : Nat) (c : Core) : (s.putCore n c).agenda = s.agenda := rfl
@[simp] theorem putCore_turn (s : State) (n : Nat) (c : Core) : (s.putCore n c).turn = s.turn := rfl
@[simp] theorem putCore_curCore (s : State) (n : Nat) (c : Core) : (s.putCore n c).curCore = s.curCore := rfl
@[simp] theorem putCore_cur (s : State) (n : Nat) (c : Core) : (s.putCore n c).cur = s.cur := rfl
@[simp] theorem putCore_via (s : State) (n : Nat) (c : Core) : (s.putCore n c).via = s.via := rfl
@[simp] theorem putCore_blocked (s : State) (n : Nat) (c : Core) : (s.putCore n c).blocked = s.blocked := rfl
@[simp] theorem putCore_free (s : State) (n : Nat) (c : Core) : (s.putCore n c).free = s.free := rfl

@[simp] theorem putBay_cores (s : State) (n : Nat) (c : Bay) : (s.putBay n c).cores = s.cores := rfl
@[simp] theorem putBay_bays (s : State) (n : Nat) (c : Bay) : (s.putBay n c).bays = Map.set s.bays n c := rfl
@[simp] theorem putBay_dies (s : State) (n : Nat) (c : Bay) : (s.putBay n c).dies = s.dies := rfl
@[simp] theorem putBay_routers (s : State) (n : Nat) (c : Bay) : (s.putBay n c).routers = s.routers := rfl
@[simp] theorem putBay_units (s : State) (n : Nat) (c : Bay) : (s.putBay n c).units = s.units := rfl
@[simp] theorem putBay_scopes (s : State) (n : Nat) (c : Bay) : (s.putBay n c).scopes = s.scopes := rfl
@[simp] theorem putBay_nests (s : State) (n : Nat) (c : Bay) : (s.putBay n c).nests = s.nests := rfl
@[simp] theorem putBay_graphs (s : State) (n : Nat) (c : Bay) : (s.putBay n c).graphs = s.graphs := rfl
@[simp] theorem putBay_mem (s : State) (n : Nat) (c : Bay) : (s.putBay n c).mem = s.mem := rfl
@[simp] theorem putBay_sys (s : State) (n : Nat) (c : Bay) : (s.putBay n c).sys = s.sys := rfl
@[simp] theorem putBay_fab (s : State) (n : Nat) (c : Bay) : (s.putBay n c).fab = s.fab := rfl
@[simp] theorem putBay_host (s : State) (n : Nat) (c : Bay) : (s.putBay n c).host = s.host := rfl
@[simp] theorem putBay_agenda (s : State) (n : Nat) (c : Bay) : (s.putBay n c).agenda = s.agenda := rfl
@[simp] theorem putBay_turn (s : State) (n : Nat) (c : Bay) : (s.putBay n c).turn = s.turn := rfl
@[simp] theorem putBay_curCore (s : State) (n : Nat) (c : Bay) : (s.putBay n c).curCore = s.curCore := rfl
@[simp] theorem putBay_cur (s : State) (n : Nat) (c : Bay) : (s.putBay n c).cur = s.cur := rfl
@[simp] theorem putBay_via (s : State) (n : Nat) (c : Bay) : (s.putBay n c).via = s.via := rfl
@[simp] theorem putBay_blocked (s : State) (n : Nat) (c : Bay) : (s.putBay n c).blocked = s.blocked := rfl
@[simp] theorem putBay_free (s : State) (n : Nat) (c : Bay) : (s.putBay n c).free = s.free := rfl

@[simp] theorem putDie_cores (s : State) (n : Nat) (c : Die) : (s.putDie n c).cores = s.cores := rfl
@[simp] theorem putDie_bays (s : State) (n : Nat) (c : Die) : (s.putDie n c).bays = s.bays := rfl
@[simp] theorem putDie_dies (s : State) (n : Nat) (c : Die) : (s.putDie n c).dies = Map.set s.dies n c := rfl
@[simp] theorem putDie_routers (s : State) (n : Nat) (c : Die) : (s.putDie n c).routers = s.routers := rfl
@[simp] theorem putDie_units (s : State) (n : Nat) (c : Die) : (s.putDie n c).units = s.units := rfl
@[simp] theorem putDie_scopes (s : State) (n : Nat) (c : Die) : (s.putDie n c).scopes = s.scopes := rfl
@[simp] theorem putDie_nests (s : State) (n : Nat) (c : Die) : (s.putDie n c).nests = s.nests := rfl
@[simp] theorem putDie_graphs (s : State) (n : Nat) (c : Die) : (s.putDie n c).graphs = s.graphs := rfl
@[simp] theorem putDie_mem (s : State) (n : Nat) (c : Die) : (s.putDie n c).mem = s.mem := rfl
@[simp] theorem putDie_sys (s : State) (n : Nat) (c : Die) : (s.putDie n c).sys = s.sys := rfl
@[simp] theorem putDie_fab (s : State) (n : Nat) (c : Die) : (s.putDie n c).fab = s.fab := rfl
@[simp] theorem putDie_host (s : State) (n : Nat) (c : Die) : (s.putDie n c).host = s.host := rfl
@[simp] theorem putDie_agenda (s : State) (n : Nat) (c : Die) : (s.putDie n c).agenda = s.agenda := rfl
@[simp] theorem putDie_turn (s : State) (n : Nat) (c : Die) : (s.putDie n c).turn = s.turn := rfl
@[simp] theorem putDie_curCore (s : State) (n : Nat) (c : Die) : (s.putDie n c).curCore = s.curCore := rfl
@[simp] theorem putDie_cur (s : State) (n : Nat) (c : Die) : (s.putDie n c).cur = s.cur := rfl
@[simp] theorem putDie_via (s : State) (n : Nat) (c : Die) : (s.putDie n c).via = s.via := rfl
@[simp] theorem putDie_blocked (s : State) (n : Nat) (c : Die) : (s.putDie n c).blocked = s.blocked := rfl
@[simp] theorem putDie_free (s : State) (n : Nat) (c : Die) : (s.putDie n c).free = s.free := rfl

@[simp] theorem withMem_cores (s : State) (m : Memory) : (s.withMem m).cores = s.cores := rfl
@[simp] theorem withMem_bays (s : State) (m : Memory) : (s.withMem m).bays = s.bays := rfl
@[simp] theorem withMem_dies (s : State) (m : Memory) : (s.withMem m).dies = s.dies := rfl
@[simp] theorem withMem_routers (s : State) (m : Memory) : (s.withMem m).routers = s.routers := rfl
@[simp] theorem withMem_units (s : State) (m : Memory) : (s.withMem m).units = s.units := rfl
@[simp] theorem withMem_scopes (s : State) (m : Memory) : (s.withMem m).scopes = s.scopes := rfl
@[simp] theorem withMem_nests (s : State) (m : Memory) : (s.withMem m).nests = s.nests := rfl
@[simp] theorem withMem_graphs (s : State) (m : Memory) : (s.withMem m).graphs = s.graphs := rfl
@[simp] theorem withMem_mem (s : State) (m : Memory) : (s.withMem m).mem = m := rfl
@[simp] theorem withMem_sys (s : State) (m : Memory) : (s.withMem m).sys = s.sys := rfl
@[simp] theorem withMem_fab (s : State) (m : Memory) : (s.withMem m).fab = s.fab := rfl
@[simp] theorem withMem_host (s : State) (m : Memory) : (s.withMem m).host = s.host := rfl
@[simp] theorem withMem_agenda (s : State) (m : Memory) : (s.withMem m).agenda = s.agenda := rfl
@[simp] theorem withMem_turn (s : State) (m : Memory) : (s.withMem m).turn = s.turn := rfl
@[simp] theorem withMem_curCore (s : State) (m : Memory) : (s.withMem m).curCore = s.curCore := rfl
@[simp] theorem withMem_cur (s : State) (m : Memory) : (s.withMem m).cur = s.cur := rfl
@[simp] theorem withMem_via (s : State) (m : Memory) : (s.withMem m).via = s.via := rfl
@[simp] theorem withMem_blocked (s : State) (m : Memory) : (s.withMem m).blocked = s.blocked := rfl
@[simp] theorem withMem_free (s : State) (m : Memory) : (s.withMem m).free = s.free := rfl

@[simp] theorem withSys_cores (s : State) (y : Sys) : (s.withSys y).cores = s.cores := rfl
@[simp] theorem withSys_bays (s : State) (y : Sys) : (s.withSys y).bays = s.bays := rfl
@[simp] theorem withSys_dies (s : State) (y : Sys) : (s.withSys y).dies = s.dies := rfl
@[simp] theorem withSys_routers (s : State) (y : Sys) : (s.withSys y).routers = s.routers := rfl
@[simp] theorem withSys_units (s : State) (y : Sys) : (s.withSys y).units = s.units := rfl
@[simp] theorem withSys_scopes (s : State) (y : Sys) : (s.withSys y).scopes = s.scopes := rfl
@[simp] theorem withSys_nests (s : State) (y : Sys) : (s.withSys y).nests = s.nests := rfl
@[simp] theorem withSys_graphs (s : State) (y : Sys) : (s.withSys y).graphs = s.graphs := rfl
@[simp] theorem withSys_mem (s : State) (y : Sys) : (s.withSys y).mem = s.mem := rfl
@[simp] theorem withSys_sys (s : State) (y : Sys) : (s.withSys y).sys = y := rfl
@[simp] theorem withSys_fab (s : State) (y : Sys) : (s.withSys y).fab = s.fab := rfl
@[simp] theorem withSys_host (s : State) (y : Sys) : (s.withSys y).host = s.host := rfl
@[simp] theorem withSys_agenda (s : State) (y : Sys) : (s.withSys y).agenda = s.agenda := rfl
@[simp] theorem withSys_turn (s : State) (y : Sys) : (s.withSys y).turn = s.turn := rfl
@[simp] theorem withSys_curCore (s : State) (y : Sys) : (s.withSys y).curCore = s.curCore := rfl
@[simp] theorem withSys_cur (s : State) (y : Sys) : (s.withSys y).cur = s.cur := rfl
@[simp] theorem withSys_via (s : State) (y : Sys) : (s.withSys y).via = s.via := rfl
@[simp] theorem withSys_blocked (s : State) (y : Sys) : (s.withSys y).blocked = s.blocked := rfl
@[simp] theorem withSys_free (s : State) (y : Sys) : (s.withSys y).free = s.free := rfl

@[simp] theorem withFab_cores (s : State) (f : Fabric) : (s.withFab f).cores = s.cores := rfl
@[simp] theorem withFab_bays (s : State) (f : Fabric) : (s.withFab f).bays = s.bays := rfl
@[simp] theorem withFab_dies (s : State) (f : Fabric) : (s.withFab f).dies = s.dies := rfl
@[simp] theorem withFab_routers (s : State) (f : Fabric) : (s.withFab f).routers = s.routers := rfl
@[simp] theorem withFab_units (s : State) (f : Fabric) : (s.withFab f).units = s.units := rfl
@[simp] theorem withFab_scopes (s : State) (f : Fabric) : (s.withFab f).scopes = s.scopes := rfl
@[simp] theorem withFab_nests (s : State) (f : Fabric) : (s.withFab f).nests = s.nests := rfl
@[simp] theorem withFab_graphs (s : State) (f : Fabric) : (s.withFab f).graphs = s.graphs := rfl
@[simp] theorem withFab_mem (s : State) (f : Fabric) : (s.withFab f).mem = s.mem := rfl
@[simp] theorem withFab_sys (s : State) (f : Fabric) : (s.withFab f).sys = s.sys := rfl
@[simp] theorem withFab_fab (s : State) (f : Fabric) : (s.withFab f).fab = f := rfl
@[simp] theorem withFab_host (s : State) (f : Fabric) : (s.withFab f).host = s.host := rfl
@[simp] theorem withFab_agenda (s : State) (f : Fabric) : (s.withFab f).agenda = s.agenda := rfl
@[simp] theorem withFab_turn (s : State) (f : Fabric) : (s.withFab f).turn = s.turn := rfl
@[simp] theorem withFab_curCore (s : State) (f : Fabric) : (s.withFab f).curCore = s.curCore := rfl
@[simp] theorem withFab_cur (s : State) (f : Fabric) : (s.withFab f).cur = s.cur := rfl
@[simp] theorem withFab_via (s : State) (f : Fabric) : (s.withFab f).via = s.via := rfl
@[simp] theorem withFab_blocked (s : State) (f : Fabric) : (s.withFab f).blocked = s.blocked := rfl
@[simp] theorem withFab_free (s : State) (f : Fabric) : (s.withFab f).free = s.free := rfl

@[simp] theorem withHost_cores (s : State) (h : HostIf) : (s.withHost h).cores = s.cores := rfl
@[simp] theorem withHost_bays (s : State) (h : HostIf) : (s.withHost h).bays = s.bays := rfl
@[simp] theorem withHost_dies (s : State) (h : HostIf) : (s.withHost h).dies = s.dies := rfl
@[simp] theorem withHost_routers (s : State) (h : HostIf) : (s.withHost h).routers = s.routers := rfl
@[simp] theorem withHost_units (s : State) (h : HostIf) : (s.withHost h).units = s.units := rfl
@[simp] theorem withHost_scopes (s : State) (h : HostIf) : (s.withHost h).scopes = s.scopes := rfl
@[simp] theorem withHost_nests (s : State) (h : HostIf) : (s.withHost h).nests = s.nests := rfl
@[simp] theorem withHost_graphs (s : State) (h : HostIf) : (s.withHost h).graphs = s.graphs := rfl
@[simp] theorem withHost_mem (s : State) (h : HostIf) : (s.withHost h).mem = s.mem := rfl
@[simp] theorem withHost_sys (s : State) (h : HostIf) : (s.withHost h).sys = s.sys := rfl
@[simp] theorem withHost_fab (s : State) (h : HostIf) : (s.withHost h).fab = s.fab := rfl
@[simp] theorem withHost_host (s : State) (h : HostIf) : (s.withHost h).host = h := rfl
@[simp] theorem withHost_agenda (s : State) (h : HostIf) : (s.withHost h).agenda = s.agenda := rfl
@[simp] theorem withHost_turn (s : State) (h : HostIf) : (s.withHost h).turn = s.turn := rfl
@[simp] theorem withHost_curCore (s : State) (h : HostIf) : (s.withHost h).curCore = s.curCore := rfl
@[simp] theorem withHost_cur (s : State) (h : HostIf) : (s.withHost h).cur = s.cur := rfl
@[simp] theorem withHost_via (s : State) (h : HostIf) : (s.withHost h).via = s.via := rfl
@[simp] theorem withHost_blocked (s : State) (h : HostIf) : (s.withHost h).blocked = s.blocked := rfl
@[simp] theorem withHost_free (s : State) (h : HostIf) : (s.withHost h).free = s.free := rfl

@[simp] theorem putScope_cores (s : State) (id : W16) (sc : Scope) : (s.putScope id sc).cores = s.cores := rfl
@[simp] theorem putScope_bays (s : State) (id : W16) (sc : Scope) : (s.putScope id sc).bays = s.bays := rfl
@[simp] theorem putScope_dies (s : State) (id : W16) (sc : Scope) : (s.putScope id sc).dies = s.dies := rfl
@[simp] theorem putScope_routers (s : State) (id : W16) (sc : Scope) : (s.putScope id sc).routers = s.routers := rfl
@[simp] theorem putScope_units (s : State) (id : W16) (sc : Scope) : (s.putScope id sc).units = s.units := rfl
@[simp] theorem putScope_scopes (s : State) (id : W16) (sc : Scope) : (s.putScope id sc).scopes = Map.set s.scopes id.toNat sc := rfl
@[simp] theorem putScope_nests (s : State) (id : W16) (sc : Scope) : (s.putScope id sc).nests = s.nests := rfl
@[simp] theorem putScope_graphs (s : State) (id : W16) (sc : Scope) : (s.putScope id sc).graphs = s.graphs := rfl
@[simp] theorem putScope_mem (s : State) (id : W16) (sc : Scope) : (s.putScope id sc).mem = s.mem := rfl
@[simp] theorem putScope_sys (s : State) (id : W16) (sc : Scope) : (s.putScope id sc).sys = s.sys := rfl
@[simp] theorem putScope_fab (s : State) (id : W16) (sc : Scope) : (s.putScope id sc).fab = s.fab := rfl
@[simp] theorem putScope_host (s : State) (id : W16) (sc : Scope) : (s.putScope id sc).host = s.host := rfl
@[simp] theorem putScope_agenda (s : State) (id : W16) (sc : Scope) : (s.putScope id sc).agenda = s.agenda := rfl
@[simp] theorem putScope_turn (s : State) (id : W16) (sc : Scope) : (s.putScope id sc).turn = s.turn := rfl
@[simp] theorem putScope_curCore (s : State) (id : W16) (sc : Scope) : (s.putScope id sc).curCore = s.curCore := rfl
@[simp] theorem putScope_cur (s : State) (id : W16) (sc : Scope) : (s.putScope id sc).cur = s.cur := rfl
@[simp] theorem putScope_via (s : State) (id : W16) (sc : Scope) : (s.putScope id sc).via = s.via := rfl
@[simp] theorem putScope_blocked (s : State) (id : W16) (sc : Scope) : (s.putScope id sc).blocked = s.blocked := rfl
@[simp] theorem putScope_free (s : State) (id : W16) (sc : Scope) : (s.putScope id sc).free = s.free := rfl

@[simp] theorem putCluster_bays (s : State) (n : Nat) (cl : Cl) (x : Cluster) : (s.putCluster n cl x).bays = s.bays := rfl
@[simp] theorem putCluster_dies (s : State) (n : Nat) (cl : Cl) (x : Cluster) : (s.putCluster n cl x).dies = s.dies := rfl
@[simp] theorem putCluster_routers (s : State) (n : Nat) (cl : Cl) (x : Cluster) : (s.putCluster n cl x).routers = s.routers := rfl
@[simp] theorem putCluster_units (s : State) (n : Nat) (cl : Cl) (x : Cluster) : (s.putCluster n cl x).units = s.units := rfl
@[simp] theorem putCluster_scopes (s : State) (n : Nat) (cl : Cl) (x : Cluster) : (s.putCluster n cl x).scopes = s.scopes := rfl
@[simp] theorem putCluster_nests (s : State) (n : Nat) (cl : Cl) (x : Cluster) : (s.putCluster n cl x).nests = s.nests := rfl
@[simp] theorem putCluster_graphs (s : State) (n : Nat) (cl : Cl) (x : Cluster) : (s.putCluster n cl x).graphs = s.graphs := rfl
@[simp] theorem putCluster_mem (s : State) (n : Nat) (cl : Cl) (x : Cluster) : (s.putCluster n cl x).mem = s.mem := rfl
@[simp] theorem putCluster_sys (s : State) (n : Nat) (cl : Cl) (x : Cluster) : (s.putCluster n cl x).sys = s.sys := rfl
@[simp] theorem putCluster_fab (s : State) (n : Nat) (cl : Cl) (x : Cluster) : (s.putCluster n cl x).fab = s.fab := rfl
@[simp] theorem putCluster_host (s : State) (n : Nat) (cl : Cl) (x : Cluster) : (s.putCluster n cl x).host = s.host := rfl
@[simp] theorem putCluster_agenda (s : State) (n : Nat) (cl : Cl) (x : Cluster) : (s.putCluster n cl x).agenda = s.agenda := rfl
@[simp] theorem putCluster_turn (s : State) (n : Nat) (cl : Cl) (x : Cluster) : (s.putCluster n cl x).turn = s.turn := rfl
@[simp] theorem putCluster_curCore (s : State) (n : Nat) (cl : Cl) (x : Cluster) : (s.putCluster n cl x).curCore = s.curCore := rfl
@[simp] theorem putCluster_cur (s : State) (n : Nat) (cl : Cl) (x : Cluster) : (s.putCluster n cl x).cur = s.cur := rfl
@[simp] theorem putCluster_via (s : State) (n : Nat) (cl : Cl) (x : Cluster) : (s.putCluster n cl x).via = s.via := rfl
@[simp] theorem putCluster_blocked (s : State) (n : Nat) (cl : Cl) (x : Cluster) : (s.putCluster n cl x).blocked = s.blocked := rfl
@[simp] theorem putCluster_free (s : State) (n : Nat) (cl : Cl) (x : Cluster) : (s.putCluster n cl x).free = s.free := rfl

@[simp] theorem putRegs_bays (s : State) (r : Regs) : (s.putRegs r).bays = s.bays := rfl
@[simp] theorem putRegs_dies (s : State) (r : Regs) : (s.putRegs r).dies = s.dies := rfl
@[simp] theorem putRegs_routers (s : State) (r : Regs) : (s.putRegs r).routers = s.routers := rfl
@[simp] theorem putRegs_units (s : State) (r : Regs) : (s.putRegs r).units = s.units := rfl
@[simp] theorem putRegs_scopes (s : State) (r : Regs) : (s.putRegs r).scopes = s.scopes := rfl
@[simp] theorem putRegs_nests (s : State) (r : Regs) : (s.putRegs r).nests = s.nests := rfl
@[simp] theorem putRegs_graphs (s : State) (r : Regs) : (s.putRegs r).graphs = s.graphs := rfl
@[simp] theorem putRegs_mem (s : State) (r : Regs) : (s.putRegs r).mem = s.mem := rfl
@[simp] theorem putRegs_sys (s : State) (r : Regs) : (s.putRegs r).sys = s.sys := rfl
@[simp] theorem putRegs_fab (s : State) (r : Regs) : (s.putRegs r).fab = s.fab := rfl
@[simp] theorem putRegs_host (s : State) (r : Regs) : (s.putRegs r).host = s.host := rfl
@[simp] theorem putRegs_agenda (s : State) (r : Regs) : (s.putRegs r).agenda = s.agenda := rfl
@[simp] theorem putRegs_turn (s : State) (r : Regs) : (s.putRegs r).turn = s.turn := rfl
@[simp] theorem putRegs_curCore (s : State) (r : Regs) : (s.putRegs r).curCore = s.curCore := rfl
@[simp] theorem putRegs_cur (s : State) (r : Regs) : (s.putRegs r).cur = s.cur := rfl
@[simp] theorem putRegs_via (s : State) (r : Regs) : (s.putRegs r).via = s.via := rfl
@[simp] theorem putRegs_blocked (s : State) (r : Regs) : (s.putRegs r).blocked = s.blocked := rfl
@[simp] theorem putRegs_free (s : State) (r : Regs) : (s.putRegs r).free = s.free := rfl

@[simp] theorem putCc_bays (s : State) (c : Core) : (s.putCc c).bays = s.bays := rfl
@[simp] theorem putCc_dies (s : State) (c : Core) : (s.putCc c).dies = s.dies := rfl
@[simp] theorem putCc_routers (s : State) (c : Core) : (s.putCc c).routers = s.routers := rfl
@[simp] theorem putCc_units (s : State) (c : Core) : (s.putCc c).units = s.units := rfl
@[simp] theorem putCc_scopes (s : State) (c : Core) : (s.putCc c).scopes = s.scopes := rfl
@[simp] theorem putCc_nests (s : State) (c : Core) : (s.putCc c).nests = s.nests := rfl
@[simp] theorem putCc_graphs (s : State) (c : Core) : (s.putCc c).graphs = s.graphs := rfl
@[simp] theorem putCc_mem (s : State) (c : Core) : (s.putCc c).mem = s.mem := rfl
@[simp] theorem putCc_sys (s : State) (c : Core) : (s.putCc c).sys = s.sys := rfl
@[simp] theorem putCc_fab (s : State) (c : Core) : (s.putCc c).fab = s.fab := rfl
@[simp] theorem putCc_host (s : State) (c : Core) : (s.putCc c).host = s.host := rfl
@[simp] theorem putCc_agenda (s : State) (c : Core) : (s.putCc c).agenda = s.agenda := rfl
@[simp] theorem putCc_turn (s : State) (c : Core) : (s.putCc c).turn = s.turn := rfl
@[simp] theorem putCc_curCore (s : State) (c : Core) : (s.putCc c).curCore = s.curCore := rfl
@[simp] theorem putCc_cur (s : State) (c : Core) : (s.putCc c).cur = s.cur := rfl
@[simp] theorem putCc_via (s : State) (c : Core) : (s.putCc c).via = s.via := rfl
@[simp] theorem putCc_blocked (s : State) (c : Core) : (s.putCc c).blocked = s.blocked := rfl
@[simp] theorem putCc_free (s : State) (c : Core) : (s.putCc c).free = s.free := rfl

@[simp] theorem core_putCluster_regs (c : Core) (cl : Cl) (x : Cluster) : (c.putCluster cl x).regs = c.regs := by cases cl <;> rfl
@[simp] theorem core_putCluster_queues (c : Core) (cl : Cl) (x : Cluster) : (c.putCluster cl x).queues = c.queues := by cases cl <;> rfl
@[simp] theorem core_putCluster_cues (c : Core) (cl : Cl) (x : Cluster) : (c.putCluster cl x).cues = c.cues := by cases cl <;> rfl
@[simp] theorem core_putCluster_frame0 (c : Core) (cl : Cl) (x : Cluster) : (c.putCluster cl x).frame0 = c.frame0 := by cases cl <;> rfl
@[simp] theorem core_putCluster_frame1 (c : Core) (cl : Cl) (x : Cluster) : (c.putCluster cl x).frame1 = c.frame1 := by cases cl <;> rfl
@[simp] theorem core_putCluster_acc (c : Core) (cl : Cl) (x : Cluster) : (c.putCluster cl x).acc = c.acc := by cases cl <;> rfl
@[simp] theorem core_putCluster_lease (c : Core) (cl : Cl) (x : Cluster) : (c.putCluster cl x).lease = c.lease := by cases cl <;> rfl
@[simp] theorem core_putCluster_leaseFlights (c : Core) (cl : Cl) (x : Cluster) : (c.putCluster cl x).leaseFlights = c.leaseFlights := by cases cl <;> rfl
@[simp] theorem core_putCluster_cmds (c : Core) (cl : Cl) (x : Cluster) : (c.putCluster cl x).cmds = c.cmds := by cases cl <;> rfl
@[simp] theorem core_putCluster_csr (c : Core) (cl : Cl) (x : Cluster) : (c.putCluster cl x).csr = c.csr := by cases cl <;> rfl
@[simp] theorem core_putCluster_mem (c : Core) (cl : Cl) (x : Cluster) : (c.putCluster cl x).mem = c.mem := by cases cl <;> rfl
@[simp] theorem core_putCluster_sys (c : Core) (cl : Cl) (x : Cluster) : (c.putCluster cl x).sys = c.sys := by cases cl <;> rfl

@[simp] theorem core_putQueue_regs (c : Core) (q : Nat) (x : Queue) : (c.putQueue q x).regs = c.regs := rfl
@[simp] theorem core_putQueue_k (c : Core) (q : Nat) (x : Queue) : (c.putQueue q x).k = c.k := rfl
@[simp] theorem core_putQueue_l (c : Core) (q : Nat) (x : Queue) : (c.putQueue q x).l = c.l := rfl
@[simp] theorem core_putQueue_c (c : Core) (q : Nat) (x : Queue) : (c.putQueue q x).c = c.c := rfl
@[simp] theorem core_putQueue_s (c : Core) (q : Nat) (x : Queue) : (c.putQueue q x).s = c.s := rfl
@[simp] theorem core_putQueue_cues (c : Core) (q : Nat) (x : Queue) : (c.putQueue q x).cues = c.cues := rfl
@[simp] theorem core_putQueue_frame0 (c : Core) (q : Nat) (x : Queue) : (c.putQueue q x).frame0 = c.frame0 := rfl
@[simp] theorem core_putQueue_frame1 (c : Core) (q : Nat) (x : Queue) : (c.putQueue q x).frame1 = c.frame1 := rfl
@[simp] theorem core_putQueue_acc (c : Core) (q : Nat) (x : Queue) : (c.putQueue q x).acc = c.acc := rfl
@[simp] theorem core_putQueue_lease (c : Core) (q : Nat) (x : Queue) : (c.putQueue q x).lease = c.lease := rfl
@[simp] theorem core_putQueue_leaseFlights (c : Core) (q : Nat) (x : Queue) : (c.putQueue q x).leaseFlights = c.leaseFlights := rfl
@[simp] theorem core_putQueue_cmds (c : Core) (q : Nat) (x : Queue) : (c.putQueue q x).cmds = c.cmds := rfl
@[simp] theorem core_putQueue_csr (c : Core) (q : Nat) (x : Queue) : (c.putQueue q x).csr = c.csr := rfl
@[simp] theorem core_putQueue_mem (c : Core) (q : Nat) (x : Queue) : (c.putQueue q x).mem = c.mem := rfl
@[simp] theorem core_putQueue_sys (c : Core) (q : Nat) (x : Queue) : (c.putQueue q x).sys = c.sys := rfl

@[simp] theorem core_putCue_regs (c : Core) (f : Nat) (x : List Nat) : (c.putCue f x).regs = c.regs := rfl
@[simp] theorem core_putCue_k (c : Core) (f : Nat) (x : List Nat) : (c.putCue f x).k = c.k := rfl
@[simp] theorem core_putCue_l (c : Core) (f : Nat) (x : List Nat) : (c.putCue f x).l = c.l := rfl
@[simp] theorem core_putCue_c (c : Core) (f : Nat) (x : List Nat) : (c.putCue f x).c = c.c := rfl
@[simp] theorem core_putCue_s (c : Core) (f : Nat) (x : List Nat) : (c.putCue f x).s = c.s := rfl
@[simp] theorem core_putCue_queues (c : Core) (f : Nat) (x : List Nat) : (c.putCue f x).queues = c.queues := rfl
@[simp] theorem core_putCue_frame0 (c : Core) (f : Nat) (x : List Nat) : (c.putCue f x).frame0 = c.frame0 := rfl
@[simp] theorem core_putCue_frame1 (c : Core) (f : Nat) (x : List Nat) : (c.putCue f x).frame1 = c.frame1 := rfl
@[simp] theorem core_putCue_acc (c : Core) (f : Nat) (x : List Nat) : (c.putCue f x).acc = c.acc := rfl
@[simp] theorem core_putCue_lease (c : Core) (f : Nat) (x : List Nat) : (c.putCue f x).lease = c.lease := rfl
@[simp] theorem core_putCue_leaseFlights (c : Core) (f : Nat) (x : List Nat) : (c.putCue f x).leaseFlights = c.leaseFlights := rfl
@[simp] theorem core_putCue_cmds (c : Core) (f : Nat) (x : List Nat) : (c.putCue f x).cmds = c.cmds := rfl
@[simp] theorem core_putCue_csr (c : Core) (f : Nat) (x : List Nat) : (c.putCue f x).csr = c.csr := rfl
@[simp] theorem core_putCue_mem (c : Core) (f : Nat) (x : List Nat) : (c.putCue f x).mem = c.mem := rfl
@[simp] theorem core_putCue_sys (c : Core) (f : Nat) (x : List Nat) : (c.putCue f x).sys = c.sys := rfl

@[simp] theorem cluster_putCluster_same (c : Core) (cl : Cl) (x : Cluster) : (c.putCluster cl x).cluster cl = x := by cases cl <;> rfl

theorem cluster_putCluster_other (c : Core) (cl cl' : Cl) (x : Cluster) (h : cl' ≠ cl) : (c.putCluster cl x).cluster cl' = c.cluster cl' := by
  cases cl <;> cases cl' <;> first | rfl | exact absurd rfl h

@[simp] theorem cluster_putQueue (c : Core) (q : Nat) (x : Queue) (cl : Cl) : (c.putQueue q x).cluster cl = c.cluster cl := by cases cl <;> rfl
@[simp] theorem cluster_putCue (c : Core) (f : Nat) (x : List Nat) (cl : Cl) : (c.putCue f x).cluster cl = c.cluster cl := by cases cl <;> rfl

end Sys2Proof.Laws
end

