-- ==== Sys2Proof/Laws/Map.lean ====
section
/-! SUPPORT. Reading back what was written: association lists, cores, bays, dies, vectors and registers. -/

namespace Sys2Proof.Laws
open Sys2Proof Sys2Proof.Machine

/-! ## Association lists -/

theorem find_set_same {α : Type} (m : Map α) (n : Nat) (v : α) : Map.find? (Map.set m n v) n = some v := by
  induction m with
  | nil => simp [Map.set, Map.find?]
  | cons p m ih =>
    obtain ⟨k, w⟩ := p
    unfold Map.set
    split
    · simp [Map.find?]
    · split
      · simp [Map.find?]
      · rename_i h
        simp [Map.find?, Ne.symm h, ih]

theorem find_set_other {α : Type} (m : Map α) (n k : Nat) (v : α) (h : k ≠ n) : Map.find? (Map.set m n v) k = Map.find? m k := by
  induction m with
  | nil => simp [Map.set, Map.find?, Ne.symm h]
  | cons p m ih =>
    obtain ⟨a, w⟩ := p
    unfold Map.set
    split
    · simp [Map.find?, Ne.symm h]
    · split
      · rename_i h2
        subst h2
        simp [Map.find?, Ne.symm h]
      · simp only [Map.find?]
        split
        · rfl
        · exact ih

@[simp] theorem get_set_same {α : Type} (d : α) (m : Map α) (n : Nat) (v : α) : Map.get d (Map.set m n v) n = v := by
  simp [Map.get, find_set_same]

theorem get_set_other {α : Type} (d : α) (m : Map α) (n k : Nat) (v : α) (h : k ≠ n) : Map.get d (Map.set m n v) k = Map.get d m k := by
  simp [Map.get, find_set_other m n k v h]

theorem get_set {α : Type} (d : α) (m : Map α) (n k : Nat) (v : α) :
    Map.get d (Map.set m n v) k = if k = n then v else Map.get d m k := by
  by_cases h : k = n
  · subst h; simp
  · simp [h, get_set_other d m n k v h]

/-! ## Cores, bays, dies -/

@[simp] theorem core_putCore_same (s : State) (n : Nat) (c : Core) : (s.putCore n c).core n = c := by simp [State.core]
theorem core_putCore_other (s : State) (n k : Nat) (c : Core) (h : k ≠ n) : (s.putCore n c).core k = s.core k := by
  simp [State.core, get_set_other _ _ _ _ _ h]
@[simp] theorem bay_putBay_same (s : State) (n : Nat) (c : Bay) : (s.putBay n c).bay n = c := by simp [State.bay]
theorem bay_putBay_other (s : State) (n k : Nat) (c : Bay) (h : k ≠ n) : (s.putBay n c).bay k = s.bay k := by
  simp [State.bay, get_set_other _ _ _ _ _ h]
@[simp] theorem die_putDie_same (s : State) (n : Nat) (c : Die) : (s.putDie n c).die n = c := by simp [State.die]
theorem die_putDie_other (s : State) (n k : Nat) (c : Die) (h : k ≠ n) : (s.putDie n c).die k = s.die k := by
  simp [State.die, get_set_other _ _ _ _ _ h]

@[simp] theorem core_putBay (s : State) (n k : Nat) (c : Bay) : (s.putBay n c).core k = s.core k := rfl
@[simp] theorem core_putDie (s : State) (n k : Nat) (c : Die) : (s.putDie n c).core k = s.core k := rfl
@[simp] theorem core_withMem (s : State) (k : Nat) (m : Memory) : (s.withMem m).core k = s.core k := rfl
@[simp] theorem core_withSys (s : State) (k : Nat) (y : Sys) : (s.withSys y).core k = s.core k := rfl
@[simp] theorem core_withFab (s : State) (k : Nat) (f : Fabric) : (s.withFab f).core k = s.core k := rfl
@[simp] theorem core_withHost (s : State) (k : Nat) (h : HostIf) : (s.withHost h).core k = s.core k := rfl
@[simp] theorem core_putScope (s : State) (k : Nat) (id : W16) (sc : Scope) : (s.putScope id sc).core k = s.core k := rfl
@[simp] theorem die_putCore (s : State) (n k : Nat) (c : Core) : (s.putCore n c).die k = s.die k := rfl
@[simp] theorem bay_putCore (s : State) (n k : Nat) (c : Core) : (s.putCore n c).bay k = s.bay k := rfl
@[simp] theorem bay_putDie (s : State) (n k : Nat) (d : Die) : (s.putDie n d).bay k = s.bay k := rfl
@[simp] theorem die_putBay (s : State) (n k : Nat) (d : Bay) : (s.putBay n d).die k = s.die k := rfl

@[simp] theorem core_putRegs (s : State) (r : Regs) : (s.putRegs r).core s.curCore = { s.core s.curCore with regs := r } := by
  simp [State.putRegs]
@[simp] theorem regs_putRegs (s : State) (r : Regs) : (s.putRegs r).regs = r := by simp [State.regs]
@[simp] theorem cc_putCc (s : State) (c : Core) : (s.putCc c).cc = c := by simp [State.cc, State.putCc]
@[simp] theorem regs_putCc (s : State) (c : Core) : (s.putCc c).regs = c.regs := by simp [State.regs, State.putCc]
@[simp] theorem cc_putRegs (s : State) (r : Regs) : (s.putRegs r).cc = { s.cc with regs := r } := by simp [State.cc]
@[simp] theorem core_putCluster (s : State) (n : Nat) (cl : Cl) (x : Cluster) :
    (s.putCluster n cl x).core n = (s.core n).putCluster cl x := by simp [State.putCluster]

/-! ## Vectors and registers (06 R147) -/

theorem vget_set {α : Type} {n : Nat} (d : α) (v : Vector α n) (i k : Nat) (x : α) (hi : i < n) :
    vget d (v.setIfInBounds i x) k = if k = i then x else vget d v k := by
  unfold vget
  by_cases h : k = i
  · subst h; simp [hi]
  · simp [Ne.symm h, h]

theorem getX_setX (r : Regs) (d n : Nat) (v : W64) (hd : d < 32) :
    (r.setX d v).getX n = if n = d ∧ d ≠ 0 then v else r.getX n := by
  unfold Regs.setX Regs.getX
  by_cases h0 : d = 0
  · simp [h0]
  · by_cases hn : n = 0
    · subst hn; simp [h0, Ne.symm h0]
    · simp [h0, hn, vget_set _ _ _ _ _ hd]

@[simp] theorem setX_lx (r : Regs) (d : Nat) (v : W64) : (r.setX d v).lx = r.lx := by unfold Regs.setX; split <;> rfl
@[simp] theorem setX_sx (r : Regs) (d : Nat) (v : W64) : (r.setX d v).sx = r.sx := by unfold Regs.setX; split <;> rfl
@[simp] theorem setX_cx (r : Regs) (d : Nat) (v : W64) : (r.setX d v).cx = r.cx := by unfold Regs.setX; split <;> rfl
@[simp] theorem setX_v (r : Regs) (d : Nat) (v : W64) : (r.setX d v).v = r.v := by unfold Regs.setX; split <;> rfl
@[simp] theorem setX_p (r : Regs) (d : Nat) (v : W64) : (r.setX d v).p = r.p := by unfold Regs.setX; split <;> rfl

end Sys2Proof.Laws
end

