-- ==== Sys2Proof/Laws/Issue.lean ====
section
/-! SUPPORT. The issue of a lane, said once: when it happens, and what it does besides the lane's own effect. -/

namespace Sys2Proof.Laws
open Sys2Proof Sys2Proof.Machine

/-! ## When a lane issues -/

/-- Where every check passes and nothing is waited for, the lane issues with its effect. -/
theorem issue_next {cl : Cl} {cue : Nat} {pre : Chk Unit} {pops pushes : List Nat} {body : List Vec → Chk Eff} {s : State}
    {vs : List Vec} {e : Eff} (h1 : pre = .ok ()) (h2 : heads s.cc pops = .ok vs) (h3 : cuesReady s.cc cl cue = .ok ())
    (h4 : roomFor s pushes = .ok ()) (h5 : body vs = .ok e) :
    issue cl cue pre pops pushes body s = .next (finish s.curCore cl cue pops e) := by
  unfold issue
  rw [h1, h2, h3, h4]
  simp only [bind, Except.bind, h5]

/-- A lane that names no queue and no cue. -/
theorem issuePlain_next {cl : Cl} {pre : Chk Unit} {body : Chk Eff} {s : State} {e : Eff} (h1 : pre = .ok ()) (h5 : body = .ok e) :
    issuePlain cl pre body s = .next (finish s.curCore cl 0 [] e) := by
  refine issue_next h1 rfl ?_ rfl h5
  cases cl <;> rfl

/-- A lane whose first check fails does not issue. -/
theorem issue_pre {cl : Cl} {cue : Nat} {pre : Chk Unit} {pops pushes : List Nat} {body : List Vec → Chk Eff} {s : State} {h : Halt}
    (h1 : pre = .error h) : issue cl cue pre pops pushes body s = .next (s.halted s.curCore cl h) := by
  unfold issue
  rw [h1]
  simp only [bind, Except.bind]

/-- A lane whose own check fails does not issue. -/
theorem issuePlain_body {cl : Cl} {pre : Chk Unit} {body : Chk Eff} {s : State} {h : Halt} (h1 : pre = .ok ()) (h5 : body = .error h) :
    issuePlain cl pre body s = .next (s.halted s.curCore cl h) := by
  have hc : cuesReady s.cc cl 0 = .ok () := by cases cl <;> rfl
  unfold issuePlain issue
  rw [h1, hc, h5]
  rfl

/-- An issue always answers a state. -/
theorem issue_total (cl : Cl) (cue : Nat) (pre : Chk Unit) (pops pushes : List Nat) (body : List Vec → Chk Eff) (s : State) :
    ∃ t, issue cl cue pre pops pushes body s = .next t := ⟨_, rfl⟩

/-! ## The notes that an issue lets into their places -/

theorem putBlock_keeps (c : Core) (b : TreeBlock) :
    (c.putBlock b).regs = c.regs ∧ (c.putBlock b).queues = c.queues ∧ (c.putBlock b).cues = c.cues ∧ (c.putBlock b).acc = c.acc ∧
      (c.putBlock b).csr = c.csr ∧ (c.putBlock b).mem = c.mem ∧ (c.putBlock b).cmds = c.cmds ∧ (c.putBlock b).lease = c.lease ∧
      (c.putBlock b).frame0 = c.frame0 ∧ (c.putBlock b).frame1 = c.frame1 ∧ (c.putBlock b).leaseFlights = c.leaseFlights ∧
      (c.putBlock b).k = c.k ∧ (c.putBlock b).l = c.l ∧ (c.putBlock b).c = c.c ∧ (c.putBlock b).s = c.s := by
  unfold Core.putBlock
  split <;> simp

theorem modifyTree_keeps (c : Core) (cl : Cl) (f : Tree → Tree) :
    (c.modifyTree cl f).regs = c.regs ∧ (c.modifyTree cl f).queues = c.queues ∧ (c.modifyTree cl f).cues = c.cues ∧
      (c.modifyTree cl f).acc = c.acc ∧ (c.modifyTree cl f).csr = c.csr ∧ (c.modifyTree cl f).mem = c.mem ∧
      (c.modifyTree cl f).cmds = c.cmds ∧ (c.modifyTree cl f).lease = c.lease ∧ (c.modifyTree cl f).frame0 = c.frame0 ∧
      (c.modifyTree cl f).frame1 = c.frame1 ∧ (c.modifyTree cl f).leaseFlights = c.leaseFlights ∧ (c.modifyTree cl f).k = c.k ∧
      (c.modifyTree cl f).l = c.l ∧ (c.modifyTree cl f).c = c.c ∧ (c.modifyTree cl f).s = c.s := by
  unfold Core.modifyTree
  split
  · simp
  · exact putBlock_keeps c _

theorem settleMarks_keeps (c : Core) :
    c.settleMarks.regs = c.regs ∧ c.settleMarks.queues = c.queues ∧ c.settleMarks.cues = c.cues ∧ c.settleMarks.acc = c.acc ∧
      c.settleMarks.csr = c.csr ∧ c.settleMarks.mem = c.mem ∧ c.settleMarks.cmds = c.cmds ∧ c.settleMarks.lease = c.lease ∧
      c.settleMarks.frame0 = c.frame0 ∧ c.settleMarks.frame1 = c.frame1 ∧ c.settleMarks.leaseFlights = c.leaseFlights ∧
      c.settleMarks.k = c.k ∧ c.settleMarks.l = c.l ∧ c.settleMarks.c = c.c := by
  unfold Core.settleMarks
  simp only
  split
  · simp
  · have h := modifyTree_keeps { c with s := { c.s with iq := (takeMarks c.s.iq).1 } } .S
      (fun t => { t with held := t.held ++ (takeMarks c.s.iq).2 })
    simp only [h, and_self]

/-! ## What the issue itself does -/

/-- Queues and cues aside, popping and pushing tokens leaves a core as it was. -/
theorem popAll_keeps (qs : List Nat) : ∀ c : Core,
    (popAll c qs).regs = c.regs ∧ (popAll c qs).cues = c.cues ∧ (popAll c qs).acc = c.acc ∧ (popAll c qs).csr = c.csr ∧
      (popAll c qs).mem = c.mem ∧ (popAll c qs).cmds = c.cmds ∧ (popAll c qs).lease = c.lease ∧ (popAll c qs).sys = c.sys ∧
      (popAll c qs).frame0 = c.frame0 ∧ (popAll c qs).frame1 = c.frame1 ∧ (popAll c qs).leaseFlights = c.leaseFlights ∧
      ∀ cl, (popAll c qs).cluster cl = c.cluster cl := by
  induction qs with
  | nil => intro c; simp [popAll]
  | cons q qs ih =>
    intro c
    have h := ih (c.popQueue q)
    simpa [popAll, Core.popQueue] using h

theorem popCues_keeps (fs : List Nat) : ∀ c : Core,
    (popCues c fs).regs = c.regs ∧ (popCues c fs).queues = c.queues ∧ (popCues c fs).acc = c.acc ∧ (popCues c fs).csr = c.csr ∧
      (popCues c fs).mem = c.mem ∧ (popCues c fs).cmds = c.cmds ∧ (popCues c fs).lease = c.lease ∧ (popCues c fs).sys = c.sys ∧
      (popCues c fs).frame0 = c.frame0 ∧ (popCues c fs).frame1 = c.frame1 ∧ (popCues c fs).leaseFlights = c.leaseFlights ∧
      ∀ cl, (popCues c fs).cluster cl = c.cluster cl := by
  induction fs with
  | nil => intro c; simp [popCues]
  | cons q qs ih =>
    intro c
    have h := ih (c.putCue q (c.cue q).tail)
    simpa [popCues] using h

theorem pushCues_keeps (src : Nat) (fs : List Nat) : ∀ c : Core,
    (pushCues c fs src).regs = c.regs ∧ (pushCues c fs src).queues = c.queues ∧ (pushCues c fs src).acc = c.acc ∧
      (pushCues c fs src).csr = c.csr ∧ (pushCues c fs src).mem = c.mem ∧ (pushCues c fs src).cmds = c.cmds ∧
      (pushCues c fs src).lease = c.lease ∧ (pushCues c fs src).sys = c.sys ∧ (pushCues c fs src).frame0 = c.frame0 ∧
      (pushCues c fs src).frame1 = c.frame1 ∧ (pushCues c fs src).leaseFlights = c.leaseFlights ∧
      ∀ cl, (pushCues c fs src).cluster cl = c.cluster cl := by
  induction fs with
  | nil => intro c; simp [pushCues]
  | cons q qs ih =>
    intro c
    have h := ih (c.putCue q (c.cue q ++ [src]))
    simpa [pushCues] using h

/-- The core as the issue leaves it, before its pushes. -/
def issuedCore (n : Nat) (cl : Cl) (cue : Nat) (pops : List Nat) (e : Eff) : Core :=
  let c := e.st.core n
  let x := c.cluster cl
  let c1 := pushCues (popCues (popAll c pops) (cuePops cl cue)) (if e.fails then [] else cuePushes cl cue) x.flightNo
  let f := flightOf e.flight (decide (e.push ≠ []) || decide (cuePushes cl cue ≠ []))
  (c1.putCluster cl ((c1.cluster cl).retire c.sys.sv f e.watch)).settleMarks

theorem finish_eq (n : Nat) (cl : Cl) (cue : Nat) (pops : List Nat) (e : Eff) :
    finish n cl cue pops e = pushAll (e.st.putCore n (issuedCore n cl cue pops e)) n ((e.st.core n).cluster cl).flightNo e.fill e.push := rfl

/-- The clusters as the notes leave them: those of K, L and C whole, of S its numbers and flights. -/
theorem settleMarks_cluster (c : Core) :
    (∀ cl, cl ≠ .S → c.settleMarks.cluster cl = c.cluster cl) ∧ c.settleMarks.s.iseq = c.s.iseq ∧ c.settleMarks.s.flightNo = c.s.flightNo ∧
      c.settleMarks.s.skipw = c.s.skipw ∧ c.settleMarks.s.flights = c.s.flights := by
  unfold Core.settleMarks
  simp only
  split
  · refine ⟨fun cl h => ?_, rfl, rfl, rfl, rfl⟩
    cases cl <;> first | rfl | exact absurd rfl h
  · obtain ⟨-, -, -, -, -, -, -, -, -, -, -, h1, h2, h3, h4⟩ := modifyTree_keeps { c with s := { c.s with iq := (takeMarks c.s.iq).1 } } .S
      (fun t => { t with held := t.held ++ (takeMarks c.s.iq).2 })
    refine ⟨fun cl h => ?_, by rw [h4], by rw [h4], by rw [h4], by rw [h4]⟩
    cases cl <;> first | exact absurd rfl h | (simp only [Core.cluster]; first | rw [h1] | rw [h2] | rw [h3])

/-- A cluster put in its place, with the notes let into theirs. -/
theorem retired_cluster (c : Core) (cl : Cl) (x : Cluster) :
    ((c.putCluster cl x).settleMarks.cluster cl).iseq = x.iseq ∧ ((c.putCluster cl x).settleMarks.cluster cl).flightNo = x.flightNo ∧
      ((c.putCluster cl x).settleMarks.cluster cl).skipw = x.skipw ∧ ((c.putCluster cl x).settleMarks.cluster cl).flights = x.flights ∧
      (cl ≠ .S → ((c.putCluster cl x).settleMarks.cluster cl).iq = x.iq) := by
  obtain ⟨h, h1, h2, h3, h4⟩ := settleMarks_cluster (c.putCluster cl x)
  cases cl
  case S => exact ⟨h1, h2, h3, h4, fun h => absurd rfl h⟩
  all_goals
    rw [h _ (by decide)]
    exact ⟨rfl, rfl, rfl, rfl, fun _ => rfl⟩

/-- What retiring a lane and letting notes into their places leaves as it was. -/
theorem retired_keeps (c : Core) (cl : Cl) (x : Cluster) :
    (c.putCluster cl x).settleMarks.regs = c.regs ∧ (c.putCluster cl x).settleMarks.queues = c.queues ∧
      (c.putCluster cl x).settleMarks.cues = c.cues ∧ (c.putCluster cl x).settleMarks.acc = c.acc ∧
      (c.putCluster cl x).settleMarks.csr = c.csr ∧ (c.putCluster cl x).settleMarks.mem = c.mem ∧
      (c.putCluster cl x).settleMarks.cmds = c.cmds ∧ (c.putCluster cl x).settleMarks.lease = c.lease ∧
      (c.putCluster cl x).settleMarks.frame0 = c.frame0 ∧ (c.putCluster cl x).settleMarks.frame1 = c.frame1 ∧
      (c.putCluster cl x).settleMarks.leaseFlights = c.leaseFlights := by
  obtain ⟨h1, h2, h3, h4, h5, h6, h7, h8, h9, h10, h11, -⟩ := settleMarks_keeps (c.putCluster cl x)
  rw [h1, h2, h3, h4, h5, h6, h7, h8, h9, h10, h11]
  cases cl <;> exact ⟨rfl, rfl, rfl, rfl, rfl, rfl, rfl, rfl, rfl, rfl, rfl⟩

theorem issuedCore_keeps (n : Nat) (cl : Cl) (cue : Nat) (pops : List Nat) (e : Eff) :
    (issuedCore n cl cue pops e).regs = (e.st.core n).regs ∧ (issuedCore n cl cue pops e).acc = (e.st.core n).acc ∧
      (issuedCore n cl cue pops e).csr = (e.st.core n).csr ∧ (issuedCore n cl cue pops e).mem = (e.st.core n).mem ∧
      (issuedCore n cl cue pops e).cmds = (e.st.core n).cmds ∧ (issuedCore n cl cue pops e).lease = (e.st.core n).lease ∧
      (issuedCore n cl cue pops e).frame0 = (e.st.core n).frame0 ∧ (issuedCore n cl cue pops e).frame1 = (e.st.core n).frame1 ∧
      (issuedCore n cl cue pops e).leaseFlights = (e.st.core n).leaseFlights := by
  obtain ⟨a1, -, -, a2, a3, a4, a5, a6, a7, a8, a9⟩ := retired_keeps (pushCues (popCues (popAll (e.st.core n) pops) (cuePops cl cue))
    (if e.fails then [] else cuePushes cl cue) ((e.st.core n).cluster cl).flightNo) cl (((pushCues (popCues (popAll (e.st.core n) pops)
    (cuePops cl cue)) (if e.fails then [] else cuePushes cl cue) ((e.st.core n).cluster cl).flightNo).cluster cl).retire
    (e.st.core n).sys.sv (flightOf e.flight (decide (e.push ≠ []) || decide (cuePushes cl cue ≠ []))) e.watch)
  obtain ⟨b1, -, b2, b3, b4, b5, b6, -, b7, b8, b9, -⟩ := pushCues_keeps ((e.st.core n).cluster cl).flightNo
    (if e.fails then [] else cuePushes cl cue) (popCues (popAll (e.st.core n) pops) (cuePops cl cue))
  obtain ⟨c1, -, c2, c3, c4, c5, c6, -, c7, c8, c9, -⟩ := popCues_keeps (cuePops cl cue) (popAll (e.st.core n) pops)
  obtain ⟨d1, -, d2, d3, d4, d5, d6, -, d7, d8, d9, -⟩ := popAll_keeps pops (e.st.core n)
  exact ⟨a1.trans (b1.trans (c1.trans d1)), a2.trans (b2.trans (c2.trans d2)), a3.trans (b3.trans (c3.trans d3)),
    a4.trans (b4.trans (c4.trans d4)), a5.trans (b5.trans (c5.trans d5)), a6.trans (b6.trans (c6.trans d6)),
    a7.trans (b7.trans (c7.trans d7)), a8.trans (b8.trans (c8.trans d8)), a9.trans (b9.trans (c9.trans d9))⟩

/-- A lane that pushes nothing: the state after its issue differs from its effect in its core alone. -/
theorem finish_nopush (n : Nat) (cl : Cl) (cue : Nat) (pops : List Nat) (e : Eff) (h : e.push = []) :
    finish n cl cue pops e = e.st.putCore n (issuedCore n cl cue pops e) := by
  rw [finish_eq, h]; rfl

/-- A lane with no queue and no cue. -/
theorem finish_plain (n : Nat) (cl : Cl) (st : State) (f : Option FlightKind) (w : Option (W64 × List Nat)) :
    finish n cl 0 [] { st := st, flight := f, watch := w }
      = st.putCore n ((st.core n).putCluster cl (((st.core n).cluster cl).retire (st.core n).sys.sv f w)).settleMarks := by
  have hp : cuePops cl 0 = [] := by cases cl <;> rfl
  have hq : cuePushes cl 0 = [] := by cases cl <;> rfl
  rw [finish_nopush _ _ _ _ _ rfl]
  unfold issuedCore
  simp only [hp, hq, popAll, popCues, pushCues, List.foldl_nil, flightOf]
  cases cl <;> cases f <;> rfl

end Sys2Proof.Laws
end

