-- ==== Sys2Proof/Laws/Memory.lean ====
section
/-! SUPPORT. The canonical form of memory: every memory operation keeps it; and what is read after a write. -/

namespace Sys2Proof.Laws
open Sys2Proof Sys2Proof.Machine

/-! ## One byte -/

theorem cellsWf_weaken (m : List Host.Cell) (lo lo' : Nat) (h : lo' ≤ lo) (hw : cellsWf lo m = true) : cellsWf lo' m = true := by
  cases m with
  | nil => rfl
  | cons p m =>
    obtain ⟨a, b⟩ := p
    simp only [cellsWf, Bool.and_eq_true, decide_eq_true_eq] at hw ⊢
    exact ⟨⟨Nat.le_trans h hw.1.1, hw.1.2⟩, hw.2⟩

theorem cellsWf_cons (lo a : Nat) (b : Byte) (m : List Host.Cell) :
    cellsWf lo ((a, b) :: m) = true ↔ lo ≤ a ∧ b ≠ 0 ∧ cellsWf (a + 1) m = true := by
  simp only [cellsWf, Bool.and_eq_true, decide_eq_true_eq, and_assoc]

theorem cellSet_wf (m : List Host.Cell) (n : Nat) (v : Byte) :
    ∀ lo, lo ≤ n → cellsWf lo m = true → cellsWf lo (cellSet m n v) = true := by
  induction m with
  | nil =>
    intro lo h _
    unfold cellSet
    split
    · rfl
    · rename_i hv; exact (cellsWf_cons _ _ _ _).2 ⟨h, hv, rfl⟩
  | cons p m ih =>
    obtain ⟨a, b⟩ := p
    intro lo h hw
    obtain ⟨h1, h2, h3⟩ := (cellsWf_cons _ _ _ _).1 hw
    unfold cellSet
    split
    · split
      · exact (cellsWf_cons _ _ _ _).2 ⟨h1, h2, h3⟩
      · rename_i hlt hv
        exact (cellsWf_cons _ _ _ _).2 ⟨h, hv, (cellsWf_cons _ _ _ _).2 ⟨hlt, h2, h3⟩⟩
    · split
      · rename_i hne
        subst hne
        split
        · exact cellsWf_weaken m _ _ (by omega) h3
        · rename_i hv; exact (cellsWf_cons _ _ _ _).2 ⟨h1, hv, h3⟩
      · rename_i hlt hne
        exact (cellsWf_cons _ _ _ _).2 ⟨h1, h2, ih (a + 1) (by omega) h3⟩

theorem cellGet_below (m : List Host.Cell) (lo n : Nat) (h : n < lo) (hw : cellsWf lo m = true) : cellGet m n = 0 := by
  induction m generalizing lo with
  | nil => rfl
  | cons p m ih =>
    obtain ⟨a, b⟩ := p
    simp only [cellsWf, Bool.and_eq_true, decide_eq_true_eq] at hw
    have : a ≠ n := by omega
    simp [cellGet, this, ih (a + 1) (by omega) hw.2]

theorem cellGet_cellSet (m : List Host.Cell) (n k : Nat) (v : Byte) :
    ∀ lo, cellsWf lo m = true → cellGet (cellSet m n v) k = if k = n then v else cellGet m k := by
  induction m with
  | nil =>
    intro lo _
    unfold cellSet
    split
    · rename_i hv; by_cases hk : k = n <;> simp [cellGet, hk, hv]
    · by_cases hk : k = n
      · simp [cellGet, hk]
      · simp [cellGet, hk, Ne.symm hk]
  | cons p m ih =>
    obtain ⟨a, b⟩ := p
    intro lo hw
    have hw0 := hw
    simp only [cellsWf, Bool.and_eq_true, decide_eq_true_eq] at hw
    obtain ⟨⟨h1, h2⟩, h3⟩ := hw
    unfold cellSet
    split
    · rename_i hlt
      split
      · rename_i hv
        by_cases hk : k = n
        · subst hk
          have : cellGet ((a, b) :: m) k = 0 := by
            have hak : a ≠ k := by omega
            simp [cellGet, hak, cellGet_below m (a + 1) k (by omega) h3]
          simp [this, hv]
        · simp [hk]
      · by_cases hk : k = n
        · simp [cellGet, hk]
        · simp [cellGet, hk, Ne.symm hk]
    · split
      · rename_i hlt hne
        subst hne
        split
        · rename_i hv
          by_cases hk : k = n
          · subst hk; simp [hv, cellGet_below m (k + 1) k (by omega) h3]
          · simp [cellGet, hk, Ne.symm hk]
        · by_cases hk : k = n
          · simp [cellGet, hk]
          · simp [cellGet, hk, Ne.symm hk]
      · rename_i hlt hne
        simp only [cellGet]
        split
        · rename_i hak; subst hak; simp [Ne.symm hne]
        · exact ih (a + 1) h3

theorem setByte_wf (m : Memory) (pa : Nat) (v : Byte) (h : m.wf = true) : (m.setByte pa v).wf = true :=
  cellSet_wf m.cells pa v 0 (Nat.zero_le _) h

theorem byte_setByte (m : Memory) (pa k : Nat) (v : Byte) (h : m.wf = true) : (m.setByte pa v).byte k = if k = pa then v else m.byte k :=
  cellGet_cellSet m.cells pa k v 0 h

/-! ## Runs of bytes -/

theorem setBytes_wf (bs : List Byte) : ∀ (m : Memory) (pa : Nat), m.wf = true → (m.setBytes pa bs).wf = true := by
  induction bs with
  | nil => intro m pa h; exact h
  | cons b bs ih => intro m pa h; exact ih (m.setByte pa b) (pa + 1) (setByte_wf m pa b h)

/-- What is read after bytes are written: theirs inside the run, and what was there outside. -/
theorem byte_setBytes (bs : List Byte) : ∀ (m : Memory) (pa k : Nat), m.wf = true →
    (m.setBytes pa bs).byte k = if pa ≤ k ∧ k < pa + bs.length then bs.getD (k - pa) 0 else m.byte k := by
  induction bs with
  | nil =>
    intro m pa k _
    have : ¬ (pa ≤ k ∧ k < pa + 0) := by omega
    simp only [List.length_nil, this, if_false]
    rfl
  | cons b bs ih =>
    intro m pa k h
    have h1 := ih (m.setByte pa b) (pa + 1) k (setByte_wf m pa b h)
    show ((m.setByte pa b).setBytes (pa + 1) bs).byte k = _
    rw [h1, byte_setByte m pa k b h]
    by_cases hk : k = pa
    · subst hk
      rw [if_neg (show ¬ (k + 1 ≤ k ∧ k < k + 1 + bs.length) by omega)]
      simp
    · by_cases hin : pa + 1 ≤ k ∧ k < pa + 1 + bs.length
      · have h2 : pa ≤ k ∧ k < pa + (b :: bs).length := by simp only [List.length_cons]; omega
        have h3 : k - pa = (k - (pa + 1)) + 1 := by omega
        simp only [hin, and_self, if_true, h2]
        rw [h3]; simp
      · have h2 : ¬ (pa ≤ k ∧ k < pa + (b :: bs).length) := by simp only [List.length_cons]; omega
        rw [if_neg hin, if_neg hk, if_neg h2]

/-! ## Every operation keeps the form -/

/-- The form is a matter of the bytes alone. -/
theorem wf_of_cells {m m' : Memory} (hc : m'.cells = m.cells) (h : m.wf = true) : m'.wf = true := by
  simp only [Memory.wf, hc]
  exact h

theorem unweir_wf (m : Memory) (pa n : Nat) (h : m.wf = true) : (m.unweir pa n).wf = true := h

theorem mend_wf (m : Memory) (u : Nat) (h : m.wf = true) : (m.mend u).wf = true := h

theorem clearLine_wf (m : Memory) (u : Nat) (tag : W16) (h : m.wf = true) : (m.clearLine u tag).wf = true := by
  have hc := setBytes_wf (List.replicate 64 0) _ u (mend_wf m u h)
  simpa only [Memory.wf, Memory.clearLine] using hc

theorem rekey_wf (m : Memory) (k u : Nat) (h : m.wf = true) : (m.rekey k u).wf = true := by
  unfold Memory.rekey
  simp only
  split
  · exact h
  · generalize ((List.range 64).map fun i => m.keyed k (u + i)) = plain
    exact wf_of_cells (m := m.setBytes u plain) rfl (setBytes_wf plain m u h)

theorem claim_wf (ctx : W16) (k pa n : Nat) (us : List Nat) : ∀ m : Memory, m.wf = true → (m.claim ctx k pa n us).wf = true := by
  induction us with
  | nil => intro m h; exact h
  | cons u us ih =>
    intro m h
    unfold Memory.claim
    apply ih
    apply rekey_wf
    split
    · exact clearLine_wf m u ctx h
    · split
      · exact h
      · exact h

theorem noteSwept_wf (m : Memory) (ctx : W16) (pa n : Nat) (h : m.wf = true) : (m.noteSwept ctx pa n).wf = true := by
  unfold Memory.noteSwept
  simp only
  split <;> exact h

/-- A write by a context keeps the canonical form. -/
theorem write_wf (m : Memory) (ctx : W16) (k pa : Nat) (bs : List Byte) (h : m.wf = true) : (m.write ctx k pa bs).wf = true := by
  unfold Memory.write
  exact setBytes_wf _ _ _ (claim_wf ctx k pa _ _ _ (unweir_wf _ _ _ (noteSwept_wf m ctx pa _ h)))

theorem foldl_wf {β : Type} (f : Memory → β → Memory) (hf : ∀ m x, m.wf = true → (f m x).wf = true) (xs : List β) :
    ∀ m : Memory, m.wf = true → (xs.foldl f m).wf = true := by
  induction xs with
  | nil => intro m h; exact h
  | cons x xs ih => intro m h; exact ih (f m x) (hf m x h)

/-- A write of the machine's own keeps the canonical form. -/
theorem rawWrite_wf (m : Memory) (k pa : Nat) (bs : List Byte) (h : m.wf = true) : (m.rawWrite k pa bs).wf = true := by
  unfold Memory.rawWrite
  refine setBytes_wf _ _ _ (foldl_wf _ (fun m u hm => rekey_wf _ k u ?_) _ _ (unweir_wf m pa _ h))
  split
  · exact mend_wf m u hm
  · exact hm

theorem poisonRange_wf (m : Memory) (ctx : W16) (pa n : Nat) (h : m.wf = true) : (m.poisonRange ctx pa n).wf = true := by
  unfold Memory.poisonRange
  refine foldl_wf _ (fun m u hm => ?_) _ m h
  simp only
  split
  · have hc := clearLine_wf m u ctx hm
    simpa only [Memory.wf] using hc
  · simpa only [Memory.wf] using hm

theorem reset_wf : State.reset.mem.wf = true := rfl

end Sys2Proof.Laws
end

