-- ==== Sys2Proof/Tests/Slice0.lean ====
section
/-! SUPPORT. The tests. Words written out from the encoding tables, one for every lane of the instruction set, and ill-formed terms, one for each
check; then, for each statement with hypotheses, a witness: concrete states and operands that meet them. Every expected value is the
manual's or worked out by hand from it. -/

namespace Sys2Proof.Tests
open Sys2Proof Sys2Proof.Machine Sys2Proof.Claim
set_option Elab.async false

theorem test_words_k_1 :
    (decode .K 0x03345C00).toOption = some (.add 0x13 8 0x17) ∧
    (decode .K 0x02F84401).toOption = some (.sub 0xf 0x10 0x11) ∧
    (decode .K 0x020B3802).toOption = some (.and 0 0x16 0xe) ∧
    (decode .K 0x02534C03).toOption = some (.or 5 6 0x13) ∧
    (decode .K 0x03398404).toOption = some (.xor 0x13 0x13 1) ∧
    (decode .K 0x031FD005).toOption = some (.sll 0x11 0x1f 0x14) ∧
    (decode .K 0x03723806).toOption = some (.srl 0x17 4 0xe) ∧
    (decode .K 0x02516C07).toOption = some (.sra 5 2 0x1b) ∧
    (decode .K 0x03BFB808).toOption = some (.slt 0x1b 0x1f 0xe) ∧
    (decode .K 0x03142009).toOption = some (.sltu 0x11 8 8) ∧
    (decode .K 0x0296BC0A).toOption = some (.min 9 0xd 0xf) ∧
    (decode .K 0x0216C80B).toOption = some (.max 1 0xd 0x12) ∧
    (decode .K 0x020F800C).toOption = some (.minu 0 0x1f 0) ∧
    (decode .K 0x02BEE00D).toOption = some (.maxu 0xb 0x1d 0x18) ∧
    (decode .K 0x036C240E).toOption = some (.mul 0x16 0x18 9) ∧
    (decode .K 0x02D82C0F).toOption = some (.mulh 0xd 0x10 0xb) := by decide

theorem test_words_k_2 :
    (decode .K 0x03172410).toOption = some (.mulhu 0x11 0xe 9) ∧
    (decode .K 0x0265E811).toOption = some (.div 6 0xb 0x1a) ∧
    (decode .K 0x02910412).toOption = some (.divu 9 2 1) ∧
    (decode .K 0x0386C413).toOption = some (.rem 0x18 0xd 0x11) ∧
    (decode .K 0x02C45014).toOption = some (.remu 0xc 8 0x14) ∧
    (decode .K 0x02D50015).toOption = some (.clz 0xd 0xa) ∧
    (decode .K 0x10EDA556).toOption = some (.addi 0xe 0x1b 0x2556) ∧
    (decode .K 0x13977809).toOption = some (.andi 0x19 0xe 0x7809) ∧
    (decode .K 0x147B465E).toOption = some (.ori 7 0x16 0x465e) ∧
    (decode .K 0x1712E820).toOption = some (.xori 0x11 5 0x6820) ∧
    (decode .K 0x18C68021).toOption = some (.slli 0xc 0xd 0x21) ∧
    (decode .K 0x1BEF000A).toOption = some (.srli 0x1e 0x1e 0xa) ∧
    (decode .K 0x1C118021).toOption = some (.srai 1 3 0x21) ∧
    (decode .K 0x1F6C9243).toOption = some (.slti 0x16 0x19 0x1243) ∧
    (decode .K 0x2122BAB8).toOption = some (.sltiu 0x12 5 0x3ab8) ∧
    (decode .K 0x23E81D1F).toOption = some (.lui 0x1e 0x81d1f) := by decide

theorem test_words_k_3 :
    (decode .K 0x2425F0F1).toOption = some (.lla 2 0x5f0f1) ∧
    (decode .K 0x262CC780).toOption = some (.lif 2 0xcc780) ∧
    (decode .K 0x2807002A).toOption = some (.lit 0 0xe 2 0xa) ∧
    (decode .K 0x2AF84CAD).toOption = some (.kld 0xf 0x10 0x4cad) ∧
    (decode .K 0x052B8400).toOption = some (.fadd 0x12 0x17 1) ∧
    (decode .K 0x0411DC01).toOption = some (.fsub 1 3 0x17) ∧
    (decode .K 0x0554D002).toOption = some (.fmul 0x15 9 0x14) ∧
    (decode .K 0x05941003).toOption = some (.ffma 0x19 8 4) ∧
    (decode .K 0x05E63004).toOption = some (.fmin 0x1e 0xc 0xc) ∧
    (decode .K 0x043CC805).toOption = some (.fmax 3 0x19 0x12) ∧
    (decode .K 0x0453700E).toOption = some (.fcmp 5 6 0x1c 1) ∧
    (decode .K 0x0492003F).toOption = some (.fcvt 9 4 7) ∧
    (decode .K 0x31469F90).toOption = some (.ldB 0x14 0xd 0x1f90) ∧
    (decode .K 0x324F4E77).toOption = some (.ldBu 4 0x1e 0x4e77) ∧
    (decode .K 0x34EC960B).toOption = some (.ldH 0xe 0x19 0x160b) ∧
    (decode .K 0x36ABD796).toOption = some (.ldHu 0xa 0x17 0x5796) := by decide

theorem test_words_k_4 :
    (decode .K 0x390E1614).toOption = some (.ldW 0x10 0x1c 0x1614) ∧
    (decode .K 0x3B7A0A02).toOption = some (.ldWu 0x17 0x14 0xa02) ∧
    (decode .K 0x3D4D3F94).toOption = some (.ldD 0x14 0x1a 0x3f94) ∧
    (decode .K 0x405F6E46).toOption = some (.stB 5 0x1e 0x6e46) ∧
    (decode .K 0x42E426F6).toOption = some (.stH 0xe 8 0x26f6) ∧
    (decode .K 0x4500837A).toOption = some (.stW 0x10 1 0x37a) ∧
    (decode .K 0x469428A7).toOption = some (.stD 9 8 0x28a7) ∧
    (decode .K 0x49F70018).toOption = some (.ldAcq 0x1f 0xe 1 8) ∧
    (decode .K 0x4A009C00).toOption = some (.stRel 1 7 0 0) ∧
    (decode .K 0x500D1D91).toOption = some (.bCond 0 6 0x11 0xd91) ∧
    (decode .K 0x5240064C).toOption = some (.brBq 0 1 0x64c) ∧
    (decode .K 0x55B65C0B).toOption = some (.jal 0x1b 0x65c0b) ∧
    (decode .K 0x56045CEC).toOption = some (.jalr 0 8 0x5cec) ∧
    (decode .K 0x59419649).toOption = some (.ovlCall 0x14 3 0x1649) ∧
    (decode .K 0x5A0A8000).toOption = some (.ovlRet 0x15) ∧
    (decode .K 0x5C098A19).toOption = some (.loop 0x13 0xa19) := by decide

theorem test_words_k_5 :
    (decode .K 0x5CF9986B).toOption = some (.loopImm 0xf 0x13 0x86b) ∧
    (decode .K 0x5E373800).toOption = some (.fork 3 0xe 0xe) ∧
    (decode .K 0x60000000).toOption = some (.join) ∧
    (decode .K 0x68818000).toOption = some (.qpush 8 3) ∧
    (decode .K 0x6B548000).toOption = some (.qpop 0x15 9) ∧
    (decode .K 0x719A0000).toOption = some (.spawn 0x19 0x14) ∧
    (decode .K 0x71170001).toOption = some (.spawnG 0x11 0xe) ∧
    (decode .K 0x72048000).toOption = some (.kill 9) ∧
    (decode .K 0x74BE0000).toOption = some (.scopeWait 0xb 0x1c) ∧
    (decode .K 0x76D90000).toOption = some (.weirJoin 0xd 0x12) ∧
    (decode .K 0x79F28000).toOption = some (.weirArrive 0x1f 5 0) ∧
    (decode .K 0x79064C01).toOption = some (.weirDrop 0x10 0xc 0x13) ∧
    (decode .K 0x7A942C00).toOption = some (.weirWait 9 8 0xb) ∧
    (decode .K 0x7C000000).toOption = some (.yield) ∧
    (decode .K 0x7E000000).toOption = some (.halt) ∧
    (decode .K 0x80000EED).toOption = some (.trap 0xeed) := by decide

theorem test_words_k_6 :
    (decode .K 0x82000000).toOption = some (.sret) ∧
    (decode .K 0x90900927).toOption = some (.csrr 9 0x927) ∧
    (decode .K 0x904291DD).toOption = some (.csrw 4 5 0x1dd) ∧
    (decode .K 0x90872CF0).toOption = some (.csrs 8 0xe 0xcf0) ∧
    (decode .K 0x900DB24B).toOption = some (.csrc 0 0x1b 0x24b) ∧
    (decode .K 0x92000003).toOption = some (.fenceAcq 3) ∧
    (decode .K 0x92000108).toOption = some (.fenceRel 8) ∧
    (decode .K 0x92000208).toOption = some (.fenceAr 8) ∧
    (decode .K 0x94000002).toOption = some (.fenceSc 2) ∧
    (decode .K 0x96000000).toOption = some (.genFence) ∧
    (decode .K 0x99400000).toOption = some (.tick 0x14) ∧
    (decode .K 0x980E8001).toOption = some (.tickWait 0x1d) ∧
    (decode .K 0xA00BCC00).toOption = some (.treeOpen 0x17 0x13) ∧
    (decode .K 0xA2300000).toOption = some (.treeSeal 3) ∧
    (decode .K 0xA4099800).toOption = some (.treeNote 0x13 6) ∧
    (decode .K 0xA601D000).toOption = some (.refExec 0 3 0x14) := by decide

theorem test_words_k_7 :
    (decode .K 0xA9F10400).toOption = some (.treeBisect 0x1f 2 1) := by decide

theorem test_words_l_1 :
    (decode .L 0x20292C61).toOption = some (.ldq 2 9 2 0xc61) ∧
    (decode .L 0x108C4B8D).toOption = some (.ldqWb 1 0xc 4 0xb8d) ∧
    (decode .L 0x3047A900).toOption = some (.ldqS 3 7 0xa 9) ∧
    (decode .L 0x20611001).toOption = some (.ldqG 2 1 1 1) ∧
    (decode .L 0x1116DAF2).toOption = some (.lLdB 1 0x16 0xd 0xaf2) ∧
    (decode .L 0x313021FE).toOption = some (.lLdBu 3 0x10 2 0x1fe) ∧
    (decode .L 0x01516043).toOption = some (.lLdH 0 0x11 6 0x43) ∧
    (decode .L 0x317FD6E5).toOption = some (.lLdHu 3 0x1f 0xd 0x6e5) ∧
    (decode .L 0x018D9125).toOption = some (.lLdW 0 0xd 9 0x125) ∧
    (decode .L 0x21B3969B).toOption = some (.lLdWu 2 0x13 9 0x69b) ∧
    (decode .L 0x11D4492F).toOption = some (.lLdD 1 0x14 4 0x92f) ∧
    (decode .L 0x220DF001).toOption = some (.rldQ 2 0xd 0xf 1) ∧
    (decode .L 0x231C9DD0).toOption = some (.lCp 2 0xe 4 0xe 0x1d0) ∧
    (decode .L 0x332E23CC).toOption = some (.lCp2d 3 7 1 1 0x1cc) ∧
    (decode .L 0x23400000).toOption = some (.lCpPb 2 0) ∧
    (decode .L 0x136150A3).toOption = some (.cpOvl 1 0 0xa 8 1 1 0 3) := by decide

theorem test_words_l_2 :
    (decode .L 0x339C49C4).toOption = some (.lColl 3 0xe 2 4 0x1c4) ∧
    (decode .L 0x23A14000).toOption = some (.lPbInv 2 0xa 0) ∧
    (decode .L 0x240A9B00).toOption = some (.lAdd 2 0xa 9 0xb 0) ∧
    (decode .L 0x042C9F00).toOption = some (.lSub 0 0xc 9 0xf 0) ∧
    (decode .L 0x34577500).toOption = some (.lMul 3 0x17 7 5 0) ∧
    (decode .L 0x046960E0).toOption = some (.lAddi 0 9 6 0xe0) ∧
    (decode .L 0x2489C01A).toOption = some (.lSlli 2 9 0xc 0x1a) ∧
    (decode .L 0x34B3001F).toOption = some (.lSrli 3 0x13 0 0x1f) ∧
    (decode .L 0x1500F902).toOption = some (.laCmp 1 0xf 9 2) ∧
    (decode .L 0x259F0000).toOption = some (.lCueTest 0xf) ∧
    (decode .L 0x35A00000).toOption = some (.lCueNop 3) ∧
    (decode .L 0x26068FA7).toOption = some (.lBCond 2 1 0x2a7 8 0xf) ∧
    (decode .L 0x062DE0C7).toOption = some (.lLoop 0 0xdc7 0xe) ∧
    (decode .L 0x36400000).toOption = some (.lJoin 3) := by decide

theorem test_words_s_1 :
    (decode .S 0x0026B4E1).toOption = some (.stq 0 6 0xb 0x4e1) ∧
    (decode .S 0x008EBB33).toOption = some (.stqWb 0 0xe 0xb 0xb33) ∧
    (decode .S 0x004A6700).toOption = some (.stqS 0 0xa 6 7) ∧
    (decode .S 0x4067E000).toOption = some (.stqX 4 7 0xe 0) ∧
    (decode .S 0x011CC999).toOption = some (.sStB 0 0x1c 0xc 0x999) ∧
    (decode .S 0xC13A4BDA).toOption = some (.sStH 0xc 0x1a 4 0xbda) ∧
    (decode .S 0x015F41CA).toOption = some (.sStW 0 0x1f 4 0x1ca) ∧
    (decode .S 0xC16F5049).toOption = some (.sStD 0xc 0xf 5 0x49) ∧
    (decode .S 0x821E0004).toOption = some (.rstQ 8 0x1e 0 1 0) ∧
    (decode .S 0xC225E513).toOption = some (.ramo 0xc 5 0xe 5 1 3) ∧
    (decode .S 0x030EF8C0).toOption = some (.sCp 0 7 7 0xc 0xc0) ∧
    (decode .S 0x03256D38).toOption = some (.sCp2d 0 2 0xb 6 0x138) ∧
    (decode .S 0xC341E000).toOption = some (.sCpPb 0xc 0xf) ∧
    (decode .S 0x83924F28).toOption = some (.sColl 8 9 2 7 0x128) ∧
    (decode .S 0x83A0A000).toOption = some (.sPbInv 8 5 0) ∧
    (decode .S 0x440A7700).toOption = some (.sAdd 4 0xa 7 7 0) := by decide

theorem test_words_s_2 :
    (decode .S 0xC43E4B00).toOption = some (.sSub 0xc 0x1e 4 0xb 0) ∧
    (decode .S 0x045E5F00).toOption = some (.sMul 0 0x1e 5 0xf 0) ∧
    (decode .S 0x047900AD).toOption = some (.sAddi 0 0x19 0 0xad) ∧
    (decode .S 0x8497603F).toOption = some (.sSlli 8 0x17 6 0x3f) ∧
    (decode .S 0x84B5600A).toOption = some (.sSrli 8 0x15 6 0xa) ∧
    (decode .S 0x0515F107).toOption = some (.amo 0 0x15 0xf 1 7) ∧
    (decode .S 0xC5368700).toOption = some (.amoG 0xc 6 8 7 0) ∧
    (decode .S 0xC5513600).toOption = some (.dgrpOpen 0xc 1 3 6) ∧
    (decode .S 0x457F0000).toOption = some (.dgrpClose 4 0xf) ∧
    (decode .S 0x859D0000).toOption = some (.sCueTest 0xd) ∧
    (decode .S 0xC5A00000).toOption = some (.sCueNop 0xc) ∧
    (decode .S 0x86124F0A).toOption = some (.sBCond 8 4 0x20a 4 0xf) ∧
    (decode .S 0x0626A0CB).toOption = some (.sLoop 0 0x6cb 0xa) ∧
    (decode .S 0x06400000).toOption = some (.sJoin 0) := by decide

theorem test_words_c_1 :
    (decode .C 0xD0281EC3).toOption = some (.vadd 0xd 8 3 0x1b 0 3) ∧
    (decode .C 0xD05E1FF5).toOption = some (.vsub 0xd 0x1e 3 0x1f 6 5) ∧
    (decode .C 0xF06A7B13).toOption = some (.vmul 0xf 0xa 0xf 0xc 2 3) ∧
    (decode .C 0xB09D6088).toOption = some (.vfma 0xb 0x1d 0xc 2 1 0) ∧
    (decode .C 0x40AA6FC1).toOption = some (.vmin 4 0xa 0xd 0x1f 0 1) ∧
    (decode .C 0x10CA007D).toOption = some (.vmax 1 0xa 0 1 7 5) ∧
    (decode .C 0x80F8B803).toOption = some (.vabs 8 0x18 0x17 0 3) ∧
    (decode .C 0x710FA032).toOption = some (.vneg 7 0xf 0x14 6 2) ∧
    (decode .C 0x5131C4B1).toOption = some (.vand 5 0x11 0x18 0x12 6 1) ∧
    (decode .C 0xE1509BE2).toOption = some (.vor 0xe 0x10 0x13 0xf 4 2) ∧
    (decode .C 0xD167A11B).toOption = some (.vxor 0xd 7 0x14 4 3 3) ∧
    (decode .C 0x4189780C).toOption = some (.vnot 4 9 0xf 1 4) ∧
    (decode .C 0xC1A07884).toOption = some (.vshl 0xc 0 0xf 2 0 4) ∧
    (decode .C 0x21CAEEC4).toOption = some (.vshr 2 0xa 0x1d 0x1b 0 4) ∧
    (decode .C 0xE1F81D4C).toOption = some (.vsra 0xe 0x18 3 0x15 1 4) ∧
    (decode .C 0x62038E48).toOption = some (.vcmpEq 6 3 0x11 0x19 1 0) := by decide

theorem test_words_c_2 :
    (decode .C 0xC2232B00).toOption = some (.vcmpNe 0xc 3 5 0xc 0 0) ∧
    (decode .C 0x52448670).toOption = some (.vcmpLt 5 4 0x10 0x19 6 0) ∧
    (decode .C 0x92613208).toOption = some (.vcmpLe 9 1 6 8 1 0) ∧
    (decode .C 0xD28AB194).toOption = some (.vsel 0xd 0xa 0x16 6 2 4) ∧
    (decode .C 0xD2A51029).toOption = some (.vmov 0xd 5 2 5 1) ∧
    (decode .C 0xF2D1683D).toOption = some (.vsplat 0xf 0x11 0xd 0 7 5) ∧
    (decode .C 0x02FCE932).toOption = some (.vfmaQs 0 0x1c 0x1d 4 6 2) ∧
    (decode .C 0x8306D09D).toOption = some (.vcvt 8 6 0x1a 0 2 3 5) ∧
    (decode .C 0x832E2538).toOption = some (.vquant 8 0xe 4 1 1 7) ∧
    (decode .C 0x234B0630).toOption = some (.vdequant 2 0xb 0 1 2 6) ∧
    (decode .C 0x8412001C).toOption = some (.vredAdd 8 0x12 0 3 4) ∧
    (decode .C 0x64328823).toOption = some (.vredMax 6 0x12 0x11 4 3) ∧
    (decode .C 0x3454E01C).toOption = some (.vredMin 3 0x14 0x1c 3 4) ∧
    (decode .C 0xA4867AAB).toOption = some (.vperm 0xa 6 0xf 0xa 5 3) ∧
    (decode .C 0x44B640C0).toOption = some (.vrot 4 0x16 8 3 0 0) ∧
    (decode .C 0xA4D2A2E5).toOption = some (.vbcast 0xa 0x12 0x14 0xb 4 5) := by decide

theorem test_words_c_3 :
    (decode .C 0x951619A3).toOption = some (.vpart 9 0x16 3 6 4) ∧
    (decode .C 0x55260163).toOption = some (.vcount 5 6 5 4) ∧
    (decode .C 0xA553C165).toOption = some (.vcompact 0xa 0x13 0x18 5 4 5) ∧
    (decode .C 0xB57B9038).toOption = some (.vexpand 0xb 0x1b 0x12 0 7 0) ∧
    (decode .C 0x55930830).toOption = some (.vexp2 5 0x13 1 6) ∧
    (decode .C 0xC5AAD818).toOption = some (.vlog2 0xc 0xa 0x1b 3) ∧
    (decode .C 0x05C30030).toOption = some (.vrcp 0 3 0 6) ∧
    (decode .C 0x05E71820).toOption = some (.vrsqrt 0 7 3 4) ∧
    (decode .C 0xA61D681C).toOption = some (.vpop 0xa 0x1d 0xd 3 4) ∧
    (decode .C 0x66286000).toOption = some (.vpush 6 8 0xc) ∧
    (decode .C 0x26402808).toOption = some (.vany 2 5 1) ∧
    (decode .C 0xD6832000).toOption = some (.pand 0xd 3 4 0) ∧
    (decode .C 0xE6A52980).toOption = some (.por 0xe 5 5 6) ∧
    (decode .C 0x96C63840).toOption = some (.pxor 9 6 7 1) ∧
    (decode .C 0xE6E73000).toOption = some (.pnot 0xe 7 6) ∧
    (decode .C 0xB81B0800).toOption = some (.cadd 0xb 0x1b 1 0) := by decide

theorem test_words_c_4 :
    (decode .C 0x382D35C0).toOption = some (.csub 3 0xd 6 0x17) ∧
    (decode .C 0x985B1A80).toOption = some (.cmul 9 0x1b 3 0xa) ∧
    (decode .C 0x386B773D).toOption = some (.caddi 3 0xb 0xe 0x73d) ∧
    (decode .C 0xF893A809).toOption = some (.cslli 0xf 0x13 0x15 9) ∧
    (decode .C 0x18BC0825).toOption = some (.csrli 1 0x1c 1 0x25) ∧
    (decode .C 0x28CD018F).toOption = some (.cli 2 0xd 0x18f) ∧
    (decode .C 0x490F55FE).toOption = some (.cBCond 4 3 0x1fe 0xa 0xb) ∧
    (decode .C 0x09207CF2).toOption = some (.cLoop 0 0xf 0x4f2) ∧
    (decode .C 0xE9400000).toOption = some (.cJoin 0xe) ∧
    (decode .C 0x8A000000).toOption = some (.mlease 8) ∧
    (decode .C 0xBA200000).toOption = some (.mrel 0xb) ∧
    (decode .C 0x0A492E00).toOption = some (.mma 0 2 2 2 1 1 1 0) ∧
    (decode .C 0xBA6D1450).toOption = some (.mmaV 0xb 3 2 1 1 1 2 0) ∧
    (decode .C 0xCA940000).toOption = some (.mzero 0xc 5) ∧
    (decode .C 0x7AB03000).toOption = some (.macc 7 4 0 3) ∧
    (decode .C 0x0AD388C0).toOption = some (.mdrain 0 4 7 1 1 1) := by decide

theorem test_words_c_5 :
    (decode .C 0x7AE50000).toOption = some (.mload 7 1 2 0 0) ∧
    (decode .C 0xFB110DA8).toOption = some (.mpatch 0xf 4 2 0x1b 2 1) ∧
    (decode .C 0x2B2B8AC0).toOption = some (.mpeek 2 2 7 0x15 4 0) ∧
    (decode .C 0x0B400008).toOption = some (.mstat 0 8) := by decide
/-! ## Ill-formed terms, one for each check (08 R208, R209; 06 R162) -/

theorem test_illformed_k :
    (Instr.lit 1 0 3 0).wellFormed = false ∧ (Instr.lit 1 0 0 13).wellFormed = false ∧ (Instr.lit 1 5 0 0).wellFormed = false ∧
    (Instr.ldAcq 1 2 0 9).wellFormed = false ∧ (Instr.stRel 1 2 0 9).wellFormed = false ∧ (Instr.fenceSc 9).wellFormed = false ∧
    (Instr.fenceAcq 10).wellFormed = false ∧ (Instr.fenceRel 10).wellFormed = false ∧ (Instr.fenceAr 10).wellFormed = false ∧
    (Instr.fcvt 1 2 8).wellFormed = false ∧ (Instr.bCond 6 1 2 0).wellFormed = false ∧ (Instr.ovlCall 1 2 16384).wellFormed = false ∧
    (Instr.loop 1 0).wellFormed = false ∧ (Instr.loopImm 1 2 0).wellFormed = false ∧ (Instr.qpush 16 1).wellFormed = false ∧
    (Instr.qpop 1 16).wellFormed = false := by decide

theorem test_illformed_access :
    (Instr.ldq 0 16 0 0).wellFormed = false ∧ (Instr.stqWb 8 16 0 0).wellFormed = false ∧ (Instr.ldqS 0 16 0 0).wellFormed = false ∧
    (Instr.ldqG 0 16 0 0).wellFormed = false ∧ (Instr.stqX 0 16 0 0).wellFormed = false ∧
    (Instr.rldQ 0 16 0 0).wellFormed = false ∧ (Instr.rldQ 0 1 0 3).wellFormed = false ∧
    (Instr.rstQ 0 1 0 0 3).wellFormed = false ∧ (Instr.rstQ 0 5 0 1 0).wellFormed = false ∧ (Instr.rstQ 0 15 0 1 0).wellFormed = false ∧
    (Instr.ramo 0 0 0 0 3 0).wellFormed = false ∧ (Instr.ramo 0 0 0 0 0 10).wellFormed = false ∧ (Instr.ramo 0 0 0 15 0 7).wellFormed = false ∧
    (Instr.amo 0 0 0 0 10).wellFormed = false ∧ (Instr.amo 0 0 0 15 7).wellFormed = false ∧ (Instr.amoG 0 0 0 0 6).wellFormed = false ∧
    (Instr.amoG 0 0 0 0 7).wellFormed = false ∧ (Instr.amoG 0 0 0 0 10).wellFormed = false ∧
    (Instr.lCp 0 0 0 0 0x60).wellFormed = false ∧ (Instr.sCp2d 0 0 0 0 0x004).wellFormed = false ∧ (Instr.lColl 0 0 0 15 0).wellFormed = false ∧
    (Instr.sColl 0 0 0 0 0x60).wellFormed = false ∧ (Instr.lAdd 0 1 2 3 1).wellFormed = false ∧ (Instr.sMul 0 1 2 3 1).wellFormed = false ∧
    (Instr.laCmp 0 1 2 6).wellFormed = false ∧ (Instr.lBCond 0 6 0 1 2).wellFormed = false ∧ (Instr.sBCond 0 7 0 1 2).wellFormed = false ∧
    (Instr.lLoop 0 0 1).wellFormed = false ∧ (Instr.sLoop 0 0 1).wellFormed = false := by decide

theorem test_illformed_cues :
    (Instr.ldq 4 0 0 0).cueOk = false ∧ (Instr.ldq 8 0 0 0).wellFormed = false ∧ (Instr.ldq 3 0 0 0).wellFormed = true ∧
    (Instr.stq 1 0 0 0).cueOk = false ∧ (Instr.stq 2 0 0 0).wellFormed = false ∧ (Instr.stq 12 0 0 0).wellFormed = true ∧
    (Instr.vmov 15 0 0 0 0).wellFormed = true := by decide

theorem test_illformed_vectors :
    (Instr.vadd 0 0 0 0 0 6).wellFormed = false ∧ (Instr.vabs 0 0 0 0 6).wellFormed = false ∧ (Instr.vredAdd 0 0 0 0 6).wellFormed = false ∧
    (Instr.vshl 0 0 0 0 0 2).wellFormed = false ∧ (Instr.vsra 0 0 0 0 0 6).wellFormed = false ∧ (Instr.vcmpEq 0 8 0 0 0 0).wellFormed = false ∧
    (Instr.vcmpLt 0 1 0 0 0 1).wellFormed = false ∧ (Instr.vsplat 0 0 16 0 0 0).wellFormed = false ∧ (Instr.vsplat 0 0 1 1 0 0).wellFormed = false ∧
    (Instr.vsplat 0 0 1 0 0 6).wellFormed = false ∧ (Instr.vfmaQs 0 0 0 16 0 0).wellFormed = false ∧ (Instr.vfmaQs 0 0 0 1 0 3).wellFormed = false ∧
    (Instr.vcvt 0 0 0 6 0 0 0).wellFormed = false ∧ (Instr.vcvt 0 0 0 0 0 0 6).wellFormed = false ∧ (Instr.vcvt 0 0 0 0 1 0 3).wellFormed = false ∧
    (Instr.vcvt 0 0 0 1 2 0 0).wellFormed = false ∧ (Instr.vcvt 0 0 0 0 2 0 1).wellFormed = false ∧
    (Instr.vquant 0 1 0 0 0 0).wellFormed = false ∧ (Instr.vquant 0 2 0 0 3 0).wellFormed = false ∧ (Instr.vquant 0 2 0 0 0 4).wellFormed = false ∧
    (Instr.vdequant 0 0 1 0 0 0).wellFormed = false ∧ (Instr.vdequant 0 0 2 0 3 0).wellFormed = false ∧ (Instr.vdequant 0 0 2 0 0 4).wellFormed = false ∧
    (Instr.vrot 0 0 0 16 0 0).wellFormed = false ∧ (Instr.vbcast 0 0 0 1 0 6).wellFormed = false ∧ (Instr.vpart 0 1 0 0 0).wellFormed = false ∧
    (Instr.vpart 0 2 0 8 0).wellFormed = false ∧ (Instr.vcount 0 0 8 0).wellFormed = false ∧ (Instr.vcompact 0 0 0 8 0 0).wellFormed = false ∧
    (Instr.vexpand 0 0 0 0 0 6).wellFormed = false := by decide

theorem test_illformed_queues_predicates_matrix :
    (Instr.vpop 0 0 16 0 0).wellFormed = false ∧ (Instr.vpop 0 0 0 0 6).wellFormed = false ∧ (Instr.vpush 0 16 0).wellFormed = false ∧
    (Instr.vany 0 8 0).wellFormed = false ∧ (Instr.pand 0 8 0 0).wellFormed = false ∧ (Instr.por 0 0 8 0).wellFormed = false ∧
    (Instr.pxor 0 0 0 8).wellFormed = false ∧ (Instr.pnot 0 8 0).wellFormed = false ∧ (Instr.pnot 0 0 8).wellFormed = false ∧
    (Instr.cBCond 0 6 0 0 0).wellFormed = false ∧ (Instr.cBCond 0 0 0 16 0).wellFormed = false ∧ (Instr.cLoop 0 16 1).wellFormed = false ∧
    (Instr.cLoop 0 0 0).wellFormed = false ∧ (Instr.mma 0 6 0 0 0 0 0 0).wellFormed = false ∧ (Instr.mma 0 0 0 0 0 0 0 3).wellFormed = false ∧
    (Instr.mmaV 0 6 0 0 0 0 0 0).wellFormed = false ∧ (Instr.mmaV 0 0 0 0 0 3 0 0).wellFormed = false ∧ (Instr.mmaV 0 0 0 0 0 0 5 0).wellFormed = false ∧
    (Instr.mmaV 0 0 0 0 0 0 0 5).wellFormed = false ∧ (Instr.mmaV 0 0 3 0 0 0 0 0).wellFormed = false ∧ (Instr.mmaV 0 0 0 0 0 0 2 1).wellFormed = false ∧
    (Instr.mmaV 0 0 4 0 0 0 2 0).wellFormed = false ∧ (Instr.mmaV 0 0 0 0 0 1 4 0).wellFormed = false ∧ (Instr.mmaV 0 0 0 0 0 2 2 0).wellFormed = false ∧
    (Instr.mzero 0 6).wellFormed = false ∧ (Instr.mload 0 6 0 0 0).wellFormed = false ∧ (Instr.macc 0 6 0 0).wellFormed = false ∧
    (Instr.macc 0 0 6 0).wellFormed = false ∧ (Instr.macc 0 0 0 6).wellFormed = false ∧ (Instr.mdrain 0 6 0 0 0 0).wellFormed = false ∧
    (Instr.mdrain 0 0 0 0 3 0).wellFormed = false ∧ (Instr.mpatch 0 6 0 0 0 0).wellFormed = false ∧ (Instr.mpeek 0 6 0 0 0 0).wellFormed = false := by decide


/-! ## Small states -/

/-- Core 0 as given, and nothing else. -/
def oneCore (c : Core) : State := { State.reset with cores := [(0, c)] }

/-- X[n] of core 0 holds v. -/
def setX (r : Regs) (n : Nat) (v : W64) : Regs := { r with x := r.x.setIfInBounds n v }

/-- All queues empty but queue q. -/
def queueOf (q : Nat) (x : Queue) : Vector Queue 16 := (Vector.replicate 16 ({} : Queue)).setIfInBounds q x

/-- A task of context 0 on core 0. -/
def aTask : Task := { taskZero with scope := 1 }
def tasked : Core := { sys := { task := some aTask } }

/-- Context 0's tables (01 R15 to R19): the context table at the base of HBM, its root at 4 KiB, level 3 at 8 KiB. The first GiB of its
addresses is the first GiB of the slices, the second the second GiB of HBM, each readable, writable, executable and atomic. -/
def tables : Memory :=
  (((({} : Memory).setBytes 0x10000000000 (bytesOf 8 1)).setBytes 0x10000000800 (bytesOf 8 0x10000001001)).setBytes 0x10000001000
    (bytesOf 8 0x10000002001)).setBytes 0x10000002000 (bytesOf 8 0x507F ++ bytesOf 8 (0x517F + 0x40000 * 2 ^ 15))

def paged (c : Core) : State := { oneCore c with mem := tables, sys := { ctxTable := 0x10000000000 } }

def slicePage : Page := { base := 0, leaf := 0x507F }
def hbmPage : Page := { base := 0x40000000, leaf := 0x517F + 0x40000 * 2 ^ 15 }

theorem of_ok {e α : Type} [DecidableEq α] {x : Except e α} {v : α}
    (h : (match x with | .ok w => decide (w = v) | .error _ => false) = true) : x = .ok v := by
  cases x with
  | ok w => exact congrArg _ (of_decide_eq_true h)
  | error => cases h

theorem of_error {e α : Type} [DecidableEq e] {x : Except e α} {v : e}
    (h : (match x with | .error w => decide (w = v) | .ok _ => false) = true) : x = .error v := by
  cases x with
  | error w => exact congrArg _ (of_decide_eq_true h)
  | ok => cases h

/-- A queue that spills nothing has room where its bound says so. -/
theorem room_of {s : State} {q : Nat} (h : s.cc.room q 1 = some true) (n : (s.cc.queue q).spills q = false) : Room s q :=
  ⟨h, fun x => absurd (n.symm.trans x) (by decide)⟩

def isOk {e α : Type} : Except e α → Bool
  | .ok _ => true
  | .error _ => false

theorem ex_ok {e α : Type} {x : Except e α} (h : isOk x = true) : ∃ v, x = .ok v := by
  cases x with
  | ok v => exact ⟨v, rfl⟩
  | error => cases h

theorem ex_bind {e α β : Type} {x : Except e α} {f : α → Except e β} (h : isOk (x.bind f) = true) : ∃ v w, x = .ok v ∧ f v = .ok w := by
  cases x with
  | ok v =>
    obtain ⟨w, hw⟩ := ex_ok h
    exact ⟨v, w, rfl, hw⟩
  | error => cases h

def okAnd {e α : Type} (p : α → Bool) : Except e α → Bool
  | .ok v => p v
  | .error _ => false

theorem of_okAnd {e α : Type} {p : α → Bool} {x : Except e α} (h : okAnd p x = true) : ∃ v, x = .ok v ∧ p v = true := by
  cases x with
  | ok v => exact ⟨v, rfl, h⟩
  | error => cases h

theorem ex_bind_and {e α β : Type} {x : Except e α} {f : α → Except e β} {p : β → Bool} (h : okAnd p (x.bind f) = true) :
    ∃ v w, x = .ok v ∧ f v = .ok w ∧ p w = true := by
  obtain ⟨v, rfl⟩ : ∃ v, x = .ok v := by
    cases x with
    | ok v => exact ⟨v, rfl⟩
    | error => cases h
  obtain ⟨w, hw⟩ : ∃ w, f v = .ok w := by
    cases hf : f v with
    | ok w => exact ⟨w, rfl⟩
    | error => simp [okAnd, Except.bind, hf] at h
  exact ⟨v, w, rfl, hw, by simpa [okAnd, Except.bind, hw] using h⟩

theorem test_walk : walk (paged {}) 0 0x40 = .ok slicePage ∧ walk (paged {}) 0 0x40001000 = .ok hbmPage :=
  ⟨of_ok (by decide +kernel), of_ok (by decide +kernel)⟩

/-! ## Witnesses: K's arithmetic, memory and queues -/

theorem witness_ConstantsAndLiterals :
    ({ oneCore {} with cur := { word := 0, addr := 4, lit := some 5 } } : State).cur.lit = some 5 ∧ (oneCore {}).cur.lit = none ∧
    ((xr (oneCore {}) 0 + (0 : BitVec 15).signExtend 64).toNat % 256 ∉ (oneCore {}).cc.mem.bankPoison) ∧
    ((xr (oneCore {}) 0 + (255 : BitVec 15).signExtend 64).toNat % 256 ∈ (oneCore { mem := { bankPoison := [255] } }).cc.mem.bankPoison) := by decide

theorem witness_RoundingKeepsWhatIsExact : 0x3F800000 < 2 ^ F32.width ∧ 0xFFFF < 2 ^ FBf16.width ∧ 0 < 2 ^ F16.width := by decide

def pageAt (pa : Nat) : Place := { page := slicePage, pa := pa }

theorem witness_ScalarLoads :
    Reads (paged {}) .K (kVa (paged {}) 0 8 8) 8 (pageAt 64) (List.replicate 8 0) ∧
    Reads (paged {}) .K (kVa (paged {}) 0 8 4) 4 (pageAt 32) (List.replicate 4 0) ∧
    Reads (paged {}) .K (kVa (paged {}) 0 8 2) 2 (pageAt 16) (List.replicate 2 0) ∧
    Reads (paged {}) .K (kVa (paged {}) 0 8 1) 1 (pageAt 8) [0] ∧
    Reads (paged {}) .K (xr (paged {}) 0).toNat 8 (pageAt 0) (List.replicate 8 0) ∧
    Reads (paged {}) .K (xr (paged {}) 0).toNat 4 (pageAt 0) (List.replicate 4 0) :=
  ⟨⟨by decide, of_ok (by decide +kernel), by decide, of_ok (by decide +kernel), of_ok (by decide +kernel), by decide⟩,
   ⟨by decide, of_ok (by decide +kernel), by decide, of_ok (by decide +kernel), of_ok (by decide +kernel), by decide⟩,
   ⟨by decide, of_ok (by decide +kernel), by decide, of_ok (by decide +kernel), of_ok (by decide +kernel), by decide⟩,
   ⟨by decide, of_ok (by decide +kernel), by decide, of_ok (by decide +kernel), of_ok (by decide +kernel), by decide⟩,
   ⟨by decide, of_ok (by decide +kernel), by decide, of_ok (by decide +kernel), of_ok (by decide +kernel), by decide⟩,
   ⟨by decide, of_ok (by decide +kernel), by decide, of_ok (by decide +kernel), of_ok (by decide +kernel), by decide⟩⟩

theorem witness_ScalarStores :
    Writes (paged {}) (kVa (paged {}) 0 8 8) 8 (pageAt 64) ∧ Writes (paged {}) (kVa (paged {}) 0 8 4) 4 (pageAt 32) ∧
    Writes (paged {}) (kVa (paged {}) 0 8 2) 2 (pageAt 16) ∧ Writes (paged {}) (kVa (paged {}) 0 8 1) 1 (pageAt 8) ∧
    Writes (paged {}) (xr (paged {}) 0).toNat 8 (pageAt 0) ∧ Writes (paged {}) (xr (paged {}) 0).toNat 4 (pageAt 0) :=
  ⟨⟨by decide, of_ok (by decide +kernel), by decide, of_ok (by decide +kernel), by decide⟩, ⟨by decide, of_ok (by decide +kernel), by decide, of_ok (by decide +kernel), by decide⟩,
   ⟨by decide, of_ok (by decide +kernel), by decide, of_ok (by decide +kernel), by decide⟩, ⟨by decide, of_ok (by decide +kernel), by decide, of_ok (by decide +kernel), by decide⟩,
   ⟨by decide, of_ok (by decide +kernel), by decide, of_ok (by decide +kernel), by decide⟩, ⟨by decide, of_ok (by decide +kernel), by decide, of_ok (by decide +kernel), by decide⟩⟩

theorem witness_MisalignedScalarTraps :
    let s := oneCore { regs := setX {} 1 0xFFFFFFFFFFFFFFFF }
    kVa s 1 0 2 % 2 ≠ 0 ∧ kVa s 1 0 4 % 4 ≠ 0 ∧ kVa s 1 0 8 % 8 ≠ 0 ∧ (xr s 1).toNat % 4 ≠ 0 ∧ (xr s 1).toNat % 8 ≠ 0 := by decide

theorem witness_WrittenBytesReadBack :
    (paged {}).mem.wf = true ∧ ((paged {}).mem.keyOf.map Prod.fst).Nodup ∧ ∀ u ∈ linesOf 0x3C 8, (paged {}).mem.meets 0 u = .own := by decide

/-- q6 sluices to a ring in slice 0, with its places on chip taken; the same with the slice in RETAIN. -/
def spilling : State := oneCore { queues := queueOf 6 { cfg := 0x8000000000000000, chip := List.replicate 64 { data := 1 }, pages := [4096] } }
def spillAsleep : State := { spilling with bays := [(0, { power := .retain })] }

theorem witness_QueuePushAndPop :
    Room (oneCore {}) 6 ∧ Room spilling 6 ∧ spillAsleep.cc.room 6 1 = some true ∧ (spillAsleep.cc.queue 6).spills 6 = true ∧
    awake spillAsleep ((spillAsleep.cc.queue 6).ringPa (spillAsleep.cc.queue 6).tail) = .error (.wake 0) ∧ (oneCore { queues := queueOf 6 { chip := List.replicate 64 { data := 0 } } }).cc.room 6 1 = some false ∧
    (oneCore { queues := queueOf 9 { chip := [{ data := 7 }] } }).cc.headOf 9 = some { data := 7 } ∧ (oneCore {}).cc.headOf 9 = none :=
  ⟨room_of rfl rfl, ⟨by decide +kernel, fun _ => of_ok (by decide +kernel)⟩, by decide +kernel, by decide +kernel, of_error (by decide +kernel),
    by and_intros <;> decide +kernel⟩


/-! ## Witnesses: K's control flow, tasks, weirs and control registers -/

/-- Core 0 with a lane at address a as its current one, in line 0, one that fetch waits for. -/
def laneAt (a : LaneAddr) (c : Core) : State :=
  { oneCore { c with k := { c.k with xfers := [a], iq := [{ word := 0, addr := a }] } } with cur := { word := 0, addr := a } }

theorem witness_LoopSetsALevel :
    let s := laneAt 4 { regs := setX {} 1 5 }
    let x := s.cluster s.curCore (s.streamOf .K)
    let start := s.cur.addr.toNat / 32 * 32 + 36
    let last := s.cur.addr.toNat + 4 * (8 : BitVec 12).toNat
    ¬((8 : BitVec 12) = 0 ∨ last < start ∨ last % 32 = 0 ∨ (x.loop0.getLsbD 63 ∧ x.loop1.getLsbD 63)) ∧
    min (xr s 1).toNat (2 ^ 32 - 1) ≠ 0 ∧ min (xr s 2).toNat (2 ^ 32 - 1) = 0 ∧ 4 + 4 * (7 : BitVec 12).toNat < start := by decide +kernel

theorem witness_ForkAndJoin :
    let good := fun v : W64 => v.toNat % 4 = 0 ∧ v.toNat < 0x20000
    let s := oneCore { regs := setX (setX {} 1 0x1FFFC) 2 0x20000 }
    let apart := oneCore { sys := { apart := true } }
    let joined := oneCore { sys := { apart := true }, l := { joined := true }, c := { joined := true }, s := { joined := true } }
    s.cc.sys.apart = false ∧ good (xr s 1) ∧ good (xr s 0) ∧ ¬good (xr s 2) ∧ apart.cc.sys.apart = true ∧ apart.cc.l.joined = false ∧
    joined.cc.sys.apart = true ∧ joined.cc.l.joined = true ∧ joined.cc.c.joined = true ∧ joined.cc.s.joined = true := by decide +kernel

def words (ws : List Nat) : List Byte := ws.flatMap (bytesOf 8)

/-- At 64 a nest of one task, at 128 a child's launch record of one node, at 256 that node (13 R341, R344, R347). -/
def spawnMem : Memory :=
  ((tables.setBytes 64 (words [2 ^ 23, 0, 0, 32, 0, 0, 0, 4096])).setBytes 128 (words [2 ^ 62 + 2 ^ 48, 256, 0, 2 ^ 32, 512, 0, 0, 0])).setBytes 256
    (words [3 * 2 ^ 49])

def spawnState : State :=
  { paged { tasked with regs := setX (setX (setX {} 1 64) 2 1) 3 128 } with scopes := [(1, { ctx := 0, parent := none })], mem := spawnMem }

def w64s (ws : List Nat) : List W64 := ws.map (BitVec.ofNat 64)

theorem witness_SpawnMakesAChild :
    Runs spawnState aTask ∧ aTask.level < 7 ∧ (xr spawnState 2).toNat % 64 ≠ 0 ∧ Runs (oneCore { sys := { task := some { aTask with level := 7 } } }) { aTask with level := 7 } ∧
    spawnWords spawnState (xr spawnState 1).toNat = .ok (w64s [2 ^ 23, 0, 0, 32, 0, 0, 0, 4096]) ∧ nestMalformed false (w64s [2 ^ 23, 0, 0, 32, 0, 0, 0, 4096]) = false ∧
    spawnWords spawnState (xr spawnState 3).toNat = .ok (w64s [2 ^ 62 + 2 ^ 48, 256, 0, 2 ^ 32, 512, 0, 0, 0]) ∧
    bits (wordAt (w64s [2 ^ 62 + 2 ^ 48, 256, 0, 2 ^ 32, 512, 0, 0, 0]) 0) 63 62 ≠ 0 ∧
    (spawnState.newScope 0 aTask.ctx aTask.scope (some 4096)).isSome = true ∧
    launchRecordsAs (spawnState.withSys { spawnState.sys with refused := [] }) 0 false (xr spawnState 3).toNat false = .ok (w64s [2 ^ 62 + 2 ^ 48, 256, 0, 2 ^ 32, 512, 0, 0, 0], [w64s (3 * 2 ^ 49 :: List.replicate 15 0)]) :=
  ⟨rfl, by decide, by decide, rfl, of_ok (by decide +kernel), by decide +kernel, of_ok (by decide +kernel), by decide +kernel, by decide +kernel,
    of_ok (by decide +kernel)⟩

/-- Scope 1 of the task, its child 2, and scope 3 of another context. -/
def scopeState (sc : Scope) : State :=
  { oneCore { tasked with regs := setX (setX (setX {} 1 2) 2 3) 4 9 } with
    scopes := [(1, { ctx := 0, parent := none }), (2, sc), (3, { ctx := 7, parent := none })] }
def childScope : Scope := { ctx := 0, parent := some 1, kept := true }

theorem witness_KillAndScopeWait :
    let s := scopeState childScope
    s.cc.sys.task = some aTask ∧ s.scope? ((xr s 4).setWidth 16) = none ∧ s.scope? ((xr s 2).setWidth 16) = some { ctx := 7, parent := none } ∧
    s.scope? ((xr s 1).setWidth 16) = some childScope ∧ s.under 2 aTask.scope = true ∧ childScope.killing = false ∧
    s.cc.sys.handled = none ∧ s.gone 2 = true ∧
    (scopeState { childScope with killing := true, written := true }).scope? 2 = some { childScope with killing := true, written := true } := by decide +kernel

/-- A weir at 64 of generation 1, two members and one arrival, or as given (04 R119). -/
def weirState (gen members arrived : Nat) : State :=
  { paged { regs := setX (setX (setX {} 1 64) 2 (2 ^ 32)) 3 65 } with
    mem := { tables.setBytes 64 (words [2 ^ 63 + 2 * 2 ^ 59 + gen * 2 ^ 32 + members * 2 ^ 16 + arrived]) with weirs := [64] } }

theorem atWeir_of {s : State} {a : BitVec 5} {p : Place} {w : Weir} {m : Option (W64 × List Nat)}
    (h : (match weirCheck s (xr s a).toNat with
      | .ok (p', w', m') => decide (p' = p ∧ w'.w0 = w.w0 ∧ w'.w1 = w.w1 ∧ m' = m)
      | .error _ => false) = true) : AtWeir s a p w m := by
  unfold AtWeir
  cases e : weirCheck s (xr s a).toNat with
  | ok x =>
    obtain ⟨p', w', m'⟩ := x
    rw [e] at h
    obtain ⟨rfl, h0, h1, rfl⟩ := of_decide_eq_true h
    cases w; cases w'; simp_all
  | error x => rw [e] at h; cases h

theorem witness_WeirOperations :
    let at_ := fun (g m a : Nat) => AtWeir (weirState g m a) 1 { page := slicePage, pa := 64 } { w0 := 2 ^ 63 + 2 * 2 ^ 59 + g * 2 ^ 32 + m * 2 ^ 16 + a, w1 := 0 } none
    at_ 1 2 0 ∧ at_ 1 2 1 ∧ at_ 1 3 0 ∧ at_ 2 2 1 ∧ at_ 1 65535 0 ∧ (xr (weirState 1 2 1) 3).toNat % 64 ≠ 0 ∧
    bits (xr (weirState 1 2 1) 2).toNat 47 32 = 1 ∧ bits (xr (weirState 1 2 1) 2).toNat 31 0 = 0 :=
  by and_intros <;> first | decide | exact atWeir_of (by decide +kernel)

theorem witness_YieldHaltTrap :
    let s := oneCore tasked
    let busy := oneCore { tasked with l := { flights := [{ no := 1, iseq := 0, kind := .sync }] } }
    let left := oneCore { tasked with queues := queueOf 9 { chip := [{ data := 7 }] } }
    s.cc.sys.task = some aTask ∧ busy.cc.sys.task = some aTask ∧ left.cc.sys.task = some aTask ∧ s.cc.sys.apart = false ∧ s.cc.sys.sv = false ∧ s.quiesced = true ∧ s.noReport = true ∧
    leftover s.cc = 0 ∧ busy.quiesced = false ∧ left.quiesced = true ∧ leftover left.cc = 512 ∧ (s.cluster s.curCore .K).stopped = none ∧
    s.cc.sys.stop = none := by decide +kernel

/-- A handler of core 0 whose CUT registers name area 0 of a pool at the base of HBM, whose bytes are zero: a cut of context 0. -/
def handlerState (cut : Vector W64 4) : State :=
  { oneCore { tasked with sys := { tasked.sys with sv := true }, csr := { cut := cut } } with dies := [(0, { cutPool := 0x10000000001 })] }

theorem rawRead_nothing (pa n : Nat) : ({} : Memory).rawRead 0 pa n = List.replicate n 0 := by
  apply List.eq_replicate_iff.mpr
  refine ⟨by simp [Memory.rawRead], fun b hb => ?_⟩
  simp only [Memory.rawRead, List.mem_map] at hb
  obtain ⟨i, -, rfl⟩ := hb
  simp [Memory.keyed, Memory.slotKey, Memory.byte, cellGet, Map.get, Map.find?]

theorem ofBytes_zeros (n : Nat) : ofBytes (List.replicate n 0) = 0 := by
  induction n with
  | zero => rfl
  | succ n ih => rw [List.replicate_succ, ofBytes, ih]; rfl

theorem readArea_nothing (base : Nat) : readArea {} 0 base = (0, 0, 0, 0) := by
  have h (b n : Nat) : ofBytes (({} : Memory).rawRead 0 b n) = 0 := by rw [rawRead_nothing, ofBytes_zeros]
  unfold readArea
  simp only [h]
theorem cutOk_zero : cutOk (cutAt 0 0 0 0) 0 0 0 0 = true := by decide +kernel
theorem areaClear_nothing (base : Nat) : areaClear {} 0 base = true := by
  have h (n : Nat) : (List.replicate n (0 : Byte)).all (fun b => decide (b = 0)) = true :=
    List.all_eq_true.mpr fun b hb => decide_eq_true (List.eq_of_mem_replicate hb)
  rw [areaClear, rawRead_nothing, rawRead_nothing, h, h]
  rfl

theorem cutCtx_zero : decide ((cutAt 0 0 0 0).ctx = (0 : W16).toNat) = true := by decide +kernel

theorem cutIn_nothing (s : State) (die i : Nat) (hm : s.mem = {}) (hk : areaKey (s.die die) = 0) :
    s.cutIn 0 die i = .ok (some (cutAt 0 0 0 0)) := by
  have hb (base : Nat) (slots : Bool) : areaBad {} base slots = none := rfl
  unfold State.cutIn
  simp only [hm, hk, readArea_nothing, areaClear_nothing, cutOk_zero, cutCtx_zero, hb]
  rfl

theorem cutIn_zero : ((handlerState (cutCsrs 0x10000000000)).cutIn 0 0 0) = .ok (some (cutAt 0 0 0 0)) :=
  cutIn_nothing _ _ _ rfl (by decide +kernel)

/-- The same handler, where the area's first line is poison. -/
def spoiledArea : State := { handlerState (cutCsrs 0x10000000000) with mem := { poison := [0x10000000000] } }

theorem cutIn_spoiled : spoiledArea.cutIn 0 0 0 = .error (.poison 0 0x10000000000) := by
  have h (slots : Bool) : areaBad spoiledArea.mem (areaBase (spoiledArea.die 0) 0) slots = some 0x10000000000 := by cases slots <;> decide +kernel
  simp [State.cutIn, h]

theorem witness_SretRestoresTheCut :
    let s := handlerState (cutCsrs 0x10000000000)
    Runs s aTask ∧ s.cc.sys.sv = true ∧ s.quiesced = true ∧ cutArea (s.die 0) s.cc.csr.cut = some 0 ∧ s.cutIn 0 0 0 = .ok (some (cutAt 0 0 0 0)) ∧
    spoiledArea.cutIn 0 0 0 = .error (.poison 0 0x10000000000) ∧ spoiledArea.quiesced = true ∧
    (cutAt 0 0 0 0).ctx = aTask.ctx.toNat ∧ reloads s.cc (cutAt 0 0 0 0) false = [] ∧
    cutArea ((handlerState (Vector.replicate 4 0)).die 0) (handlerState (Vector.replicate 4 0)).cc.csr.cut = none :=
  ⟨rfl, rfl, by decide +kernel, by decide +kernel, cutIn_zero, cutIn_spoiled, by and_intros <;> decide +kernel⟩

theorem witness_ControlRegisters :
    ¬isCsr 6 ∧ isCsr 0 ∧ isCsr 5 ∧ isCsr 0x12 ∧ isCsr 0x17 ∧ isCsr 0x57 ∧ isCsr 0x130 ∧ isRoCsr false 3 ∧ ¬isRoCsr true 3 ∧ isSvCsr 0x0A ∧ isSvCsr 0x57 ∧
    ¬isSvCsr 0x09 ∧ isTimedCsr 4 ∧ ¬isTimedCsr 3 ∧ (oneCore {}).cc.sys.sv = false ∧
    (oneCore { sys := { task := some { aTask with det := true } } }).cc.det = true ∧ (oneCore tasked).cc.det = false := by
  and_intros <;> first | rfl | simp [isCsr, isRoCsr, isSvCsr, isTimedCsr]

theorem witness_QueueConfiguration :
    let s := paged { regs := setX (setX {} 1 0x8000000000000001) 2 0x8000000000040001 }
    let holding := oneCore { queues := queueOf 0 { chip := [{ data := 1 }] } }
    (s.cc.queue 0).chip = [] ∧ (s.cc.queue 0).ring = [] ∧ (holding.cc.queue 0).chip ≠ [] ∧ (xr s 1 &&& 0x8FF00FFFFFFFFFFF).getLsbD 63 = true ∧
    (∃ ps, translateRange s s.cc.ctx s.cc.sys.sv (.ring 0) anyFmt 4096 4096 = .ok ps) ∧
    (∃ c info, translateRange s s.cc.ctx s.cc.sys.sv (.ring 0) anyFmt 0x40001000 4096 = .error (.trap c info)) := by
  refine ⟨by decide +kernel, by decide +kernel, by decide +kernel, by decide +kernel, ⟨_, rfl⟩, ⟨_, _, rfl⟩⟩

theorem witness_FencesAndTicks :
    let s := oneCore {}
    let busy := oneCore { k := { flights := [{ no := 1, iseq := 0, kind := .sync }] } }
    s.cc.k.flights = [] ∧ ueQuiet s s.cc.ctx = true ∧ ¬(busy.cc.k.flights = []) ∧ genBusy s s.curCore (s.cc.csr.gen + 1) = false ∧
    (∀ e ∈ s.cc.l.iq ++ s.cc.s.iq, e.before s = false) ∧ s.cc.det = false ∧ (xr s 0).toNat ≤ s.sys.frame.toNat ∧
    s.sys.frame.toNat < (xr (oneCore { regs := setX {} 1 1 }) 1).toNat := by decide +kernel

/-- An audited task with an empty tree block. -/
def audited : State :=
  paged { regs := setX (setX {} 1 4096) 2 1, sys := { task := some { aTask with audit := true, block := some { die := 0, block := 0 } } } }

theorem witness_TreeInstructions :
    audited.audited = some ({ aTask with audit := true, block := some { die := 0, block := 0 } }, { die := 0, block := 0 }) ∧ audited.cc.sys.apart = false ∧
    (oneCore tasked).audited = none ∧ (xr audited 1).toNat % 4096 = 0 ∧ 1 ≤ (xr audited 2).toNat ∧
    (∃ ps, translateRange audited 0 false (.store 8) anyFmt 4096 (256 + 96 * 1) = .ok ps) ∧ sealReady audited { die := 0, block := 0 } = true ∧
    (xr audited 2).toNat % 4096 ≠ 0 :=
  ⟨rfl, rfl, rfl, by decide, by decide, ⟨_, rfl⟩, by decide +kernel, by decide⟩

theorem witness_TreeInstructions_block : treeBad audited { die := 0, block := 0 } = none ∧
    treeBad { audited with mem := { audited.mem with poison := [64] } } { die := 0, block := 0 } = some 64 := by decide +kernel

theorem witness_KillsANode :
    let s := { paged { tasked with sys := { tasked.sys with sv := true } } with
      scopes := [(1, { ctx := 0, parent := none })], graphs := [(0, { ctx := 0, va := 4096, die := 0, root := 0, scope := 1, level := 0, anchor := 0, nnodes := 1, det := false,
                                                                       lcores := 0, word7 := 0, nodes := [(0, { scope := some 1 })] })] }
    nodesOf s 1 = [(0, 0)] ∧ s.cc.sys.sv = true ∧ s.liveScope 1 = true ∧ s.cc.sys.handled = none ∧ nodesOf (paged tasked) 1 = [] := by decide +kernel

theorem witness_QueueConfiguration_sets :
    let s := paged { regs := setX {} 1 0x8000000000000001, queues := queueOf 2 { cfg := 0x0010000000000002 } }
    let v := ((s.cc.queue 2).cfg ||| xr s 1) &&& 0x8FF00FFFFFFFFFFF
    (s.cc.queue 2).chip = [] ∧ (s.cc.queue 2).ring = [] ∧ v.getLsbD 63 = true ∧
    ∃ ps, translateRange s s.cc.ctx s.cc.sys.sv (.ring (s.curCore / 4)) anyFmt ((v.extractLsb' 0 44).toNat * 4096) (((v.extractLsb' 56 4).toNat + 1) * 4096) = .ok ps :=
  ⟨by decide +kernel, by decide +kernel, by decide +kernel, ex_ok (by decide +kernel)⟩

/-! ## Witnesses: what an issue does, and the lanes of L and S -/

theorem witness_LaneIssueBookkeeping :
    ([9] : List Nat).Nodup ∧ (([(0, 5)] : List (Nat × Vec)).length ≤ 1) ∧ (∀ p ∈ ([(0, 5)] : List (Nat × Vec)), p.1 < 16 ∧ p.1 ∉ [9]) ∧
    onChip {} 0 ∧ ringGood spilling 0 6 ∧ ¬onChip { queues := queueOf 0 { cfg := 0x8000000000000000, ring := [{ data := 1 }] } } 0 := by
  refine ⟨by decide, by decide, by decide +kernel, .inl (by decide +kernel), by unfold ringGood; decide +kernel, ?_⟩
  rintro (h | ⟨-, h⟩) <;> revert h <;> decide +kernel

theorem witness_SluicedPushSpills :
    let x := ((oneCore { queues := queueOf 0 { cfg := 0x8000000000000000, ring := [{ data := 1 }], pages := [4096] } }).core 0).queue 0
    let y := ((oneCore { queues := queueOf 6 { cfg := 0x8000000000000000, chip := List.replicate 64 { data := 1 }, pages := [4096] } }).core 0).queue 6
    x.cfg.getLsbD 63 = true ∧ x.ring ≠ [] ∧ y.cfg.getLsbD 63 = true ∧ queueDepth 6 ≤ y.chip.length ∧ y.ring = [] ∧
    spilling.mem.writeBlocked 0 4096 8 = false ∧ ({ poison := [4096], tags := [(4096, 1)] } : Memory).writeBlocked 1 4096 4 = true := by decide +kernel

/-- Cue FIFO 1 holds a visible token, and the others nothing. -/
def cued : Core := { cues := (Vector.replicate 4 ([] : List Nat)).setIfInBounds 1 [0] }

theorem witness_AccessArithmetic :
    cuesMet (oneCore {}) .L 0 ∧ cuesMet (oneCore {}) .S 0 ∧ cuesReady (oneCore {}).cc .L 2 = .error .wait ∧ pushable .L 9 ∧ ¬pushable .L 6 ∧
    Room (oneCore {}) 9 ∧ (oneCore { queues := queueOf 6 { chip := [{ data := 3 }] } }).cc.headOf 6 = some { data := 3 } ∧
    (oneCore {}).cc.headOf 8 = none ∧ (oneCore { queues := queueOf 12 { chip := List.replicate 64 { data := 0 } } }).cc.room 12 1 = some false :=
  ⟨of_ok (by decide +kernel), of_ok (by decide +kernel), of_error (by decide +kernel), by simp [pushable], by simp [pushable], room_of rfl rfl,
    by and_intros <;> decide +kernel⟩

theorem witness_OutcomesAndCueLanes :
    Room (oneCore {}) 13 ∧ (oneCore { queues := queueOf 13 { chip := List.replicate 64 { data := 0 } } }).cc.room 13 1 = some false ∧
    (oneCore cued).cc.cueVisible 1 = true ∧ (oneCore {}).cc.cueVisible 1 = false ∧ (oneCore {}).cc.det = false ∧
    (oneCore { sys := { task := some { aTask with det := true } } }).cc.det = true :=
  ⟨room_of rfl rfl, by and_intros <;> decide +kernel⟩

theorem witness_ApartStreamControl :
    let s := oneCore { sys := { apart := true } }
    s.cc.sys.apart = true ∧ (oneCore {}).cc.sys.apart = false ∧ cuesMet s .L 0 ∧ cuesMet s .S 0 ∧ cuesMet s .C 0 ∧ (15 : BitVec 5).toNat < 16 :=
  ⟨rfl, rfl, of_ok (by decide +kernel), of_ok (by decide +kernel), of_ok (by decide +kernel), by decide⟩

theorem witness_QueueLoads :
    (∃ ps bs, FetchesRange (paged {}) .qload (gVa (paged {}) .L 0 1 256) 256 ps bs) ∧ (∃ ps bs, FetchesRange (paged {}) .qload (gVa (paged {}) .L 0 1 8) 8 ps bs) ∧
    cuesMet (paged {}) .L 0 ∧ Room (paged {}) 3 ∧ Room (paged {}) 12 ∧
    gVa (paged { regs := { lx := (Vector.replicate 16 (0 : W64)).setIfInBounds 1 4 } }) .L 1 0 256 % 8 ≠ 0 :=
  ⟨⟨_, _, by decide, rfl, of_ok (by decide +kernel), rfl⟩, ⟨_, _, by decide, rfl, of_ok (by decide +kernel), rfl⟩, of_ok (by decide +kernel), room_of rfl rfl,
    room_of rfl rfl, by decide +kernel⟩

/-- q15 holds an index vector of zeros. -/
def indexed : State := paged { queues := queueOf 15 { chip := [{ data := 0 }] } }

theorem witness_StridedLoadsAndGathers :
    (∃ ps got, Elements (paged {}) .L .qload 64 1 ((List.range 8).map fun j => strideVa 64 0 1 j) true ps ∧
      readElems (paged {}) ps ((List.range 8).map fun j => (j, strideVa 64 0 1 j)) = .ok got) ∧
    indexed.cc.headOf 15 = some { data := 0 } ∧ (paged {}).cc.headOf 15 = none ∧ (indexVas 0 0 64 1).length = 64 ∧ (indexVas 1 0 64 1).length = 128 ∧
    (∃ ps got, Elements indexed .L .qload 0 1 ((indexVas 0 0 0 1).map Prod.snd) true ps ∧ readElems indexed ps (indexVas 0 0 0 1) = .ok got) := by
  have h1 := ex_bind (x := elemCheck (paged {}) .L .qload 1 64 ((List.range 8).map fun j => strideVa 64 0 1 j) true)
    (f := fun ps => readElems (paged {}) ps ((List.range 8).map fun j => (j, strideVa 64 0 1 j))) (by decide +kernel)
  have h2 := ex_bind (x := elemCheck indexed .L .qload 1 0 ((indexVas 0 0 0 1).map Prod.snd) true)
    (f := fun ps => readElems indexed ps (indexVas 0 0 0 1)) (by decide +kernel)
  obtain ⟨ps, got, h3, h4⟩ := h1
  obtain ⟨ps', got', h5, h6⟩ := h2
  exact ⟨⟨ps, got, ⟨of_ok (by decide +kernel), h3⟩, h4⟩, by decide +kernel, by decide +kernel, by decide +kernel, by decide +kernel,
    ⟨ps', got', ⟨of_ok (by decide +kernel), h5⟩, h6⟩⟩

theorem witness_EntryHoldsItsElements :
    let xs : List (Nat × List Byte) := [(0, [1, 2]), (127, [3, 4])]
    (xs.map Prod.fst).Nodup ∧ (∀ p ∈ xs, p.1 < 256 / 2 ∧ p.2.length = 2) ∧ 126 ∉ xs.map Prod.fst := by decide

theorem witness_AccessScalarLoads :
    Reads (paged {}) .L (gVa (paged {}) .L 0 8 1) 1 (pageAt 8) [0] ∧ Reads (paged {}) .L (gVa (paged {}) .L 0 8 2) 2 (pageAt 16) (List.replicate 2 0) ∧
    Reads (paged {}) .L (gVa (paged {}) .L 0 8 4) 4 (pageAt 32) (List.replicate 4 0) ∧ Reads (paged {}) .L (gVa (paged {}) .L 0 8 8) 8 (pageAt 64) (List.replicate 8 0) :=
  ⟨⟨by decide, of_ok (by decide +kernel), by decide, of_ok (by decide +kernel), of_ok (by decide +kernel), by decide +kernel⟩,
   ⟨by decide, of_ok (by decide +kernel), by decide, of_ok (by decide +kernel), of_ok (by decide +kernel), by decide +kernel⟩,
   ⟨by decide, of_ok (by decide +kernel), by decide, of_ok (by decide +kernel), of_ok (by decide +kernel), by decide +kernel⟩,
   ⟨by decide, of_ok (by decide +kernel), by decide, of_ok (by decide +kernel), of_ok (by decide +kernel), by decide +kernel⟩⟩

theorem witness_QueueStores :
    let s := paged { queues := queueOf 4 { chip := [{ data := 5 }] } }
    s.cc.headOf 4 = some { data := 5 } ∧ s.cc.headOf 5 = none ∧ cuesMet s .S 0 ∧ gVa s .S 0 1 256 % 8 = 0 ∧
    (∃ ps, translateRange s s.cc.ctx s.cc.sys.sv .qstore anyFmt (gVa s .S 0 1 256) 256 = .ok ps ∧ checkWrite s s.cc.ctx ps = .ok ()) ∧
    gVa (paged { regs := { sx := (Vector.replicate 16 (0 : W64)).setIfInBounds 1 4 } }) .S 1 0 256 % 8 ≠ 0 :=
  ⟨by decide +kernel, by decide +kernel, of_ok (by decide +kernel), by decide +kernel, ⟨_, rfl, of_ok (by decide +kernel)⟩, by decide +kernel⟩

theorem witness_StridedStoresAndScatters :
    let s := paged { queues := (queueOf 4 { chip := [{ data := 5 }] }).setIfInBounds 5 { chip := [{ data := 0 }] } }
    s.cc.headOf 4 = some { data := 5 } ∧ s.cc.headOf 5 = some { data := 0 } ∧ cuesMet s .S 0 ∧
    (∃ ps, Elements s .S .qstore (gr s .S 0) 1 (((List.range 8).map fun j => strideVa (gr s .S 0) (gr s .S 0) 1 j)) false ps ∧ checkWrite s s.cc.ctx ps = .ok ()) ∧
    (∃ ps, Elements s .S .qstore (gr s .S 0) 1 ((indexVas 0 0 (gr s .S 0) 1).map Prod.snd) false ps ∧ checkWrite s s.cc.ctx ps = .ok ()) := by
  intro s
  have h1 := ex_bind (x := elemCheck s .S .qstore 1 (gr s .S 0).toNat (((List.range 8).map fun j => strideVa (gr s .S 0) (gr s .S 0) 1 j)) false)
    (f := fun ps => checkWrite s s.cc.ctx ps) (by decide +kernel)
  have h2 := ex_bind (x := elemCheck s .S .qstore 1 (gr s .S 0).toNat ((indexVas 0 0 (gr s .S 0) 1).map Prod.snd) false)
    (f := fun ps => checkWrite s s.cc.ctx ps) (by decide +kernel)
  obtain ⟨ps, _, h3, h4⟩ := h1
  obtain ⟨ps', _, h5, h6⟩ := h2
  exact ⟨by decide +kernel, by decide +kernel, of_ok (by decide +kernel), ⟨ps, ⟨of_ok (by decide +kernel), h3⟩, h4⟩,
    ⟨ps', ⟨of_ok (by decide +kernel), h5⟩, h6⟩⟩

theorem witness_PieceWriteFrame :
    ∀ p ∈ ([{ va := 64, len := 8, place := pageAt 64 }] : List Piece), p.len ≠ 0 → lineOf 128 ∉ linesOf p.place.pa p.len := by decide

theorem witness_AccessScalarStores :
    Writes (paged {}) (gVa (paged {}) .S 0 8 1) 1 (pageAt 8) ∧ Writes (paged {}) (gVa (paged {}) .S 0 8 2) 2 (pageAt 16) ∧
    Writes (paged {}) (gVa (paged {}) .S 0 8 4) 4 (pageAt 32) ∧ Writes (paged {}) (gVa (paged {}) .S 0 8 8) 8 (pageAt 64) :=
  ⟨⟨by decide, of_ok (by decide +kernel), by decide, of_ok (by decide +kernel), by decide⟩, ⟨by decide, of_ok (by decide +kernel), by decide, of_ok (by decide +kernel), by decide⟩,
   ⟨by decide, of_ok (by decide +kernel), by decide, of_ok (by decide +kernel), by decide⟩, ⟨by decide, of_ok (by decide +kernel), by decide, of_ok (by decide +kernel), by decide⟩⟩

theorem witness_MemorySideAtomics :
    let s := paged { regs := { sx := (Vector.replicate 16 (0 : W64)).setIfInBounds 1 4 } }
    translate s s.cc.ctx s.cc.sys.sv .amo (fun f => !(f = fmtRaw || f = fmtI32)) 0 = .ok (pageAt 0) ∧
    translate s s.cc.ctx s.cc.sys.sv .amo (fun f => !(f = fmtRaw || f = fmtI32)) (gr s .S 1).toNat = .ok (pageAt 4) ∧
    (pageAt 0).fmt = fmtRaw ∧ (gr s .S 0).toNat % 8 = 0 ∧ (gr s .S 1).toNat % 8 ≠ 0 ∧ watchRead s s.curCore .S agentS [(0, 8)] = .ok () ∧ awake s 0 = .ok () ∧
    s.mem.read s.cc.ctx (pageAt 0).key 0 8 = some (List.replicate 8 0) ∧ Room s 11 ∧ cuesMet s .S 0 ∧
    findPage s s.cc.ctx 0 = .ok slicePage ∧ leafFormat 0 slicePage.leaf = none ∧ leafFmt slicePage.leaf ≠ fmtF32 :=
  ⟨of_ok (by decide +kernel), of_ok (by decide +kernel), by decide +kernel, by decide +kernel, by decide +kernel, of_ok (by decide +kernel), of_ok (by decide +kernel),
    by decide +kernel, room_of rfl rfl, of_ok (by decide +kernel), of_ok (by decide +kernel), by decide +kernel, by decide +kernel⟩

/-! ## Witnesses: commands, remote operations, groups, the referee -/

theorem witness_CommandLanes :
    ((0x105 : BitVec 9).extractLsb' 2 2).toNat + (if ((0x105 : BitVec 9).extractLsb' 0 2).toNat > 0 then 1 else 0) ≤ ((0x105 : BitVec 9).extractLsb' 7 2).toNat ∧
    cuesMet (oneCore {}) .L 0 ∧ ((oneCore {}).cc.stream .L).length < 8 ∧ (14 : BitVec 4) ≠ 15 ∧ (if (0 : BitVec 2).toNat > 0 then 1 else 0) ≤ (0 : BitVec 2).toNat :=
  ⟨by decide, of_ok (by decide +kernel), by decide +kernel, by decide, by decide⟩

/-- The tables, with a third GiB on this package's pod pages and a fourth on package 1's, which is up. -/
def podded (c : Core) : State :=
  { paged c with mem := tables.setBytes 0x10000002010 (bytesOf 8 0x547F ++ bytesOf 8 (0x547F + 2 ^ 15))
                 fab := { podCfg := 1, peer := (Vector.replicate 64 (0 : W64)).setIfInBounds 1 1 } }

def sx1 (v : W64) : Regs := { sx := (Vector.replicate 16 (0 : W64)).setIfInBounds 1 v }
def lx1 (v : W64) : Regs := { lx := (Vector.replicate 16 (0 : W64)).setIfInBounds 1 v }

theorem witness_RemoteLanes :
    let l := podded { regs := lx1 0x80000000 }
    let away := podded { regs := lx1 0xC0000000 }
    let s := podded { regs := sx1 0x80000000 }
    let asks := fun (u : State) (q : Ask) (ps : List Piece) => ∃ x, askAll u q ps = .ok x ∧ x.fails = false
    ¬((0 : BitVec 2) = 2 ∧ l.cc.sys.sv = false) ∧ ((2 : BitVec 2) = 2 ∧ l.cc.sys.sv = false) ∧ cuesMet l .L 0 ∧ cuesMet s .S 0 ∧ Room l 0 ∧
    Room s 11 ∧ (gr (podded { regs := lx1 4 }) .L 1).toNat % 8 ≠ 0 ∧
    (∃ ps, accessCheck l .L .rld (gr l .L 1).toNat 256 8 true = .ok ps ∧ asks l { cl := .L, cls := 0, op := 0, va := (gr l .L 1).toNat, queue := some 0 } ps) ∧
    (∃ ps, accessCheck away .L .rld (gr away .L 1).toNat 256 8 true = .ok ps ∧
      asks away { cl := .L, cls := 0, op := 0, va := (gr away .L 1).toNat, queue := some 0 } ps) ∧
    (∃ ps, accessCheck s .S .rst (gr s .S 1).toNat 8 8 false = .ok ps ∧
      asks s { cl := .S, cls := 0, op := 1, va := (gr s .S 1).toNat, data := List.replicate 8 0 } ps) ∧
    (∃ p, amoCheck s .ramo (gr s .S 1).toNat 0 = .ok p ∧
      asks s { cl := .S, cls := 0, op := 2, va := (gr s .S 1).toNat, aop := 0, data := List.replicate 16 0, fmt := p.1.fmt, queue := some 11 }
        [{ va := (gr s .S 1).toNat, len := p.2, place := p.1 }]) := by
  intro l away s asks
  have of {α : Type} {c : Chk α} {f : α → Chk Asked} (h : okAnd (fun y : Asked => !y.fails) (c.bind f) = true) :
      ∃ v, c = .ok v ∧ ∃ x, f v = .ok x ∧ x.fails = false := by
    obtain ⟨v, w, hv, hw, hp⟩ := ex_bind_and h
    exact ⟨v, hv, w, hw, by simpa using hp⟩
  exact ⟨by decide, by decide, of_ok (by decide +kernel), of_ok (by decide +kernel), room_of (by decide +kernel) (by decide +kernel), room_of (by decide +kernel) (by decide +kernel), by decide +kernel, by
    and_intros <;> exact of (by decide +kernel)⟩

theorem witness_RemoteParts :
    let s := podded {}
    podOn s = true ∧ peerWord s 1 % 4 = 1 ∧ ¬(podOn s = true ∧ peerWord s 2 % 4 = 1) ∧ homeStatus s false 0 8 0 = 0 ∧ homeStatus s false 0x48000000 8 0 = 1 ∧
    homeStatus s false 0x10000000000 8 5 = 2 ∧ s.mem.read 0 0 0 8 = some (List.replicate 8 0) ∧ s.mem.writeBlocked 0 0 8 = false := by decide +kernel

/-- A group of two issuers at bay 0's unit, opened by context 0. -/
def aGroup : Group := { id := 3, ctx := 0, n := 2, range := [(0, 4096)] }

def sxs (a b c : W64) : Regs := { sx := (((Vector.replicate 16 (0 : W64)).setIfInBounds 1 a).setIfInBounds 2 b).setIfInBounds 3 c }

theorem witness_GroupLanes :
    let s := paged { regs := sxs 0x10003 64 8 }
    let open_ := { s with units := [(0, [aGroup])] }
    let joined := oneCore { mem := { parts := [{ group := 3, issuer := 1, s := 5 }] } }
    cuesMet s .S 0 ∧ (gr (paged { regs := sxs 0 4 0 }) .S 2).toNat % 8 ≠ 0 ∧ (gr s .S 2).toNat % 8 = 0 ∧ (gr s .S 3).toNat = 8 ∧
    (gr (paged { regs := sxs 0x1000000 0 0 }) .S 1).extractLsb' 24 40 ≠ 0 ∧ (gr s .S 1).extractLsb' 24 40 = 0 ∧
    (∃ ps, translateRange s s.cc.ctx s.cc.sys.sv .amo groupFmtBad 64 8 = .ok ps) ∧ (∃ v, amoCheck s .amo 64 0 = .ok v) ∧
    ¬(∃ u ∈ s.units, ∃ g ∈ u.2, g.id = 3 ∧ g.ctx = s.cc.ctx) ∧ (∃ u ∈ open_.units, ∃ g ∈ u.2, g.id = 3 ∧ g.ctx = open_.cc.ctx) ∧
    s.cc.mem.parts.length < 4 ∧ joined.cc.mem.parts.find? (fun q => q.group = 3 && q.issuer = 1) = some { group := 3, issuer := 1, s := 5 } ∧
    (open_.units.filter fun u => u.2.any (isGroup 3 open_.cc.ctx)).map Prod.fst ≠ [] ∧ open_.groupAt 0 3 open_.cc.ctx = some aGroup := by
  intro s open_ joined
  exact ⟨of_ok (by decide +kernel), by decide +kernel, by decide +kernel, by decide +kernel, by decide +kernel, by decide +kernel, ex_ok (by decide +kernel),
    ex_ok (by decide +kernel), by and_intros <;> decide +kernel⟩

/-- A record at 4096 for the referee; its witness block, all zero, stands at 0. -/
def judging (r : List Byte) : State :=
  { paged { sys := { sv := true }, lease := .held, regs := setX (setX {} 1 4096) 4 8 } with mem := tables.setBytes 4096 r }

/-- BLAKE3 of no bytes. -/
def emptyDigest : List Byte :=
  bytesOf 32 0x62321fe4ca939accb712c1adc925cb9b49c9dc36ea4d40a0a6a1f9f5b94913af

theorem test_blake3_empty : blake3 [] = emptyDigest := by decide +kernel

/-- A record of MZERO with the given digests of its operands. -/
def mzeroRecord (d : List Byte) : List Byte :=
  words [2 * 2 ^ 56 + 2 ^ 48] ++ List.replicate 32 0 ++ bytesOf 4 (0x54 * 2 ^ 21) ++ List.replicate 84 0 ++ d ++ List.replicate 16 0 ++ d ++ List.replicate 48 0

/-- A record on a page of package 1. -/
def judgedAway : State := podded { sys := { sv := true }, regs := setX {} 1 0xC0000000 }

theorem witness_RefereeVerdicts_checks :
    let s := judging (words [2 * 2 ^ 48])
    s.cc.sys.sv = true ∧ (oneCore {}).cc.sys.sv = false ∧ (xr s 1).toNat % 64 = 0 ∧ (xr s 0).toNat % 64 = 0 ∧ (xr s 4).toNat % 64 ≠ 0 ∧
    refMissing s (xr s 1).toNat (xr s 0).toNat = [] ∧ refMissing judgedAway (xr judgedAway 1).toNat 0 ≠ [] ∧
    (leafAt (words [2 * 2 ^ 48] ++ List.replicate 248 0)).kind = 2 ∧ reservedSet (words [2 * 2 ^ 48] ++ List.replicate 248 0) = false ∧
    refRead s 0 64 = .ok (List.replicate 64 0) ∧ refRead s 4096 256 = .ok (words [2 * 2 ^ 48] ++ List.replicate 248 0) ∧
    (∃ v, refDest s 0 64 = .ok v) ∧ (∃ v, refDest s 0 0 = .ok v) ∧ refRead s 0 0 = .ok [] := by
  intro s
  and_intros <;> first | decide +kernel | exact of_ok (by decide +kernel) | exact ex_ok (by decide +kernel)

theorem witness_RefereeVerdicts_results :
    let no := leafAt (words [2 * 2 ^ 56 + 2 ^ 48] ++ List.replicate 248 0)
    let other := leafAt (mzeroRecord (List.replicate 32 1))
    let absent := leafAt (mzeroRecord (List.replicate 32 0))
    let same := leafAt (mzeroRecord emptyDigest)
    no.kind = 1 ∧ no.decodes = false ∧ other.kind = 1 ∧ other.decodes = true ∧ numberOf other.a ≠ 0 ∧ other.a.drop 16 ≠ emptyDigest ∧
    absent.decodes = true ∧ numberOf absent.a = 0 ∧ numberOf absent.b = 0 ∧ same.decodes = true ∧ same.a.drop 16 = emptyDigest ∧
    same.b.drop 16 = emptyDigest ∧ reservedSet (mzeroRecord emptyDigest) = false ∧ same.kind = 1 ∧ (judging []).cc.lease = .held := by decide +kernel

/-! ## Witnesses: vectors and the array -/

/-- A command whose result v3 is still to come. -/
def peeking : Core := { cmds := [{ flight := 1, iseq := 1, word := BitVec.ofNat 32 (0x59 * 2 ^ 21 + 3 * 2 ^ 7), addr := 4, sv := false }] }

theorem free_vectors (c : Core) (h : c.cmds = []) (vs : List Nat) : vectorsFree (oneCore c) vs := by
  intro m hm
  have : (oneCore c).cc = c := rfl
  rw [this, h] at hm
  cases hm

theorem witness_VectorArithmetic :
    (5 : BitVec 3).toNat ≤ 5 ∧ cuesMet (oneCore {}) .C 0 ∧ vectorsFree (oneCore {}) [1, 2, 31] ∧
    ¬(cuesMet (oneCore peeking) .C 0 ∧ vectorsFree (oneCore peeking) [1, 3]) := by
  refine ⟨by decide, of_ok (by decide +kernel), free_vectors _ rfl _, fun h => ?_⟩
  refine h.2 { flight := 1, iseq := 1, word := BitVec.ofNat 32 (0x59 * 2 ^ 21 + 3 * 2 ^ 7), addr := 4, sv := false } ?_ 3 ?_ ?_ <;> decide

theorem witness_VectorConversions :
    vcvtH 0 0 0 = true ∧ vcvtH 5 0 3 = true ∧ vcvtH 0 4 1 = true ∧ (2 : BitVec 2) ≠ 3 ∧ (30 : BitVec 5).toNat % 2 = 0 ∧
    ((0 : BitVec 1) = 0 → (3 : BitVec 3).toNat < 4) ∧ vectorsFree (oneCore {}) [30, 31, 1] :=
  ⟨by decide, by decide, by decide, by decide, by decide, by decide, free_vectors _ rfl _⟩

theorem witness_VectorQueuesAndScalars :
    let e : QEntry := { data := 3 }
    let s := oneCore { queues := queueOf 0 { chip := [e] } }
    let full := fun n => oneCore { queues := queueOf n { chip := List.replicate 64 { data := 0 } } }
    s.cc.headOf 0 = some e ∧ s.cc.headOf 12 = none ∧ (oneCore { queues := queueOf 7 { chip := [e] } }).cc.headOf 7 = some e ∧
    (oneCore { queues := queueOf 12 { chip := [e] } }).cc.headOf 12 = some e ∧ cuesMet s .C 0 ∧ vectorsFree s [1, 2] ∧ (full 4).cc.room 4 1 = some false ∧
    (full 10).cc.room 10 1 = some false ∧ (full 14).cc.room 14 1 = some false ∧ Room s 15 ∧ Room s 14 ∧
    Room s 10 ∧ (26 : BitVec 5).toNat = 26 ∧ (23 : BitVec 5).toNat - 16 = 7 :=
  ⟨by decide +kernel, by decide +kernel, by decide +kernel, by decide +kernel, of_ok (by decide +kernel), free_vectors _ rfl _, by decide +kernel,
    by decide +kernel, by decide +kernel, room_of rfl rfl, room_of rfl rfl, room_of rfl rfl, rfl, rfl⟩

/-- Context 0's tables with the first GiB of the slices seen as BF16, as FP32 and as SB8. -/
def matTables : Memory :=
  tables.setBytes 0x10000002000 (bytesOf 8 (0x507F + 2 * 2 ^ 44) ++ bytesOf 8 (0x507F + 2 ^ 44) ++ bytesOf 8 (0x507F + 7 * 2 ^ 44))

def holds : Core := { lease := .held, regs := { cx := (((((Vector.replicate 16 (0 : W64)).setIfInBounds 1 8).setIfInBounds 2 0x40000000).setIfInBounds 3 8).setIfInBounds 4 0x80000000).setIfInBounds 5 8 } }
def matState : State := { paged holds with mem := matTables, bays := [(0, { holder := some 0 })] }

/-- The rows of the operand of pair n: BF16 from 0, FP32 from 1 GiB, SB8 from 2 GiB. -/
def planAt (n : BitVec 3) (rows kl : Nat) : RowPlan := planOf matState [] (baseOf matState n) (geomOf matState n) rows kl
def planB (n m : BitVec 3) : RowPlan :=
  (planOf matState (planAt m 64 64).known (baseOf matState n) (geomOf matState n) 128 64).paired (planAt m 64 64).fmt

/-- The page of GiB 0, and that of GiB 1. -/
def nearPage (g : Nat) : Page := { base := g * 2 ^ 30, leaf := if g = 0 then 0x507F + 2 * 2 ^ 44 else 0x507F + 2 ^ 44 }
def KnownNear (l : List Page) : Prop := ∀ p ∈ l, p = nearPage 0 ∨ p = nearPage 1

theorem knownNear_of {l : List Page} (h : (l.all fun p => decide (p = nearPage 0) || decide (p = nearPage 1)) = true) : KnownNear l := fun p m =>
  (Bool.or_eq_true_iff.mp (List.all_eq_true.mp h p m)).imp of_decide_eq_true of_decide_eq_true

theorem all_below {α : Type} {l : List Nat} {v : Nat} {f : Nat → Chk α} (h : (l.all fun va => decide (v ≤ va) || isOk (f va)) = true) :
    ∀ va ∈ l, va < v → ∃ z, f va = .ok z := fun va m lt =>
  ex_ok ((Bool.or_eq_true_iff.mp (List.all_eq_true.mp h va m)).resolve_left fun x => absurd (of_decide_eq_true x) (Nat.not_le.mpr lt))

/-- An address in the first 64 KiB of a GiB of the tables. -/
def Near (g va : Nat) : Prop := va / 2 ^ 16 = g * 2 ^ 14

theorem near_of {g : Nat} {l : List Nat} (h : (l.all fun va => decide (va / 2 ^ 16 = g * 2 ^ 14)) = true) : ∀ va ∈ l, Near g va := fun va m =>
  of_decide_eq_true (p := va / 2 ^ 16 = g * 2 ^ 14) (List.all_eq_true.mp h va m)

theorem trace_near {g va leaf : Nat} (hg : g < 3) (h : Near g va) (he : readEntry matState 0 (0x10000002000 + 8 * g) = .ok leaf)
    (hl : bit leaf 0 = true ∧ bit leaf 1 = true) : ∃ ws, walkLeaf matState 0 va = .ok { level := 3, leaf := leaf, words := ws } := by
  have a : bits va 55 48 = 0 := by unfold Near at h; unfold bits; omega
  have b : va / 2 ^ 39 % 512 = 0 := by unfold Near at h; omega
  have c : va / 2 ^ 30 % 512 = g := by unfold Near at h; omega
  have r0 : readEntry matState 0 0x10000000000 = .ok 1 := of_ok (by decide +kernel)
  have r1 : readEntry matState 0 0x10000000800 = .ok 0x10000001001 := of_ok (by decide +kernel)
  have r2 : readEntry matState 0 0x10000001000 = .ok 0x10000002001 := of_ok (by decide +kernel)
  have d : ctxDescriptor matState 0 = 0x10000000000 := by decide
  have e : descriptorOk 0 1 = true ∧ mayTranslate matState 0 = true ∧ entryBad matState 0x10000001001 = false ∧ entryBad matState 0x10000002001 = false ∧
    bits 0x10000001001 51 12 * 4096 = 0x10000001000 ∧ bits 0x10000002001 51 12 * 4096 = 0x10000002000 ∧ bit 0x10000001001 0 = true ∧
    bit 0x10000002001 0 = true ∧ bit 0x10000002001 1 = false := by decide +kernel
  obtain ⟨e0, e1, e2, e3, e4, e5, e6, e7, e8⟩ := e
  have f : readEntry matState 0 (0x10000000000 + 2048 + 8 * 0) = .ok 0x10000001001 := r1
  have g0 : readEntry matState 0 (0x10000001000 + 8 * 0) = .ok 0x10000002001 := r2
  simp only [walkLeaf, d, r0, e0, e1, a, f, bind, Except.bind, Bool.not_true, Bool.false_eq_true, if_false, e2, e6, e4, walkFrom, b, g0, e7, e8, e3,
    Bool.or_false, e5, c, he, hl.1, hl.2, if_true, show decide (4 = 1) = false from rfl]
  exact ⟨_, rfl⟩

/-- Every unit of an operand in the first 64 KiB of a page passes its checks. -/
theorem unit_near {g va leaf : Nat} {path : Path} {ok : Nat → Bool} {r : RowPlan} (hg : g < 2) (h : Near g va)
    (hl : leaf = if g = 0 then 0x507F + 2 * 2 ^ 44 else 0x507F + 2 ^ 44) (hp : path = .matRead 0 ∨ path = .matDrain 0)
    (hr : ok r.fmt = true ∧ leafFmt leaf = r.fmt ∧ r.geo = 0 ∧ r.pathBad = false ∧ r.geoBad = false ∧ isSb r.fmt = false)
    (hk : KnownNear r.known) :
    ∃ z, matUnit matState path ok r va = .ok z := by
  have he : readEntry matState 0 (0x10000002000 + 8 * g) = .ok leaf := by
    obtain rfl | rfl : g = 0 ∨ g = 1 := by omega
    all_goals subst hl; exact of_ok (by decide +kernel)
  have hb : bit leaf 0 = true ∧ bit leaf 1 = true := by
    obtain rfl | rfl : g = 0 ∨ g = 1 := by omega
    all_goals subst hl; decide
  obtain ⟨ws, ht⟩ := trace_near (by omega) h he hb
  obtain ⟨h0, h1, h2, h3, h4, h5⟩ := hr
  have v1 : ¬ va ≥ 2 ^ 56 := by unfold Near at h; omega
  have v2 : bit va 55 = false := by unfold Near at h; unfold bit; simp; omega
  have v3 : bayOfPa (va % 2 ^ 30) = 0 := by unfold Near at h; unfold bayOfPa Config.sliceSize; omega
  have lb : leafBad matState 3 leaf = false := by
    obtain rfl | rfl : g = 0 ∨ g = 1 := by omega
    all_goals subst hl; decide +kernel
  have f0 : findPage matState matState.cc.ctx va = .ok { base := va / pageSize leaf * pageSize leaf, leaf := leaf } := by
    have c0 : matState.cc.ctx = 0 := by decide +kernel
    have c1 : cachedPages matState = [] := by decide +kernel
    have c2 : mayTranslate matState 0 = true := by decide +kernel
    simp only [findPage, c0, c1, c2, oldPage, walk, ht, bind, Except.bind, lb, if_true, Bool.false_eq_true, if_false]
  have fp : findWithin matState matState.cc.ctx r.known va = .ok { base := va / pageSize leaf * pageSize leaf, leaf := leaf } := by
    unfold findWithin
    cases hf : r.known.find? fun p => p.holds va with
    | none => exact f0
    | some p =>
      have hh := List.find?_some hf
      have s0 : pageSize (0x507F + 2 * 2 ^ 44) = 2 ^ 30 ∧ pageSize (0x507F + 2 ^ 44) = 2 ^ 30 := by decide
      unfold Near at h
      obtain rfl | rfl := hk p (List.mem_of_find?_eq_some hf) <;>
        simp only [Page.holds, Page.size, nearPage, s0.1, s0.2, if_true, Nat.one_ne_zero, if_false, Bool.and_eq_true, decide_eq_true_eq] at hh
      · obtain rfl : g = 0 := by omega
        have e : va / pageSize leaf * pageSize leaf = 0 * 2 ^ 30 := by rw [hl, if_pos rfl, s0.1]; omega
        rw [e, hl, if_pos rfl]
        rfl
      · obtain rfl : g = 1 := by omega
        have e : va / pageSize leaf * pageSize leaf = 1 * 2 ^ 30 := by rw [hl, if_neg (by decide), s0.2]; omega
        rw [e, hl, if_neg (by decide)]
        rfl
  have lf : leafFormat va leaf = none := by
    obtain rfl | rfl : g = 0 ∨ g = 1 := by omega
    all_goals subst hl; unfold leafFormat; rw [v2]; decide
  have inside (lf : Nat) (s30 : pageSize lf = 2 ^ 30) (m0 : leafMt lf = 0) (o0 : pageOffset lf = 0) :
      (placeOf { base := va / pageSize lf * pageSize lf, leaf := lf } va).pa = va % 2 ^ 30 := by
    unfold placeOf
    rw [if_neg (by rw [m0]; decide), m0, o0, s30]
    exact Nat.zero_add _
  have pl : (placeOf { base := va / pageSize leaf * pageSize leaf, leaf := leaf } va).pa = va % 2 ^ 30 ∧ leafMt leaf = 0 ∧ leafKey leaf = 0 ∧ leafSv leaf = false ∧
      leafO leaf = true ∧ leafR leaf = true ∧ leafW leaf = true ∧ leafGeo leaf = 0 := by
    obtain rfl | rfl : g = 0 ∨ g = 1 := by omega
    all_goals
      subst hl
      exact ⟨inside _ (by decide) (by decide) (by decide), by decide, by decide, by decide, by decide, by decide, by decide, by decide⟩
  obtain ⟨p0, p1, p2, p3, p4, p5, p6, p7⟩ := pl
  have ck : ∃ z, checkPage matState matState.cc.ctx matState.cc.sys.sv path anyFmt va { base := va / pageSize leaf * pageSize leaf, leaf := leaf } = .ok z := by
    refine ⟨placeOf { base := va / pageSize leaf * pageSize leaf, leaf := leaf } va, ?_⟩
    have t : path.typeOk matState.cc.sys.sv 0 (va % 2 ^ 30) = true := by obtain rfl | rfl := hp <;> (unfold Path.typeOk; rw [v3]; rfl)
    have u : path.permBad leaf = none := by obtain rfl | rfl := hp <;> simp [Path.permBad, p5, p6]
    simp only [checkPage, lf, p0, p1, p2, p3, p4, anyFmt, t, u]
    rfl
  obtain ⟨z, hz⟩ := ck
  refine ⟨z, ?_⟩
  unfold matUnit
  simp only [if_neg v1, fp, lf, h0, h1, h2, h3, h4, h5, p7, hz, Bool.not_true, ne_eq, not_true_eq_false, decide_false, Bool.or_false,
    Bool.false_and, Bool.false_eq_true, if_false]

theorem lowest_none {α : Type} {xs : List (Nat × Chk α)} (h : ∀ p ∈ xs, ∃ z, p.2 = .ok z) : lowestError xs = none := by
  induction xs with
  | nil => rfl
  | cons p xs ih =>
    obtain ⟨v, c⟩ := p
    obtain ⟨z, rfl⟩ : ∃ z, c = .ok z := h (v, c) (.head _)
    exact ih fun q m => h q (.tail _ m)

/-- A plan of data alone in the first 64 KiB of GiB 0 or 1. -/
def Fits (ok : Nat → Bool) (r : RowPlan) : Prop :=
  r.scaleVas = [] ∧ ∃ g, g < 2 ∧ (∀ va ∈ r.dataVas, Near g va) ∧ (ok r.fmt = true ∧
    leafFmt (if g = 0 then 0x507F + 2 * 2 ^ 44 else 0x507F + 2 ^ 44) = r.fmt ∧ r.geo = 0 ∧ r.pathBad = false ∧ r.geoBad = false ∧ isSb r.fmt = false) ∧ KnownNear r.known

theorem watch_none (agent : Nat) (l : List (Nat × Nat)) : watchRead matState matState.curCore .C agent l = .ok () := by
  have r : ∀ i ∈ List.range 8, watchRanges matState matState.cc i agent false l = none := fun i m => by
    have z : vget 0 matState.cc.csr.watchCtl i = 0 := by
      have : ∀ i ∈ List.range 8, vget 0 matState.cc.csr.watchCtl i = 0 := by decide +kernel
      exact this i m
    have b : bit 0 (2 + agent) = false := by simp [bit]
    induction l with
    | nil => rfl
    | cons x l ih =>
      obtain ⟨va, n⟩ := x
      simp only [watchRanges, watchRegion, z, ih, show (0 : W64).toNat = 0 from rfl, b, Bool.not_false, Bool.true_or, if_true]
  have e : matState.core matState.curCore = matState.cc := rfl
  have n : ((List.range 8).filterMap fun i => (watchRanges matState matState.cc i agent false l).map fun rc => (i, rc)) = [] :=
    List.filterMap_eq_nil_iff.mpr fun i m => by rw [r i m]; rfl
  simp only [watchRead, e, watchMatch, n]
  split <;> rfl

/-- Plans that fit pass every check, each with its rows. -/
theorem rows_near {path : Path} {ok : Nat → Bool} {agent : Nat} {reads : Bool} {rs : List RowPlan} (hp : path = .matRead 0 ∨ path = .matDrain 0)
    (h : ∀ r ∈ rs, Fits ok r) : ∃ xs, resolveRows matState path ok agent reads rs = .ok xs ∧ xs.length = rs.length := by
  have a : awake matState (bayOfCore matState.curCore * Config.sliceSize) = .ok () := of_ok (by decide +kernel)
  have e : lowestError ((rs.map fun r => r.dataVas.map fun va => (va, matUnit matState path ok r va)).flatten ++
      (rs.map fun r => r.scaleVas.map fun va => (va, translateScale matState matState.cc.ctx matState.cc.sys.sv path r.known va)).flatten) = none := by
    refine lowest_none fun p m => ?_
    simp only [List.mem_append, List.mem_flatten, List.mem_map] at m
    obtain ⟨_, ⟨r, mr, rfl⟩, m⟩ | ⟨_, ⟨r, mr, rfl⟩, m⟩ := m
    · obtain ⟨-, g, hg, hd, hr, hk⟩ := h r mr
      obtain ⟨va, mv, rfl⟩ := List.mem_map.mp m
      exact unit_near hg (hd va mv) rfl hp hr hk
    · rw [(h r mr).1] at m
      cases m
  simp only [resolveRows, allOk, e, a, watch_none, bind, Except.bind]
  cases reads <;> exact ⟨_, rfl, by simp⟩

/-- Below any address a plan that fits passes. -/
theorem below_of {r : RowPlan} {v : Nat} (h : Fits matFormat r) :
    (∀ va ∈ r.dataVas, va < v → ∃ z, matUnit matState (matPath matState) matFormat r va = .ok z) ∧
      ∀ va ∈ r.scaleVas, va < v → ∃ z, translateScale matState matState.cc.ctx matState.cc.sys.sv (matPath matState) r.known va = .ok z := by
  obtain ⟨e, g, hg, hd, hr, hk⟩ := h
  refine ⟨fun va m _ => unit_near hg (hd va m) rfl (.inl rfl) hr hk, fun va m => ?_⟩
  rw [e] at m
  cases m

theorem one_of {α : Type} {l : Chk (List α)} (h : ∃ xs, l = .ok xs ∧ xs.length = 1) : ∃ x, l = .ok [x] := by
  obtain ⟨xs, e, n⟩ := h
  obtain ⟨x, rfl⟩ := List.length_eq_one_iff.mp n
  exact ⟨x, e⟩

theorem two_of {α : Type} {l : Chk (List α)} (h : ∃ xs, l = .ok xs ∧ xs.length = 2) : ∃ x y, l = .ok [x, y] := by
  match h with
  | ⟨[x, y], e, _⟩ => exact ⟨x, y, e⟩

theorem fit_A : Fits matFormat (planAt 0 64 64) :=
  ⟨by decide +kernel, 0, by decide, near_of (by decide +kernel), by and_intros <;> decide +kernel, knownNear_of (by decide +kernel)⟩
theorem fit_B : Fits matFormat (planB 0 0) := ⟨by decide +kernel, 0, by decide, near_of (by decide +kernel), by and_intros <;> decide +kernel, knownNear_of (by decide +kernel)⟩
theorem fit_V : Fits matFormat ((planAt 0 128 64).paired (vFormat 2)) :=
  ⟨by decide +kernel, 0, by decide, near_of (by decide +kernel), by and_intros <;> decide +kernel, knownNear_of (by decide +kernel)⟩
theorem fit_F : Fits (fun f => decide (f = fmtF32)) (planAt 1 64 128) :=
  ⟨by decide +kernel, 1, by decide, near_of (by decide +kernel), by and_intros <;> decide +kernel, knownNear_of (by decide +kernel)⟩

theorem witness_MatrixCommandsIssue :
    let below := fun (v : Nat) (q : RowPlan) => (∀ va ∈ q.dataVas, va < v → ∃ z, matUnit matState (matPath matState) matFormat q va = .ok z) ∧
      ∀ va ∈ q.scaleVas, va < v → ∃ z, translateScale matState matState.cc.ctx matState.cc.sys.sv (matPath matState) q.known va = .ok z
    matState.cur.word.extractLsb' 21 7 ≠ 0x51 ∧ (∀ m ∈ matState.cc.cmds, m.word.extractLsb' 21 7 ≠ 0x51) ∧ geomOk (geomOf matState 0) ∧
    geomOk (geomOf matState 2) ∧ (baseOf matState 0).toNat % 64 = 0 ∧ (baseOf matState 2).toNat % 64 = 0 ∧
    (baseOf { matState with cores := [(0, { holds with regs := { cx := (Vector.replicate 16 (0 : W64)).setIfInBounds 0 4 } })] } 0).toNat % 64 ≠ 0 ∧
    matFormat (planAt 0 64 64).fmt = true ∧ matFormat (planB 2 0).fmt = true ∧ isSb (planAt 0 64 64).fmt ≠ isSb (planB 2 0).fmt ∧
    512 ≤ 64 * ((geomOf matState 1).extractLsb' 0 16).toNat ∧ 64 * ((geomOf matState 1).extractLsb' 0 16).toNat < 513 ∧
    (matState.regs.getCx 6).toNat ≤ 127 ∧ 127 < (matState.regs.getCx 4).toNat ∧ vectorsFree matState [0, 1, 2, 3, 4, 5, 6, 7] ∧ ¬geomOk (geomOf matState 3) ∧
    cuesMet matState .C 0 ∧ arrayReady matState ∧ below (baseOf matState 2).toNat (planAt 0 64 64) ∧ below (baseOf matState 2).toNat (planB 2 0) := by
  refine ⟨by decide, by decide, ?_, ?_, by decide +kernel, by decide +kernel, by decide +kernel, ?_⟩
  iterate 2 exact ⟨by decide +kernel, by decide +kernel⟩
  refine ⟨by decide +kernel, by decide +kernel, by decide +kernel, by decide +kernel, by decide +kernel, by decide, by decide, fun m h => ?_,
    fun h => absurd h.2 (by decide +kernel), of_ok (by decide +kernel), ?_, below_of fit_A, ⟨all_below (by decide +kernel), all_below (by decide +kernel)⟩⟩
  · cases h
  · unfold arrayReady
    decide +kernel

theorem witness_MatrixCommandsIssue_rows :
    (∃ x y, resolveRows matState (matPath matState) matFormat agentOperand true [planAt 0 64 64, planB 0 0] = .ok [x, y]) ∧
    (∃ y, resolveRows matState (matPath matState) matFormat agentOperand true [(planAt 0 128 64).paired (vFormat 2)] = .ok [y]) ∧
    (planAt 1 64 128).fmt = fmtF32 ∧ (planAt 1 64 128).bytes = 512 ∧
    (∃ x, resolveRows matState (.matDrain 0) (fun f => decide (f = fmtF32)) agentDrain false [planAt 1 64 128] = .ok [x]) ∧
    ∃ x, resolveRows matState (matPath matState) (fun f => decide (f = fmtF32)) agentOperand true [planAt 1 64 128] = .ok [x] := by
  have f : ∀ r ∈ [planAt 1 64 128], Fits (fun f => decide (f = fmtF32)) r := fun _ m => List.mem_singleton.mp m ▸ fit_F
  refine ⟨two_of (rows_near (.inl rfl) fun r m => ?_), one_of (rows_near (.inl rfl) fun _ m => List.mem_singleton.mp m ▸ fit_V), by decide +kernel,
    by decide +kernel, one_of (rows_near (.inr rfl) f), one_of (rows_near (.inl rfl) f)⟩
  obtain rfl | m := List.mem_cons.mp m
  · exact fit_A
  · exact List.mem_singleton.mp m ▸ fit_B

theorem witness_VectorComparesAndMoves : (3 : BitVec 3).toNat ≤ 5 ∧ ((3 : BitVec 3) = 0 ∨ (3 : BitVec 3) = 3) := by decide

theorem witness_ReductionsAndPermutes : (5 : BitVec 3).toNat ≤ 5 ∧ (4 : BitVec 5).toNat % 2 = 0 := by decide

theorem witness_ElementFunctions :
    (F32.decode 0x7FC00000).isNan = true ∧ (F32.decode 0x43000000).isNan = false ∧ (F32.decode 0x43000000).lt (.fin false 128 0) = false ∧
    (F32.decode 0xC3200001).isNan = false ∧ (F32.decode 0xC3200001).lt (.fin true 160 0) = true ∧ (F32.decode 0xBF800000).lt (.fin false 0 0) = true := by decide +kernel

theorem each_core {P : Core → Prop} {s : State} {c : Core} (hs : s.cores = [(0, c)]) (h0 : P c) (h1 : P {}) (k : Nat) : P (s.core k) := by
  by_cases h : k = 0
  · subst h
    rw [show s.core 0 = c by simp [State.core, hs, Map.get, Map.find?]]
    exact h0
  · rw [show s.core k = {} by simp [State.core, hs, Map.get, Map.find?, Ne.symm h]]
    exact h1

theorem witness_LeaseStates :
    let none_ := oneCore {}
    let held := { oneCore { lease := .held } with bays := [(0, { holder := some 0, boundCmds := 64, boundHit := true, leaseNext := 1 })] }
    let fresh := { held with bays := [(0, { holder := some 0, boundCmds := 64 })] }
    let other := { oneCore {} with bays := [(0, { holder := some 1 })] }
    let rel : State := { held with cur := { word := BitVec.ofNat 32 (0x51 * 2 ^ 21), addr := 4 } }
    let asked := { held with cores := [(0, { lease := .held }), (1, { lease := .pending })] }
    cuesMet none_ .C 0 ∧ none_.cc.lease = .none ∧ none_.cc.leaseFlights = [] ∧ (none_.bay 0).holder = none ∧
    (∀ n, n / 4 = 0 → (none_.core n).lease ≠ .pending ∧ (none_.core n).lease ≠ .lost) ∧ (other.bay 0).holder ≠ none ∧ held.cc.lease = .held ∧
    (oneCore { lease := .lost }).cc.lease = .lost ∧ rel.cur.word.extractLsb' 21 7 = 0x51 ∧ none_.cc.det = false ∧
    (oneCore { sys := { task := some { aTask with det := true } } }).cc.det = true ∧ (fresh.bay 0).boundHit = false ∧ 64 ≤ (fresh.bay 0).boundCmds ∧
    (none_.bay 0).boundCmds < 64 ∧ none_.sys.pkgCycle.toNat - (none_.bay 0).boundStart < 8192 ∧ (held.core 0).cmds = [] ∧ nextRequester held 0 = none ∧
    nextRequester asked 0 = some 1 ∧ (held.bay 0).leaseNext = (0 + 1) % 4 ∧ (∀ t, none_.cc.sys.task = some t → none_.dying t.scope = false) ∧ (∀ k, ∀ f ∈ (held.core k).c.flights, f.watch = none) := by
  intro none_ held fresh other rel asked
  have free : cuesMet none_ .C 0 := of_ok (by decide +kernel)
  and_intros
  any_goals first | exact free | decide
  · exact fun n _ => each_core (P := fun c => c.lease ≠ .pending ∧ c.lease ≠ .lost) rfl (by decide) (by decide) n
  · exact fun k => each_core (P := fun c => ∀ f ∈ c.c.flights, f.watch = none) rfl (by decide) (by decide) k

/-- The rows of a BF16 operand, each of its 128 bytes from 0. -/
def zeroRows (n : Nat) : Rows := { base := 0, geom := 8, fmt := 2, geo := 0, pas := List.replicate n [0, 64], scales := List.replicate n [] }

def cmdOf (w : Nat) (m : MCmd) : MCmd := { m with word := BitVec.ofNat 32 w }
def plainCmd : MCmd := { flight := 1, iseq := 1, word := 0, addr := 4, sv := false }

theorem witness_MatrixCommandsComplete :
    let s := oneCore { cmds := [cmdOf (0x54 * 2 ^ 21) plainCmd] }
    let patch := cmdOf (0x58 * 2 ^ 21) { plainCmd with regs := [5], row := 127, pred := 1 }
    let drain := cmdOf (0x56 * 2 ^ 21 + 2 ^ 6) { plainCmd with a := some (zeroRows 64) }
    (s.core 0).cmds = [cmdOf (0x54 * 2 ^ 21) plainCmd] ∧ (s.core 0).acc.Pairwise (fun a b => a.1 < b.1) ∧
    (∀ p ∈ slotReads patch, ((s.core 0).accRow (s.core 0).ctx p.1 p.2).poison = false) ∧ patch.row < 128 ∧ patch.regs ≠ [] ∧
    (∀ p ∈ slotReads drain, ((s.core 0).accRow (s.core 0).ctx p.1 p.2).poison = false) ∧
    (∀ p ∈ slotReads (cmdOf (0x55 * 2 ^ 21) plainCmd), ((s.core 0).accRow (s.core 0).ctx p.1 p.2).poison = false) ∧
    (zeroRows 128).pas.length = 128 ∧ (s.bay 0).power = .on ∧ (s.bay 0).target = none ∧
    (∀ x ∈ joinBytes [(0x1000, 1), (0x1001, 2), (0x1008, 3)], s.mem.writeBlocked (s.core 0).ctx x.1 x.2.length = false) ∧
    (drain.word.extractLsb' 6 1).toNat = 1 ∧ (zeroRows 64).pas.length ≤ 64 ∧ (∀ k, ∀ f ∈ (s.core k).c.flights, f.watch = none) := by
  refine ⟨by decide +kernel, by decide +kernel, by decide +kernel, by decide, by decide, by decide +kernel, by decide +kernel, by decide +kernel, by decide,
    by decide, by decide +kernel, by decide +kernel, by decide +kernel, ?_⟩
  exact fun k => each_core (P := fun c => ∀ f ∈ c.c.flights, f.watch = none) rfl (by decide) (by decide) k

theorem witness_MatrixCommandsComplete_rows :
    (∃ v, readOperand (oneCore {}) 0 [] (zeroRows 128) 64 = .ok v) ∧
    ∃ data, readRows (oneCore {}) 0 [] 512 [(List.range 8).map (64 * ·)] = .ok data ∧ data.all (fun bs => bs.length = 512) = true :=
  ⟨ex_ok (by decide +kernel), of_okAnd (by decide +kernel)⟩

theorem witness_DrainedRowBytes : (127 : Nat) < 128 ∧ (3 : Nat) ≤ 3 := by decide

theorem witness_UnderstudyDisagreement :
    let rows : Nat → Rows := fun f => { zeroRows 64 with fmt := f, geo := 2 }
    let m : Nat → MCmd := fun f => { cmdOf (0x52 * 2 ^ 21 + 2 ^ 9 + 2 ^ 6) plainCmd with a := some (rows f), b := some (rows f) }
    let s := oneCore { cmds := [m 2] }
    let sb : BitVec 15 := BitVec.ofNat 15 (63 + 1 * 128 + 1 * 4096)
    let float : BitVec 15 := BitVec.ofNat 15 (63 + 31 * 128)
    (s.core 0).cmds = [m 2] ∧ (m 2).word.extractLsb' 21 7 = 0x52 ∧ (m 2).word.extractLsb' 9 1 = 1 ∧ (s.bay 0).power = .on ∧ (s.bay 0).target = none ∧
    isSb (rows 7).fmt = true ∧ sb.toNat % 128 ≤ 63 ∧ sb.toNat / 128 % 32 < ceilDiv (m 7).kl (min (blockLen (rows 7).geo) (blockLen (rows 7).geo)) ∧
    sb.toNat / 4096 ≠ 0 ∧ isSb (rows 2).fmt = false ∧ float.toNat % 128 ≤ 63 ∧ float.toNat / 128 % 32 = 31 ∧ float.toNat / 4096 = 0 := by decide +kernel

/-! ## Witnesses: fetch, SYNC lines and completion -/

/-- Core 0 at lane 1 of frame 0, whose first line has one K lane, under the header h. -/
def fetching (h : W32) : State :=
  { oneCore { tasked with k := { fpc := 4 }, frame0 := { lanes := [(0, h), (1, BitVec.ofNat 32 (2 ^ 25))], empty := false } } with
    scopes := [(1, { ctx := 0, parent := none })] }

theorem witness_FetchRoutesALine :
    let s := fetching 0x10
    canFetch s (s.core 0) .K = true ∧ canFetch (oneCore {}) ((oneCore {}).core 0) .K = false ∧ executable (s.core 0) 0 ∧
    ¬executable ((oneCore tasked).core 0) 0 ∧ canFetch (oneCore tasked) ((oneCore tasked).core 0) .K = true ∧ lineWord (s.core 0) 0 0 = 0x10 ∧
    (lineWord (s.core 0) 0 0).extractLsb' 0 2 = 0 ∧ (lineWord (s.core 0) 0 0).getLsbD 3 = false ∧ (s.core 0).sys.apart = false ∧
    (∀ i < 8, 1 ≤ i → kindAt (lineWord (s.core 0) 0 0) i ≤ 4) ∧ kindAt (lineWord (s.core 0) 0 0) 1 = 1 ∧ holdsFetch false .K (lineWord (s.core 0) 0 1).toNat = none ∧
    acCount .K (lineWord (s.core 0) 0 1).toNat = 0 ∧ (lineWord (s.core 0) 0 1).extractLsb' 25 7 = 1 ∧ (s.core 0).k.loop0.getLsbD 63 = false ∧ (s.core 0).s.iq = [] ∧
    kindAt 0x70 1 > 6 ∧ kindAt 0x50 1 = 5 ∧ (0x8 : W32).getLsbD 3 = true ∧ (1 : W32).extractLsb' 0 2 = 1 := by
  intro s
  refine ⟨?_, ?_, ⟨?_, ?_⟩, fun h => absurd h.2 (by decide +kernel), ?_⟩
  all_goals decide +kernel

/-- A SYNC line of an addi of K and a caddi of C, both at their heads. -/
def syncK : Entry := { word := 0x10318001, addr := 4, sync := true, line := 3 }
def syncC : Entry := { word := 0x28CD018F, addr := 8, sync := true, line := 3 }
def synced : State := { oneCore { tasked with k := { iq := [syncK] }, c := { iq := [syncC] } } with scopes := [(1, { ctx := 0, parent := none })] }

def syncL : Entry := { word := 0x05A00000, addr := 8, sync := true, line := 3 }
def lined (k l : List Entry) : State := { oneCore { tasked with k := { iq := k }, l := { iq := l } } with scopes := [(1, { ctx := 0, parent := none })] }

/-- A K lane and an L lane of line 3 at their heads; and the L lane behind a lane of line 2. -/
def paired : State := lined [{ syncK with word := 0x02420C00 }] [syncL]
def early : State := lined [syncK] [{ syncL with sync := false, line := 2 }, syncL]
def stopping : Stop := { why := .park, phase := .draining }

theorem ready_of {s : State} {n k : Nat} (h : ∀ cl, (s.cluster n cl).iq = [] ∨ ∃ e, (s.cluster n cl).iq = [e] ∧ e.mark = none ∧ e.sync = true ∧ e.line = k) :
    syncReady s n k := fun cl => by
  obtain h | ⟨e, h, m, y, l⟩ := h cl
  · rw [h]
    exact ⟨fun _ m => (nomatch m), fun ⟨_, m, _⟩ => (nomatch m)⟩
  · rw [h]
    exact ⟨fun x mx _ => List.mem_singleton.mp mx ▸ Nat.le_of_eq l.symm, fun _ => ⟨e, [], rfl, m, y, l⟩⟩

theorem witness_SyncLinesIssueWhole :
    synced.syncLine 0 = some 3 ∧ synced.syncHeads 0 3 = [(.K, syncK), (.C, syncC)] ∧ (synced.core 0).sys.stop = none ∧ syncReady synced 0 3 ∧
    synced.clusterRuns 0 .K = true ∧ synced.clusterRuns 0 .C = true ∧ (oneCore {}).syncLine 0 = none ∧
    (decode .K syncK.word.toNat).toOption = some (.addi 3 3 1) ∧ (decode .C syncC.word.toNat).toOption = some (.cli 2 0xd 0x18f) ∧
    ((oneCore { k := { iq := [syncK] }, sys := { stop := some stopping } }).core 0).sys.stop ≠ none := by
  refine ⟨by decide +kernel, by decide +kernel, by decide, ready_of fun cl => ?_, by decide +kernel, by decide +kernel, by decide +kernel, by decide +kernel,
    by decide +kernel, by decide⟩
  cases cl
  · exact .inr ⟨syncK, rfl, rfl, rfl, rfl⟩
  · exact .inl rfl
  · exact .inr ⟨syncC, rfl, rfl, rfl, rfl⟩
  · exact .inl rfl

theorem witness_SyncLinesIssueWhole_held : early.syncLine 0 = some 3 ∧ ¬syncReady early 0 3 :=
  ⟨by decide +kernel, fun h => absurd ((h .L).1 _ (.head _) rfl) (by decide)⟩

theorem witness_SyncLinesIssueWhole_add :
    paired.syncLine 0 = some 3 ∧ paired.syncHeads 0 3 = [(.K, { syncK with word := 0x02420C00 }), (.L, syncL)] ∧ (paired.core 0).sys.stop = none ∧
    syncReady paired 0 3 ∧ paired.clusterRuns 0 .K = true ∧ paired.clusterRuns 0 .L = true ∧
    (decode .K 0x02420C00).toOption = some (.add 4 4 3) ∧ (decode .L syncL.word.toNat).toOption = some (.lCueNop 0) ∧ cuesReady (paired.core 0) .L 0 = .ok () := by
  refine ⟨by decide +kernel, by decide +kernel, by decide, ready_of fun cl => ?_, by decide +kernel, by decide +kernel, by decide +kernel, by decide +kernel,
    of_ok (by decide +kernel)⟩
  cases cl
  · exact .inr ⟨_, rfl, rfl, rfl, rfl⟩
  · exact .inr ⟨syncL, rfl, rfl, rfl, rfl⟩
  · exact .inl rfl
  · exact .inl rfl

/-- A SYNC line whose L lane waits for a token. -/
def tokenL : Entry := { syncL with word := 0x25A00000 }
def halfReady : State := lined [{ syncK with word := 0x02420C00 }] [tokenL]

def flightAfter (o : Host.Outcome State Fault Refusal) (cl : Cl) : Option Nat :=
  match o with
  | .next t => some (t.cluster 0 cl).flightNo
  | _ => none

theorem witness_SyncLinesIssueWhole_waits :
    halfReady.syncLine 0 = some 3 ∧ (halfReady.cluster 0 .L).flightNo = 1 ∧ (halfReady.cluster 0 .K).flightNo = 1 ∧ (decode .L tokenL.word.toNat).toOption = some (.lCueNop 2) ∧
    flightAfter (exec (.lCueNop 2) (halfReady.withCur 0 tokenL)) .L = some 1 ∧ flightAfter (exec (.add 4 4 3) (halfReady.withCur 0 { syncK with word := 0x02420C00 })) .K = some 2 := by
  decide +kernel

/-! ## Witnesses: tasks, stops and limits -/

def alive : List (Nat × Scope) := [(1, { ctx := 0, parent := none })]
def live (c : Core) : State := { paged c with scopes := alive }
def taskWith (t : Task) (y : CoreSys) : Core := { sys := { y with task := some t } }

theorem witness_TaskStartState :
    let loaded : Frame := { len := 32, empty := false }
    let here := live { sys := { prefetch := [aTask] }, frame0 := loaded }
    let there := live { sys := { prefetch := [aTask] }, frame1 := loaded }
    let load := live { sys := { prefetch := [aTask] } }
    Unheld here ∧ Unheld there ∧ Unheld load ∧ (here.core 0).sys.task = none ∧ (here.core 0).sys.prefetch = [aTask] ∧ here.dying aTask.scope = false ∧ bayLogicOn here 0 = true ∧ aTask.area = none ∧ aTask.bank = none ∧
    (here.core 0).frame0 = loaded ∧ (there.core 0).frame0.len ≠ aTask.ovlLen ∧ (load.core 0).sys.lastFrame = 1 - 0 ∧ ((load.core 0).frame 0).loading = 0 ∧
    ({ oneCore {} with scopes := [(1, { ctx := 0, parent := none, killing := true })] } : State).dying 1 = true ∧ (∃ bs, load.vaRead aTask.ctx .ovl aTask.ovl.toNat aTask.ovlLen = .ok bs) :=
  ⟨⟨rfl, rfl⟩, ⟨rfl, rfl⟩, ⟨rfl, rfl⟩, rfl, rfl, by decide +kernel, by decide +kernel, rfl, rfl, by decide +kernel, by decide +kernel, by decide +kernel, rfl,
    by decide +kernel, ex_ok (by decide +kernel)⟩

def aNest : Nest := { desc := [], ctx := 0, scope := 1, graph := 0, node := none, owner := none, level := 0, anchor := 0, domain := 0, prio := 0, next := 1, out := 2 }

theorem witness_TasksRetire :
    let s := live (taskWith aTask { halting := true })
    let b : TreeBlock := { die := 0, block := 0 }
    let audited := live (taskWith { aTask with block := some b } { halting := true })
    let logged := { audited with dies := [(0, { erxLog := 0x10000000000 })] }
    Unheld s ∧ Unheld logged ∧ (s.core 0).sys.task = some aTask ∧ (s.core 0).sys.halting = true ∧ s.dying aTask.scope = false ∧ (∀ cl, (s.cluster 0 cl).flights = []) ∧ NoLease s 0 ∧
    NoReceives s aTask ∧ (s.core 0).debugPending = 0 ∧ Map.find? { s with nests := [(3, aNest)] }.nests 3 = some aNest ∧ aNest.stopped = false ∧ 1 < aNest.out ∧
    b.image = none ∧ b.die = 0 / 288 ∧ ({ b with c := { held := [{ flight := 1 }] } } : TreeBlock).c.held ≠ [] ∧ b.drained = true ∧ logRing logged (logged.die 0) = some (0x10000000000, 16, 0) ∧ logRoom logged 0 = true ∧
    treeBad logged b = none ∧ treeBad { logged with mem := { poison := [64] } } b = some 64 :=
  ⟨⟨rfl, rfl⟩, ⟨rfl, rfl⟩, rfl, rfl, by decide +kernel, fun cl => by cases cl <;> rfl, ⟨rfl, rfl, by decide +kernel⟩, fun e he => absurd he List.not_mem_nil, rfl, rfl, rfl, by decide, rfl, rfl, nofun, by decide +kernel,
    by decide +kernel, by decide +kernel, by decide +kernel, by decide +kernel⟩

theorem witness_StopsEnterTheHandler :
    let at_ := fun p => live (taskWith aTask { stop := some { why := .trap, phase := p, first := some .L } })
    let tr : Trap := { cause := .align, info := 4 }
    let drained : State := { live { taskWith aTask { stop := some { why := .trap, phase := .drained, first := some .L } } with
      l := { stopped := some tr }, csr := { tvec := 0x0100000000001000 } } with dies := [(0, { cutPool := 0x10000000001 })] }
    let loading := live { taskWith aTask { stop := some { why := .trap, phase := .loading } } with csr := { tvec := 0x0100000000001000 }, frame0 := { loading := 1 } }
    Unheld drained ∧ Unheld loading ∧ Alive (at_ .requested) 0 aTask ∧ Alive drained 0 aTask ∧ (drained.core 0).sys.stop = some { why := .trap, phase := .drained, first := some .L } ∧
    ((drained.core 0).cluster .L).stopped = some tr ∧ (drained.core 0).sys.sv = false ∧
    lowestFree (drained.die 0).cutUsed (poolCount (drained.die 0).cutPool) = some 0 ∧ ((drained.core 0).csr.tvec.extractLsb' 56 8).toNat = 1 ∧
    ((drained.core 0).frame 1).empty = true ∧ Alive loading 0 aTask ∧ ((loading.core 0).frame ((loading.core 0).k.fpc.toNat / 0x10000)).loading = 1 ∧
    (∃ bs, loading.vaReadSv aTask.ctx ((loading.core 0).csr.tvec.extractLsb' 0 56).toNat (((loading.core 0).csr.tvec.extractLsb' 56 8).toNat * 512) = .ok bs) :=
  ⟨⟨rfl, rfl⟩, ⟨rfl, rfl⟩, ⟨rfl, by decide +kernel, rfl⟩, ⟨rfl, by decide +kernel, rfl⟩, rfl, rfl, rfl, by decide +kernel, by decide +kernel, rfl, ⟨rfl, by decide +kernel, rfl⟩, by decide +kernel,
    ex_ok (by decide +kernel)⟩

theorem witness_StopsEnterTheHandler_reload :
    let k := { aTask with area := some (0, 0) }
    let s := { oneCore (taskWith k { stop := some { why := .trap, phase := .restoring, reload := [0, 2] } }) with scopes := alive }
    Alive s 0 k ∧ (s.core 0).sys.stop = some { why := .trap, phase := .restoring, reload := [0, 2] } ∧ k.area = some (0, 0) ∧
    s.cutIn k.ctx 0 0 = .ok (some (cutAt 0 0 0 0)) ∧ Unheld s ∧ ∃ s1, s.reload 0 (cutAt 0 0 0 0) 0 = .ok s1 :=
  ⟨⟨rfl, by decide +kernel, rfl⟩, rfl, rfl, cutIn_nothing _ _ _ rfl (by decide +kernel), ⟨rfl, rfl⟩, ex_ok (by decide +kernel)⟩

def aGraph : Graph := { ctx := 0, va := 4096, die := 0, root := 0, scope := 1, level := 0, anchor := 0, nnodes := 1, det := false, lcores := 0, word7 := 0 }

theorem witness_LimitsRequestStops :
    let s := { live (taskWith aTask {}) with sys := { pkgCycle := 0x300_0000 }, graphs := [(0, { aGraph with parking := true })] }
    let h := live (taskWith aTask { sv := true })
    Alive s 0 aTask ∧ Alive h 0 aTask ∧ (s.core 0).sys.nextStop = none ∧ (s.die 0).preemptLimit.toNat / 2 ^ 32 = 0x400 ∧ (s.die 0).preemptLimit.toNat % 2 ^ 32 = 0x100000 ∧
    (s.core 0).sys.startCycle + 0x200 * 65536 ≤ s.sys.pkgCycle.toNat ∧ s.graph? aTask.graph = some { aGraph with parking := true } ∧
    aGraph.parkStart + 0x100000 ≤ s.sys.pkgCycle.toNat ∧ ({ s with host := { booted := true } } : State).host.booted = true ∧ s.host.booted = false ∧ (1 : W32) = s.host.lastDown + 1 ∧ (h.core 0).sys.sv = true ∧ (h.core 0).sys.stop = none :=
  ⟨⟨rfl, by decide +kernel, rfl⟩, ⟨rfl, by decide +kernel, rfl⟩, rfl, by decide +kernel, by decide +kernel, by decide +kernel, rfl, by decide, rfl, rfl, by decide, rfl, rfl⟩

/-! ## Witnesses: jobs, groups, the fabric -/

def cardTo (dst : Nat) : List W64 := w64s [0, 0, dst, 64, 0, 0, 0, 0]
def aCommand (card : List W64) : Command := { index := 0, gen := 0, cl := .L, flight := 1, iseq := 1, word := BitVec.ofNat 32 (0x18 * 2 ^ 21), card := card }
def aJob : Job :=
  { seq := 7, core := some 0, target := 0, cl := .L, index := 0, gen := 0, flight := 1, iseq := 1, ctx := 0, who := aTask.who, word := 0, card := cardTo 4096, bank := false,
    mask := 0, sv := false, reads := [{ base := 0, len := 64 }], writes := [{ base := 4096, len := 64 }], preds := [], named := [], node := none }
def fl1 : Flight := { no := 1, iseq := 1, kind := .job 0 }
def zeros64 : List Byte := List.replicate 64 0

def streaming (cmd : Command) (t : Task) : State := live { taskWith t {} with l := { flights := [fl1] }, mem := { streamL := [cmd] } }
def takenFrom (s : State) : State := (s.pop 0 0 (.stream 0 .L)).takeSeq 0

theorem witness_JobsAreAccepted :
    let cmd := aCommand (cardTo 4096)
    let s := streaming cmd aTask
    let f : CardFrom := { block := false, noFrame := false, bank := false, mask := 0, self := selfPkg s }
    (s.bay 0).logicOn = true ∧ (s.bay 0).logicTarget = none ∧ (s.bay 0).rr = 0 ∧ (s.core 0).stream .L = [cmd] ∧ Alive s 0 aTask ∧ cmd.held = false ∧ cmd.taken = none ∧ cmd.inv = none ∧ cmd.pb = none ∧
    (∀ x ∈ ((s.core 0).cluster .L).flights, cmd.flight ≤ x.no) ∧ (s.core 0).sys.stop = none ∧ (s.bay 0).jobs.length < 32 ∧ cardBad cmd.card f = none ∧
    cardBad (w64s [0, 0, 0, 0, 0, 0, 0, 1]) f = some 3 ∧ cardKind cmd.card ≤ 1 ∧ cardClass cmd.card ≠ 2 ∧
    (∀ i < 8, vget 0 (s.core 0).csr.watchCtl i = 0) ∧ (∀ a ∈ (s.bay 0).jobs, a.seq ≠ (s.bay 0).seq) ∧
    ∃ v, resolveCard (takenFrom s) aTask.ctx cmd.sv cmd.card = .ok v ∧ (v.1.all fun r => r.runs.all fun x => x.home.isNone) = true :=
  ⟨rfl, rfl, rfl, rfl, ⟨rfl, by decide +kernel, rfl⟩, rfl, rfl, rfl, rfl, by
    and_intros
    rotate_right
    · exact of_okAnd (by decide +kernel)
    all_goals first | exact rfl | decide +kernel⟩

theorem witness_JobsComplete :
    let run : Run := { va := 4096, len := 64, pa := 4096, key := 0, fmt := 0, geo := 0 }
    let j := { aJob with started := true, data := some zeros64, writes := [{ base := 4096, len := 64, runs := [run] }] }
    let s := { live { taskWith aTask {} with l := { flights := [fl1] } } with bays := [(0, { jobs := [j] })] }
    let o := { j with card := w64s [2 ^ 61, 0, 0, 64, 0, 0, 0, 0] }
    Unheld s ∧ j.reqs = [] ∧ j.preds = [] ∧ j.named = [] ∧ (s.bay 0).jobs = [] ++ j :: [] ∧ JobFlight s 0 j fl1 [] [] ∧ fl1.watch = none ∧ j.watch = none ∧ (cardWord j.card 0) / 2 ^ 57 % 2 = 0 ∧ cardKind j.card = 0 ∧
    cardKind o.card = 2 ∧ cardWord o.card 2 = 0 ∧ AllHere j ∧ jobBytes s j = .ok zeros64 ∧ checkDest s j.ctx (jobWrite j).runs = .ok () ∧
    ringOf s j.ctx (cardWord j.card 2) (cardWord j.card 3) = none ∧ (jobWrite j).runs = [run] ∧ run.len = zeros64.length :=
  ⟨⟨rfl, rfl⟩, rfl, rfl, rfl, rfl, ⟨rfl, rfl, rfl, rfl, rfl, fun g h => absurd h List.not_mem_nil⟩, rfl, rfl, by decide, by decide, by decide, by decide, ⟨by decide +kernel, by decide +kernel⟩,
    of_ok (by decide +kernel), of_ok (by decide +kernel), by decide +kernel, rfl, by decide⟩

theorem witness_FailuresReachTheirLane :
    let j := { aJob with started := true, reqs := [{ tag := 0, home := 2, va := 0, off := 0, len := 64, write := false, deadline := 0 }] }
    let s := { live { taskWith aTask {} with l := { flights := [fl1] } } with bays := [(0, { jobs := [j] })] }
    let r : Report := { cl := .L, trap := { cause := .align, info := 0 }, who := aTask.who }
    let told := live { taskWith aTask {} with mem := { reports := [r] } }
    let stopped := live { taskWith aTask {} with l := { stopped := some r.trap }, mem := { reports := [r] } }
    (s.bay 0).jobs = [] ++ j :: [] ∧ JobFlight s 0 j fl1 [] [] ∧ cardKind j.card ≤ 2 ∧ (∃ x ∈ j.reqs, x.home = 2 ∧ x.deadline ≤ s.sys.pkgCycle.toNat) ∧ peerUp s 2 = false ∧
    Unheld told ∧ (told.core 0).mem.reports = [] ++ r :: [] ∧ Alive told 0 aTask ∧ aTask.who = r.who ∧ aTask.area = none ∧ ((told.core 0).cluster .L).stopped = none ∧
    ((stopped.core 0).cluster .L).stopped = some r.trap ∧ ((stopped.core 0).cluster .L).held = none :=
  ⟨rfl, ⟨rfl, rfl, rfl, rfl, rfl, fun g h => absurd h List.not_mem_nil⟩, by decide, by decide +kernel, by decide +kernel, ⟨rfl, rfl⟩, rfl, ⟨rfl, by decide +kernel, rfl⟩, rfl, rfl, rfl, rfl,
    rfl⟩

def anUpdate : Update :=
  { flight := 1, core := 0, ctx := 0, who := aTask.who, group := 3, issuer := 1, s := 0, pa := 64, key := 0, va := 64, fmt := 0, aop := 0, value := 5, unit := 0, iseq := 1 }
def anOpen : GroupOp := { flight := 1, iseq := 1, ctx := 0, who := aTask.who, group := 3, issuer := 1, n := 2, ranges := [(0, 4096)], waiting := [0], units := [0] }

theorem witness_GroupUnits :
    let opening := oneCore { s := { flights := [fl1] }, mem := { opens := [anOpen] } }
    let full := { opening with units := [(0, List.replicate 8 aGroup)] }
    let moving := { oneCore { mem := { transit := [anUpdate] } } with units := [(0, [aGroup])] }
    let closing := { oneCore { s := { flights := [fl1] }, mem := { closes := [anOpen] } } with units := [(0, [{ aGroup with closed := [0] }])] }
    SliceOn moving 0 ∧ (opening.core 0).mem.opens = [anOpen] ∧ 0 ∈ anOpen.waiting ∧ anOpen.dead = false ∧ anOpen.flight = fl1.no ∧ (opening.cluster 0 .S).flights = [] ++ fl1 :: [] ∧
    unitsWith opening 3 0 = [] ∧ (full.unit 0).length = 8 ∧ (opening.unit 0).length < 8 ∧ moving.groupAt 0 3 0 = some aGroup ∧ anUpdate.issuer.toNat < aGroup.n ∧
    inRanges aGroup.range anUpdate.pa (amoWidth anUpdate.fmt) = true ∧ heldIn moving 0 < 16 ∧ (∃ i < anUpdate.issuer.toNat, i ∉ aGroup.closed) ∧
    (∃ m, moving.mem.rmw 0 0 64 8 0 5 0 = some (0, m)) ∧ mayClose (closing.core 0) anOpen = true ∧ closing.unit 0 = [{ aGroup with closed := [0] }] ∧
    (∀ i < 2, i ≠ 1 → i ∈ [0]) ∧ closing.units.Pairwise (fun a b => a.1 < b.1) ∧ closing.cores.Pairwise (fun a b => a.1 < b.1) :=
  ⟨fun _ => ⟨rfl, rfl⟩, rfl, by decide, rfl, rfl, rfl, by decide +kernel, by decide +kernel, by decide +kernel, by decide +kernel, by decide, by decide +kernel, by decide +kernel, by decide,
    ⟨_, by rfl⟩, by decide +kernel, rfl, by decide, by decide +kernel, by decide +kernel⟩

def aRequest (addr : Nat) : RemoteReq :=
  { src := 1, dst := 0, core := 0, tag := 0, sInc := 0, rInc := 0, ctx := 0, addr := addr, op := 0, striped := false, len := 64, aop := 0, key := 0, cls := 0, data := [] }

theorem dies_of_hbm (k : Nat) (h : k < 4) : dieOfPa (0x10000000000 + 12288 * k) % 4 = k := by
  have : k = 0 ∨ k = 1 ∨ k = 2 ∨ k = 3 := by omega
  obtain rfl | rfl | rfl | rfl := this <;> decide +kernel

theorem witness_HomesAnswerRequests :
    let here := Config.ingressDie 1 0 0 % 4
    let r := aRequest (0x10000000000 + 12288 * here)
    let far := aRequest (0x10000000000 + 12288 * ((here + 1) % 4))
    let s := podded {}
    let waiting := { oneCore {} with dies := [(0, { wire := [{ src := 1, no := 1, stamp := Vector.replicate 4 0, req := some r }] })] }
    current s r.src 1 r.rInc = false ∧ current (oneCore {}) r.src r.sInc r.rInc = true ∧ AllOn (oneCore {}) ∧ installed (oneCore {}) 0x48000000 64 = false ∧
    here = dieOfPa r.addr % 4 ∧ here ≠ dieOfPa far.addr % 4 ∧ ¬StreamMate (oneCore {}) r 0 ∧ StreamMate waiting r 1 := by
  intro here r far s waiting
  have h4 : here < 4 := Nat.mod_lt _ (by decide)
  refine ⟨by decide +kernel, by decide +kernel, fun _ => ⟨rfl, rfl⟩, by decide +kernel, (dies_of_hbm here h4).symm, fun h => ?_, fun ⟨_, _, _, _, h, _⟩ => Nat.not_lt_zero _ h,
    0, by decide, _, .head _, by decide, _, rfl, rfl, rfl, rfl⟩
  · have h2 : here = (here + 1) % 4 := h.trans (dies_of_hbm _ (Nat.mod_lt _ (by decide)))
    omega

theorem witness_DieClocksOrderRequests :
    let w : Wire := { src := 1, no := 1, stamp := Vector.replicate 4 0, req := none }
    let r := aRequest 0x10000000000
    let s := { oneCore {} with dies := [(0, { wire := [w] })], sys := { pkgCycle := 64 } }
    let q := { oneCore {} with dies := [(0, { wire := [{ w with req := some r }] })] }
    let early := { oneCore {} with dies := [(0, { wire := [{ w with stamp := #v[0, 0, 1, 0], req := some r }] })] }
    vget 0 (s.die 0).lastSend 1 + 64 ≤ s.sys.pkgCycle.toNat ∧ q.sys.pkgCycle.toNat < vget 0 (q.die 0).lastSend 1 + 64 ∧ (s.die 0).wire = [] ++ w :: [] ∧
    (q.die 0).mayApply 0 { w with req := some r } = true ∧ (early.die 0).mayApply 0 { w with stamp := #v[0, 0, 1, 0], req := some r } = false ∧ AllOn q ∧ ¬StreamMate q r w.came ∧
    homeStatus q r.striped r.addr r.len r.key = 0 ∧ q.mem.read r.ctx r.key r.addr r.len = some zeros64 :=
  ⟨by decide +kernel, by decide +kernel, rfl, by decide +kernel, by decide +kernel, fun _ => ⟨rfl, rfl⟩, fun ⟨_, _, _, _, h, _⟩ => Nat.not_lt_zero _ h,
    by decide +kernel, by decide +kernel⟩

theorem witness_RemoteOperationsEnd :
    let op : RemoteOp := { tag := 0, cl := .S, flight := 1, iseq := 1, home := 1, cls := 0, va := 0, op := 2, off := 0, len := 8, dest := some 3, deadline := 9, ctx := 0, who := aTask.who,
                           base := 0 }
    let s := oneCore { s := { flights := [fl1] }, mem := { remote := [op] } }
    let load := { op with cl := .L, op := 0, queue := some 0 }
    let e : QEntry := { data := 0, src := 1, fill := .awaiting }
    let l := oneCore { l := { flights := [fl1] }, mem := { remote := [load] }, queues := queueOf 0 { chip := [e] } }
    (s.core 0).mem.remote = [op] ∧ InFlightAs s 0 .S 1 fl1 [] [] ∧ InFlightAs l 0 .L 1 fl1 [] [] ∧ ((l.core 0).queue 0).chip = [] ++ e :: [] ∧ e.src = load.flight ∧
    ((l.core 0).queue 0).ring = [] ∧ current s 1 0 0 = true ∧ current s 1 1 0 = false ∧ s.fab.resend = [] ∧ op.dead = false ∧ s.sys.pkgCycle.toNat < op.deadline ∧
    (∀ x ∈ s.bays, x.2.jobs = []) :=
  ⟨rfl, ⟨rfl, rfl, rfl, fun g h => absurd h List.not_mem_nil⟩, ⟨rfl, rfl, rfl, fun g h => absurd h List.not_mem_nil⟩, by decide +kernel, rfl, by decide +kernel,
    by decide +kernel, by decide +kernel, rfl, rfl, by decide, fun x h => absurd h List.not_mem_nil⟩

/-- An update that finds 16 held at its unit, those of another group. -/
def crowded (g : Group) : State :=
  { oneCore { mem := { transit := [anUpdate] } } with units := [(0, [g, { aGroup with id := 9, held := List.replicate 16 anUpdate }])] }

theorem noMatches_of {s : State} (us : List Update) (h : ∀ k ∈ us, (s.cluster k.core .S).flights.all (fun f => f.watch.isNone) = true) : NoMatches s us :=
  fun y m f hf _ => Option.isNone_iff_eq_none.mp (List.all_eq_true.mp (h y m) f hf)

theorem witness_GroupUnits_ordered :
    let none_ := crowded aGroup
    let all := crowded { aGroup with closed := [0] }
    16 ≤ heldIn none_ 0 ∧ none_.groupAt 0 3 0 = some aGroup ∧ (∃ i < anUpdate.issuer.toNat, i ∉ aGroup.closed) ∧ NoMatches none_ [] ∧ Applies none_.mem [] none_.mem ∧
    16 ≤ heldIn all 0 ∧ all.groupAt 0 3 0 = some { aGroup with closed := [0] } ∧ (∀ i < anUpdate.issuer.toNat, i ∈ [0]) ∧ NoMatches all [anUpdate] ∧
    ∃ m, Applies all.mem ([] ++ [anUpdate]) m := by
  refine ⟨by decide +kernel, by decide +kernel, by decide, noMatches_of _ (by decide), rfl, by decide +kernel, by decide +kernel, by decide,
    noMatches_of _ (by decide +kernel), ?_⟩
  exact ⟨_, _, _, rfl, rfl⟩

theorem witness_GroupUnits_closes :
    let s := { oneCore { s := { flights := [fl1] }, mem := { closes := [anOpen] } } with units := [(0, [{ aGroup with closed := [0], held := [anUpdate] }])] }
    let g : Group := { aGroup with ordered := true, held := [{ anUpdate with core := 4 }] }
    (∀ y ∈ (s.unit 0).flatMap Group.held, y.issuer.toNat < aGroup.n) ∧ NoMatches s [anUpdate] ∧ (∃ m, Applies s.mem [anUpdate] m) ∧
    (∃ i < g.n, i ≠ 0 ∧ i ∉ g.closed) ∧ g.held.filter (lowerDone (setIns g.closed 0)) = g.held ∧ ∃ m, Applies s.mem g.held m := by
  refine ⟨by decide +kernel, noMatches_of _ (by decide +kernel), ⟨_, _, _, rfl, rfl⟩, by decide, by decide +kernel, ?_⟩
  exact ⟨_, _, _, rfl, rfl⟩

theorem witness_DieClocks_tile :
    let w : Wire := { src := 1, no := 1, stamp := #v[0, 0, 5, 0], req := none,
                      tile := some { src := 1, tag := 0, sInc := 0, rInc := 0, ctx := 0, group := 2, op := 0, flagged := false, isPrefix := false, place := true, idx := 0, dst := 4096,
                                     mask := 3, ilen := 1, olen := 1, tile := [] } }
    let s := { oneCore {} with dies := [(0, { wire := [w] })] }
    (s.die 0).wire = [] ++ w :: [] ∧ w.req = none ∧ w.tile ≠ none ∧ (s.die 0).mayApply 0 w = false := ⟨rfl, rfl, nofun, by decide +kernel⟩

/-! ## Witnesses: collectives, the link, the network -/

/-- A collective card: sums of 16 elements, in group 2, of packages 0 and 1. -/
def collCard : List W64 := w64s [3 * 2 ^ 60, 0, 4096, 2 * 2 ^ 48 + 2 ^ 21 + 1, 0, 0, 0, 0]
def tileRun : Run := { va := 4096, len := 64, pa := 4096, key := 0, fmt := 1, geo := 0 }
def collJob_ : Job := { aJob with card := collCard, mask := 3, started := true, writes := [{ base := 4096, len := 64, runs := [tileRun] }] }
def aTile : Contrib :=
  { src := 1, tag := 0, sInc := 0, rInc := 0, ctx := 0, group := 2, op := 0, flagged := false, isPrefix := false, place := false, idx := 0, dst := 4096, mask := 3, ilen := 1, olen := 1,
    tile := List.replicate 16 0x3F800000 }

theorem witness_ContributionsFold :
    let s := oneCore {}
    let start : Comb := { die := 0, ctx := 0, group := 2, dst := 4096, k := 0, acc := [], first := aTile }
    let e := { start with k := 1, acc := aTile.tile }
    let held := { s with fab := { combs := [e] } }
    let gone := { s with fab := { abortedHere := [(0, 2)] } }
    let busy := { s with bays := [(0, { jobs := [collJob_] })] }
    let asleep := { s with bays := [(0, { power := .off })] }
    (awakeAll asleep aTile.dst 64).isOk = false ∧ aTile.isPrefix = false ∧ current s aTile.src aTile.sInc aTile.rInc = true ∧ current s 1 1 0 = false ∧ (aTile.ctx, aTile.group) ∉ s.fab.abortedHere ∧ (aTile.ctx, aTile.group) ∈ gone.fab.abortedHere ∧
    aTile.src ≠ selfPkg s ∧ collJobs s 0 2 = [] ∧ keyOf aTile ∉ s.fab.flaggedKeys ∧ combAt s aTile = none ∧ start ∉ s.fab.combs ∧ dieOfPa aTile.dst = 0 ∧ maskCount aTile.mask = 2 ∧
    held.fab.combs = [] ++ e :: [] ∧ combAt held aTile = some e ∧ e.k + 1 = maskCount e.first.mask ∧ collJobs busy 0 2 = [(0, collJob_)] ∧ agrees collJob_ aTile = true ∧
    tileAt collJob_ aTile.dst = some (0, tileRun) ∧ busy.job? 0 collJob_.seq = some collJob_ ∧ Map.get 0 collJob_.folded 0 = 0 ∧
    busy.mem.read 0 (tileKey collJob_ 0) (tilePa collJob_ 0) 64 = some zeros64 := by decide +kernel

theorem witness_ContributionsFold_on : AllOn (oneCore {}) ∧ AllOn { oneCore {} with bays := [(0, { jobs := [collJob_] })] } := by
  refine ⟨fun _ => ⟨rfl, rfl⟩, fun b => ?_⟩
  by_cases h : b = 0
  · subst h; exact ⟨rfl, rfl⟩
  · simp [State.bay, Map.get, Map.find?, Ne.symm h]

theorem witness_CollectivesAbort :
    let s := { oneCore { l := { flights := [fl1] } } with bays := [(0, { jobs := [collJob_] })], fab := { aborting := [(0, 5, [1, 2])] } }
    collJobs s 0 5 = [] ∧ collJobs s 0 2 = [(0, collJob_)] ∧ s.job? 0 collJob_.seq = some collJob_ ∧ cardKind collJob_.card = 3 ∧ cardWord collJob_.card 0 / 2 ^ 57 % 2 = 0 ∧
    JobFlight s 0 collJob_ fl1 [] [] ∧ s.fab.aborting = [] ++ (0, 5, [1, 2]) :: [] :=
  ⟨by decide +kernel, by decide +kernel, by decide +kernel, by decide, by decide, ⟨rfl, rfl, rfl, rfl, rfl, fun g h => absurd h List.not_mem_nil⟩, rfl⟩

def flitOf (pos seq : Nat) : BitVec 1024 := sealFlit (BitVec.ofNat 1024 (flitHead 1 pos 0 0 false false)) seq 0 false
def linked (p : Port) : State := { oneCore {} with fab := { ports := [(0, p)] } }

theorem witness_PortsSend :
    let s := linked { up := true, control := [flitOf 0 0] }
    let r := linked { up := true, resend := [flitOf 0 0] }
    let o := linked { up := true, out := #v[[], [{ flits := [flitOf 1 0] }], []], retry := [flitOf 1 7] }
    let b := linked { up := true, noBulk := 15, quiet := 32, out := #v[[{ flits := [flitOf 1 0] }], [], [{ flits := [flitOf 1 0] }]] }
    (s.port 0).up = true ∧ (s.port 1).up = false ∧ (s.port 0).control = flitOf 0 0 :: [] ∧ (r.port 0).control = [] ∧ (r.port 0).resend = flitOf 0 0 :: [] ∧
    (linked { up := true, retry := List.replicate 64 0 }).fab.ports ≠ [] ∧ (o.port 0).retry.length < 64 ∧ vget [] (o.port 0).out 1 = { flits := flitOf 1 0 :: [] } :: [] ∧
    (o.port 0).noBulk < 15 ∧ (∀ j, 1 < j → j < 3 → vget [] (o.port 0).out j = []) ∧ 15 ≤ (b.port 0).noBulk ∧ vget [] (b.port 0).out 0 = { flits := flitOf 1 0 :: [] } :: [] ∧
    32 ≤ (b.port 0).quiet ∧ (o.port 0).quiet < 32 ∧ (o.port 0).retry = [] ++ flitOf 1 7 :: [] ∧ flitSeq (flitOf 1 7) = 7 := by
  refine ⟨rfl, rfl, rfl, rfl, rfl, by simp [linked], by decide, rfl, by decide, ?_, by decide, rfl, by decide, by decide, rfl, by decide +kernel⟩
  intro j h1 h3
  obtain rfl : j = 2 := by omega
  rfl

theorem witness_PortsReceive :
    let up := linked { up := true }
    let asked := linked { up := true, damaged := some (0, 1, []), reqTime := 128 }
    let twice := linked { up := true, damaged := some (0, 2, []), replays := 2 }
    (linked {}).port 0 = {} ∧ (up.port 0).damaged = none ∧ crcOk (flitOf 1 0) = true ∧ flitClass (flitOf 1 0) = 1 ∧ flitAv (flitOf 1 0) = false ∧ flitCirc (flitOf 1 0) = false ∧
    flitSeq (flitOf 1 0) = (up.port 0).expect.toNat ∧ flitSeq (flitOf 1 9) ≠ (up.port 0).expect.toNat ∧ flitPos (flitOf 1 0) = 1 ∧ vget [] (up.port 0).slots 1 = [] ∧
    recover 0 (trailerSymbols 0) = none ∧ (asked.port 0).damaged = some (0, (1 : BitVec 2).toNat, []) ∧ recover 0 (elemsOf 10 8 0) = none ∧ 128 ≤ (asked.port 0).reqTime ∧
    (twice.port 0).damaged = some (0, (2 : BitVec 2).toNat, []) ∧ 2 ≤ (twice.port 0).replays ∧ (up.port 0).reqTime < 128 := by decide +kernel

/-- An answer to package 0 in one flit. -/
def anAnswer : RemoteResp := { src := 1, dst := 0, core := 0, tag := 3, sInc := 0, rInc := 0, ctx := 0, status := 0, data := [] }
def answerFlit : BitVec 1024 := sealFlit (((flitsOf 1 false ((Packet.response anAnswer).payload 0))).headD 0) 0 0 false

theorem witness_PortsReceive_packet :
    crcOk answerFlit = true ∧ flitPos answerFlit = 3 ∧ flitSeq answerFlit = 0 ∧ flitClass answerFlit = 1 ∧
    (wholePacket [answerFlit]).bind packetOf = some (selfPkg (oneCore {}), .response anAnswer) := by decide +kernel

theorem witness_PortsTrainAndFall :
    let up := linked { up := true }
    let fab : Fabric := { podCfg := 0x0001000000000001, ports := [(0, { neighbour := 2 })], peer := (Vector.replicate 64 (0 : W64)).setIfInBounds 1 0x0002000000000001 }
    let s := { oneCore {} with fab := fab, sys := { pkgCycle := 1050000 } }
    let all := { s with fab := { fab with ports := (List.range 24).map fun j => (j, { training := decide (j = 0) }) } }
    let between := { s with fab := { fab with ports := [(25, { neighbour := 1 })] } }
    (between.port 25).up = false ∧ (between.port 25).neighbour = 1 ∧ (1 : W16) = selfInc between ∧ (25 - 24) / 4 ≠ (25 - 24) % 4 ∧
    (up.port 0).up = true ∧ (s.port 0).up = false ∧ selfInc s ≠ 0 ∧ neighbourOf (selfPkg s) 0 = 1 ∧ (s.port 0).neighbour = 2 ∧ peerWord s 1 = (2 : W16).toNat * 2 ^ 48 + 1 ∧
    (s.port 0).neighbour ≠ (3 : W16) ∧ Idle s ∧ (s.port 0).training = true ∧ (s.port 0).since + 1050000 ≤ s.sys.pkgCycle.toNat ∧
    (∀ k < 64, k ≠ selfPkg (oneCore {}) → peerWord (oneCore {}) k % 4 ≠ 1) ∧ (∀ j < 24, j ≠ 0 → (all.port j).isDown = true) ∧ (all.port 0).training = true ∧
    peerWord all 1 % 4 = 1 ∧ (oneCore {}).sys.pkgCycle.toNat < 0 + 1050000 := by
  refine ⟨rfl, rfl, by decide +kernel, by decide, rfl, rfl, by decide +kernel, by decide +kernel, rfl, by decide +kernel, by decide, ⟨by decide +kernel, fun e h => absurd h List.not_mem_nil⟩, rfl, by decide +kernel,
    by decide +kernel, by decide +kernel, rfl, by decide +kernel, by decide +kernel⟩

def aDesc : UeDesc :=
  { recv := true, slot := 0, words := w64s [2 * 2 ^ 32 + 64, 0, 5, 4096], core := 0, ctx := 0, who := aTask.who, iseq := 1, word := 0, sv := false, base := 0 }
def anEndpoint (d : UeDesc) : Endpoint := { ctx := 0, sendVa := 0, sendSlots := 1, recvVa := 4096, recvSlots := 1, peerVa := 8192, peers := 4, descs := [d] }

theorem written {s : State} {ctx : W16} {path : Path} {va : Nat} {bs : List Byte} {ps : List Piece} {v : Unit}
    (h : translateRange s ctx false path anyFmt va bs.length = .ok ps) (hv : checkWrite s ctx ps = .ok v) :
    ∃ m, s.vaPost ctx path va bs = s.withMem m :=
  ⟨writePieces s.mem ctx ps bs, by unfold State.vaPost; simp only [h, hv]⟩

theorem witness_NetworkEngine :
    let e := anEndpoint aDesc
    let s := { paged {} with fab := { endpoints := [(1, e)] } }
    let full := anEndpoint { aDesc with total := some 0 }
    let send := anEndpoint { aDesc with recv := false }
    s.endpoint? 1 = some e ∧ 2 < e.peers ∧ Awaits aDesc 2 (some 5) 0 ∧ Awaits aDesc 2 none 0 ∧ ¬ Awaits aDesc 2 (some 6) 0 ∧ 4096 * 0 + 1 ≤ (aDesc.words.getD 0 0).toNat % 2 ^ 32 ∧
    e.descs = [] ++ aDesc :: [] ∧ e.destroying = none ∧ full.descs = [] ++ { aDesc with total := some 0 } :: [] ∧ send.descs = [] ++ { aDesc with recv := false } :: [] ∧
    ({ aDesc with total := some 0 } : UeDesc).total = some aDesc.got.length ∧ aDesc.total ≠ some aDesc.got.length ∧ aDesc.unacked = [] ∧
    (aDesc.words.getD 1 0).toNat + 4096 * 0 = 0 := by
  refine ⟨rfl, by decide, ⟨rfl, by decide, by decide, by decide +kernel, ?_⟩, ⟨rfl, by decide, by decide, by decide +kernel, nofun⟩, fun h => ?_, by decide +kernel, rfl, rfl, rfl,
    rfl, by decide, by decide, rfl, by decide +kernel⟩
  · intro v hv
    obtain rfl := Option.some.inj hv
    decide +kernel
  · exact absurd (h.2.2.2.2 6 rfl) (by decide +kernel)

theorem network_write : isOk ((translateRange (paged {}) 0 false .jobWrite anyFmt 0 1).bind (checkWrite (paged {}) 0)) = true := by decide +kernel

theorem witness_NetworkEngine_write : ∃ m, (paged {}).vaPost 0 .jobWrite 0 [7] = (paged {}).withMem m := by
  obtain ⟨ps, v, h, hv⟩ := ex_bind network_write
  exact written (bs := [7]) (va := 0) (path := .jobWrite) (ctx := 0) h hv

theorem witness_ContributionsFold_crosses :
    let to_ := fun (k : Nat) => { aTile with place := true, dst := 0x10000000000 + 12288 * k }
    ∃ k, current (oneCore {}) (to_ k).src (to_ k).sInc (to_ k).rInc = true ∧ ¬((to_ k).place = false ∨ Config.ingressDie (to_ k).src 0 0 % 4 = dieOfPa (to_ k).dst % 4) := by
  refine ⟨(Config.ingressDie 1 0 0 % 4 + 1) % 4, by decide +kernel, fun h => ?_⟩
  obtain h | h := h
  · cases h
  · have h2 := h.trans (dies_of_hbm ((Config.ingressDie 1 0 0 % 4 + 1) % 4) (Nat.mod_lt _ (by decide)))
    have h3 : (aTile.src = 1) := rfl
    simp only [h3] at h2
    omega

theorem witness_ContributionsFold_prefix :
    let p := { aTile with isPrefix := true }
    p.isPrefix = true ∧ p.idx < maskCount collJob_.mask ∧ Map.get 0 collJob_.folded 0 = 0 ∧ Map.get 0 { collJob_ with folded := [(0, 1)] }.folded 0 ≠ 0 := by decide +kernel

/-- A control flit of CTYPE 4, which is reserved. -/
def reservedControl : BitVec 1024 := sealFlit (controlFlit 4 0 0 0) 0 0 false

theorem witness_PortsReceive_reserved : crcOk reservedControl = true ∧ flitClass reservedControl = 3 ∧ 3 < flitByte reservedControl 4 % 16 := by decide +kernel

/-! ## Witnesses: callboards, kills, parking; translations and migrations -/

def callbackWords : List Nat := [3 * 2 ^ 49, 0, 0, 0, 0, 0, 0, 0, 0, 0, 0, 0, 77, 0, 0, 0]
def boarded : State :=
  { paged {} with scopes := alive, mem := tables.setBytes 4096 (words callbackWords), graphs := [(0, { aGraph with nodes := [(0, { scope := some 1 })] })] }
def readyNode : NodeSt := { status := 1, scope := some 1, words := w64s callbackWords, slot := true }
def oneLoop : List W64 := w64s [2 ^ 59, 0, 9, 32, 0, 4 * 2 ^ 16 + 2, 0, 0]

theorem witness_CallboardsHandOutWork :
    let s := { boarded with dies := [(0, { creations := [(0, 0)] })] }
    let q := { boarded with dies := [(0, { ready := [(0, 0)] })], graphs := [(0, { aGraph with nodes := [(0, { readyNode with slot := false })] })] }
    let r := { q with graphs := [(0, { aGraph with nodes := [(0, readyNode)] })] }
    let n := { aNest with desc := oneLoop }
    let m := { boarded with graphs := [], nests := [(3, n)] }
    let s0 := s.putDie 0 { s.die 0 with creations := [] }
    s.blocked = none ∧ s.sys.refused = [] ∧ r.blocked = none ∧ r.sys.refused = [] ∧ m.blocked = none ∧ m.sys.refused = [] ∧ s0.reap.freeScope 0 = some 0 ∧
    (r.putStatus 0 0 2).blocked = none ∧ (s.die 0).creations = (0, 0) :: [] ∧ (s.node 0 0).status = 0 ∧ aGraph.settled = none ∧ s.reap.freeScope 0 = some 0 ∧
    nodeMalformed 0 (w64s callbackWords) = false ∧ nodeKind (wordAt (w64s callbackWords) 0) = 3 ∧ nodeAudit (wordAt (w64s callbackWords) 0) = false ∧
    (q.die 0).ready = [] ++ (0, 0) :: [] ∧ (q.node 0 0).status = 1 ∧ (q.node 0 0).slot = false ∧ slotsUsed q 0 < 4096 ∧ (readyWork r 0 == [(0, 0, .node 0 0)]) = true ∧
    nodeOpen r 0 0 = true ∧ (readyWork m 0 == [(0, 0, .nest 3)]) = true ∧ nestOpen m n = true ∧ n.capFree = true ∧ podMember m n (nestTask m n 3) = true ∧ n.requeued = [] ∧ n.queued.length < 8192 ∧ n.queued.headD (nestTask m n 3) = nestTask m n 3 ∧ n.next < n.total ∧
   
    freeCore m n.domain n.anchor n.lastCore none = some 0 ∧ (nestTask m n 3).audit = false ∧ (oneLoop.getD 0 0).extractLsb' 53 6 = 0 ∧ nestLoops oneLoop ≤ 4 ∧
    (∀ i < 4, 0 < nestExtent oneLoop i) := by decide +kernel

theorem witness_CallboardsHandOutWork_record : boarded.vaWords 0 4096 16 = .ok (w64s callbackWords) := of_ok (by decide +kernel)

theorem witness_CallboardsHandOutWork_fires :
    let s0 := boarded.putDie 0 { boarded.die 0 with creations := [] }
    ((s0.reap.putScope 0 { ctx := 0, parent := some 1, curtain := some (nodeCurtain aGraph 0) }).readyNode 0 0 0 (w64s callbackWords) []).blocked = none := by
  decide +kernel

theorem quiet_one {c : Core} {sc : List (Nat × Scope)} {m : Memory} {y : Sys} (h : c.mem.drops = [] ∧ c.sys.prefetch = [] ∧ c.mem.remote = [] ∧ c.mem.transit = [] ∧
    c.mem.refused = [] ∧ c.mem.opens = [] ∧ c.mem.closes = []) : Quiet { oneCore c with scopes := sc, mem := m, sys := y } :=
  ⟨rfl, rfl, nofun, nofun, fun e m => by obtain rfl := List.mem_singleton.mp m; exact h⟩

theorem witness_KillsEndInACurtain :
    let sc : Scope := { ctx := 0, parent := none }
    let dead := { sc with killing := true, curtain := some 4096 }
    let s := { paged {} with scopes := [(1, sc)] }
    let run := { paged tasked with scopes := [(1, dead)] }
    let begun := { paged { tasked with c := { iseq := 1 } } with scopes := [(1, dead)] }
    let spent := { paged {} with scopes := [(1, dead)] }
    let wait := { oneCore { sys := { prefetch := [aTask] } } with scopes := [(1, sc)] }
    Unheld s ∧ Unheld run ∧ Unheld wait ∧ Unheld spent ∧ Quiet s ∧ Quiet run ∧ Quiet begun ∧ Quiet spent ∧ s.scopes = [((1 : W16).toNat, sc)] ∧ sc.killing = false ∧ sc.written = false ∧
    sc.parent = none ∧ (wait.core 0).sys.prefetch = [aTask] ∧ aTask.scope = 1 ∧ (run.core 0).sys.task = some aTask ∧ run.dying aTask.scope = true ∧
    s.dying aTask.scope = false ∧ (run.core 0).mem.drops = [] ∧ (run.core 0).cmds = [] ∧ NoLease run 0 ∧ NoReceives run aTask ∧ (run.core 0).debugPending = 0 ∧
    (run.core 0).mem.weirs = [] ∧ (run.core 0).mem.parts = [] ∧ aTask.saved = [] ∧ (∀ cl, (run.cluster 0 cl).iseq = 0) ∧ (begun.cluster 0 .C).iseq ≠ 0 ∧
    (∀ e ∈ spent.cores, e.2.sys.task = none) ∧ dead.curtain = some 4096 :=
  ⟨⟨rfl, rfl⟩, ⟨rfl, rfl⟩, ⟨rfl, rfl⟩, ⟨rfl, rfl⟩, quiet_one (by decide), quiet_one (by decide), quiet_one (by decide), quiet_one (by decide), rfl, rfl, rfl, rfl, rfl, rfl, rfl,
    by decide +kernel, by decide +kernel, rfl, rfl, ⟨rfl, rfl, by decide +kernel⟩, nofun, rfl, rfl, rfl, rfl, fun cl => by cases cl <;> rfl, by decide,
    by decide +kernel, rfl⟩

theorem witness_KillsEndInACurtain_written :
    let dead : Scope := { ctx := 0, parent := none, killing := true, curtain := some 4096 }
    (({ paged {} with scopes := [(1, dead)] } : State).vaWrite 0 (.store 8) 4096 (bytesOf 64 (joinNat 64 (curtain 1 dead 0)))).blocked = none := by decide +kernel

theorem witness_FrameAndDeadlines :
    let n := { readyNode with words := w64s [0, 0, 0, 5, 7], lastTick := 1 }
    let s := { oneCore {} with graphs := [(0, { aGraph with det := true, nodes := [(0, n)] })], dies := [(0, { ageLimit := 4 })], sys := { frame := 9, pkgCycle := 256 } }
    let late := { s with graphs := [(0, { aGraph with det := true, nodes := [(0, { n with late := true })] })], sys := { s.sys with late := [(0, 0)] } }
    s.graph? 0 = some { aGraph with det := true, nodes := [(0, n)] } ∧ (s.node 0 0).status = 1 ∧ (s.die 0).ageLimit.toNat ≠ 0 ∧ (s.node 0 0).raised < 2 ∧
    (s.node 0 0).lastTick + (s.die 0).ageLimit.toNat ≤ s.sys.frame.toNat ∧ (s.node 0 0).released = false ∧ (s.node 0 0).w 3 ≤ s.sys.frame.toNat ∧ (oneCore {}).graphs = [] ∧
    (oneCore {}).sys.late = [] ∧ 256 * (s.sys.ticks + 1) ≤ s.sys.pkgCycle.toNat ∧ (oneCore {}).sys.pkgCycle.toNat < 256 * ((oneCore {}).sys.ticks + 1) ∧ n.w 4 = 7 ∧
    n.late = false ∧ s.sys.late = [] ∧ late.sys.late = [(0, 0)] ∧ 256 * (late.sys.ticks + 1) ≤ late.sys.pkgCycle.toNat := by decide +kernel

theorem witness_GraphsPark :
    let node := { readyNode with waitFrom := some 0 }
    let t := { aTask with graph := 1 }
    let s := { oneCore { sys := { task := some t } } with scopes := alive, graphs := [(0, { aGraph with nodes := [(0, node)] }), (1, aGraph)],
                                                            nests := [(3, { aNest with desc := oneLoop, owner := some (0, 0), prio := 2, domain := 0 })], sys := { pkgCycle := 256 } }
    let p := { oneCore {} with graphs := [(0, { aGraph with parking := true })] }
    let b := { oneCore {} with graphs := [(0, { aGraph with parked := true, byCallboard := true, quiet := some 0 })], sys := { pkgCycle := 256 } }
    p.blocked = none ∧ p.sys.refused = [] ∧ b.blocked = none ∧ b.sys.refused = [] ∧ (b.unpark 0).blocked = none ∧
    ((p.putGraph 0 { aGraph with parked := true }).putGstat 0 5).blocked = none ∧ parkVictim s 0 = some 1 ∧ parkVictim (oneCore {}) 0 = none ∧ s.graph? 1 = some aGraph ∧ aGraph.settled = none ∧ aGraph.parking = false ∧ aGraph.parked = false ∧
    p.graph? 0 = some { aGraph with parking := true } ∧ graphRuns p 0 = false ∧ graphRuns s 1 = true ∧ unparkOk b { aGraph with parked := true, byCallboard := true, quiet := some 0 } = true ∧
    unparkOk { b with bays := [(0, { logicOn := false })] } aGraph = false ∧ 0 + 256 ≤ b.sys.pkgCycle.toNat := by decide +kernel

theorem witness_InvalidationsAndSweeps :
    let r : Xinv := { kind := 0, ctx := 0, vpn := 1 }
    let s := oneCore {}
    let q := { s with sys := { xinvFifo := [r], xinvHeld := [r] } }
    let full := { s with sys := { xinvFifo := List.replicate 8 r, xinvHeld := [r] } }
    let sw := { s with dies := [(0, { sweepFifo := [5], sweepHeld := [5] })] }
    s.sys.xinvFifo.length < 8 ∧ s.sys.xinvHeld = [] ∧ full.sys.xinvFifo.length = 8 ∧ q.sys.xinvHeld = r :: [] ∧ q.sys.xinvFifo = r :: [] ∧ r.waits q = false ∧
    (s.die 0).sweepFifo.length < 4 ∧ (s.die 0).sweepHeld = [] ∧ ({ s with dies := [(0, { sweepFifo := [1, 2, 3, 4] })] } : State).die 0 = { sweepFifo := [1, 2, 3, 4] } ∧
    (sw.die 0).sweepHeld = 5 :: [] ∧ (sw.die 0).sweepFifo = 5 :: [] ∧ (5 : W16) ≠ 0 ∧ s.mem.wf = true ∧ s.mem.tags.Pairwise (fun a b => a.1 < b.1) := by decide +kernel

theorem witness_PagesMigrate :
    let f : Flip := { ctx := 0, base := 0x40000000, sz := 10, pa := 0 }
    let s := { paged { sys := { task := some aTask }, k := { stall := some (0, 0x40000000, 0x40000008) } } with sys := { ctxTable := 0x10000000000, flips := [f] } }
    let g := { s with sys := { s.sys with flips := [{ f with replied := true }] } }
    let h := { paged {} with sys := { ctxTable := 0x10000000000, flips := [{ f with replied := true, toHost := true }] } }
    s.sys.flips = [] ++ f :: [] ∧ f.replied = false ∧ f.toHost = false ∧ f.late = false ∧ s.sys.xinvFifo.length < 8 ∧ s.sys.xinvHeld = [] ∧ s.bays = [] ∧
    (s.core 0).k.stall = some (f.ctx, f.base.toNat, 0x40000008) ∧ (s.core 0).sys.task.isSome = true ∧ (s.core 0).sys.stop = none ∧ (s.core 0).k.stopped = none ∧
    g.sys.flips = [] ++ { f with replied := true } :: [] ∧ (∀ x ∈ g.sys.xinvFifo ++ g.sys.xinvHeld, x.ctx ≠ f.ctx) ∧ g.sys.heldWrites = [] ∧
    h.sys.flips = [] ++ { f with replied := true, toHost := true } :: [] ∧ (1 : W32) = h.host.lastDown + 1 ∧ mayReclaim (paged {}) 0 0x40000000 10 = true ∧
    mayReclaim (paged {}) 0 0x40000000 9 = false ∧ (∃ x ∈ s.sys.flips, x.ctx = 0 ∧ x.base = 0x40000000 ∧ x.late = false) ∧ (∀ x ∈ (paged {}).sys.flips, x.ctx ≠ 0) := by
  decide +kernel

theorem witness_PagesMigrate_idle : NothingStalled (paged {}) := by
  refine ⟨fun e h cl => ?_, rfl, nofun⟩
  obtain rfl : e = (0, {}) := List.mem_singleton.mp h
  cases cl <;> rfl

theorem witness_CallboardsHandOutWork_turns :
    let ws : List (Nat × Nat × Work) := [(1, 2, .nest 3), (2, 2, .nest 4), (3, 3, .nest 5), (2, 3, .nest 6)]
    (pickWork ((Vector.replicate 4 0).setIfInBounds 3 2) ws == some (3, 3, .nest 5)) = true ∧ (pickWork ((Vector.replicate 4 0).setIfInBounds 3 3) ws == some (2, 3, .nest 6)) = true := by
  decide +kernel

/-- A node past its DEADLINE, in a graph whose fault queue has four places at 512. -/
def lateNode : NodeSt := { readyNode with words := w64s [0, 0, 0, 5, 7], lastTick := 1 }
def lateGraph (n : NodeSt) : Graph := { aGraph with det := true, nodes := [(0, n)], words := w64s [0, 0, 512, 4 * 2 ^ 32, 0, 0, 0, 0] }

theorem witness_FrameAndDeadlines_slip :
    let s := { boarded with graphs := [(0, lateGraph lateNode)], sys := { boarded.sys with frame := 9, pkgCycle := 256 } }
    let late := { lateNode with late := true, owes := false }
    let m := (s.putNode 0 0 late).withSys { s.sys with late := [(0, 0)] }
    let entry := [0 % 4096 * 2 ^ 52 + 1 * 2 ^ 48 + Cause.timetableSlip.code * 2 ^ 40, 0, 0 * 2 ^ 53, s.sys.frame.toNat]
    Unheld s ∧ lateNode.owed = 0 ∧ lateNode.owes = false ∧ m.vaWords 0 (4096 + 24) 1 = .ok [0] ∧
    ((m.vaWrite 0 (.store 8) 512 (bytesOf 32 (joinNat 64 entry))).vaStore 0 (4096 + 24) 8 1).blocked = none ∧
    ((({ m with graphs := [(0, lateGraph late)] } : State).withSys { s.sys with ticks := s.sys.ticks + 1 }).vaModify 0 (aGraph.nodeVa 0 + 88)
      fun w => w / 2 ^ 32 * 2 ^ 32 + (w % 2 ^ 32 + 1) % 2 ^ 32).blocked = none :=
  ⟨⟨rfl, rfl⟩, rfl, rfl, of_ok (by decide +kernel), by decide +kernel, by decide +kernel⟩

/-! ## Witnesses: storage, the host, the package -/

theorem witness_SlotTablesSwap :
    let armed := { oneCore {} with routers := [(0, { ctl := 5 })] }
    let bad := { oneCore {} with routers := [(0, { ctl := 4, table := [(256, 8)] })] }
    let circuit := { aJob with started := true, card := w64s [2 ^ 57, 0, 4096, 64, 0, 0, 0, 0] }
    let busy := { oneCore {} with routers := [(0, { ctl := 1, table := [(7, 0xC)] })], bays := [(0, { jobs := [circuit] })] }
    (armed.die 0).slotSwap.toNat ≤ armed.sys.pkgCycle.toNat ∧ armed.sys.pkgCycle.toNat % 256 = 0 ∧ (routerAt armed 0).ctl.getLsbD 2 = true ∧
    (routerAt armed 0).table = [] ∧ (routerAt bad 0).ctl.getLsbD 2 = true ∧ outputValid 8 0 = true ∧ outputFrom 8 0 = 0 ∧
    ({ oneCore {} with sys := { pkgCycle := 5 } } : State).sys.pkgCycle.toNat % 256 ≠ 0 ∧ (routerAt (oneCore {}) 0).ctl.getLsbD 0 = false ∧
    (∃ j ∈ (busy.bay 0).jobs, j.started = true ∧ j.circuit = true) ∧ (oneCore {}).bays = [] ∧ (routerAt busy 0).ctl.getLsbD 0 = true ∧ (routerAt busy 0).bad = [] ∧ outputValid (Map.get 0 (routerAt busy 0).table 7).toNat 0 = true ∧
    outputFrom (Map.get 0 (routerAt busy 0).table 7).toNat 0 = 4 := by decide +kernel

theorem witness_SlotTablesSwap_valid : StagedValid 0 { ctl := 5 } ∧ ¬StagedValid 0 { ctl := 4, table := [(256, 8)] } := by
  refine ⟨fun k _ o ho h => ?_, fun h => ?_⟩
  · rw [show (Map.get (0 : W32) ({ ctl := 5 } : Router).table ((if ({ ctl := 5 } : Router).ctl.getLsbD 1 then 0 else 1) * 256 + k)) = 0 from rfl] at h
    simp [outputValid] at h
  · have := (h 0 (by decide) 0 (by decide) (by decide +kernel)).2.1
    exact this (by decide +kernel)

/-- The tables under context 16 too, whose root scope is 1. -/
def current16 : State :=
  { paged {} with mem := (tables.setBytes 0x10000010000 (bytesOf 8 (1 + 2 ^ 20))).setBytes 0x10000010800 (bytesOf 8 0x10000001001),
                  sys := { ctxTable := 0x10000000001 }, scopes := [(1, { ctx := 16, parent := none })] }

theorem witness_ScrubbersReport_owner :
    let s := { current16 with mem := { current16.mem with tags := [(64, 16)] } }
    Map.get 0 s.mem.tags (lineOf 64) = 16 ∧ rootScope s 16 = 1 ∧ currentCtx s 16 = true ∧ s.scope? 1 = some { ctx := 16, parent := none } ∧ (64 : Nat) < Config.sliceEnd ∧
    lineOf 64 ∉ s.mem.damaged ∧ lineOf 64 ∉ s.mem.orphan ∧ lineOf 64 ∉ s.mem.tagLost ∧ lineOf 64 ∈ ({ damaged := [64] } : Memory).damaged := by decide +kernel

theorem witness_ScrubbersReport :
    let off := { oneCore {} with bays := [(0, { power := .off })] }
    let s := { live {} with mem := { tags := [(64, 5)] } }
    (StorageUnit.slotRow 0 0 ≠ .sliceData 64) ∧ (off.bay (bayOfPa 64)).power ≠ .on ∧ (s.bay (bayOfPa 64)).power = .on ∧ Map.get 0 s.mem.tags (lineOf 64) ≠ 0 ∧
    Map.get 0 s.mem.tags (lineOf 128) = 0 ∧ rootScope s 5 = 0 ∧ (Map.get {} (s.core 0).acc 0).tag = 0 ∧ (s.bay 0).scrub % 16 = 0 ∧ isHbm 0x10000000000 = true ∧
    isHbm 64 = false ∧ isDdr s 64 = false ∧ s.host.selfRefresh = false := by decide +kernel

theorem witness_PowerStates :
    let s := oneCore {}
    let weird := { s with mem := { weirs := [64] } }
    let tagged := { s with mem := { tags := [(64, 5)] } }
    let working := oneCore tasked
    let dark := { s with bays := (List.range 72).map fun b => (b, { logicOn := false }) }
    let going := { s with bays := [(0, { target := some .retain })], host := { powerReqs := [(1, 0, 0, 1)] } }
    let back := { s with bays := [(0, { power := .off, target := some .on, logicTarget := some false })], dies := [(0, { target := some false })] }
    let idle := { s with dies := (List.range 4).map fun d => (d, { active := false }) }
    (1 : W32) = s.host.lastDown + 1 ∧ s.host.powerReqs = [] ∧ (s.bay 0).target = none ∧ sliceWeir weird 0 = true ∧ sliceWeir s 0 = false ∧ sliceTagged tagged 0 = true ∧
    sliceTagged s 0 = false ∧ logicFree s 0 = true ∧ logicFree working 0 = false ∧ (s.die 0).active = true ∧ (∃ i < 72, (s.bay i).logicOn = true) ∧
    (∀ i < 72, (dark.bay i).logicOn = false) ∧ (going.bay 0).target = some .retain ∧ sliceWeir { going with mem := { weirs := [64] } } 0 = true ∧ sliceWeir going 0 = false ∧ (back.bay 0).target = some .on ∧ (back.bay 0).power = .off ∧ s.mem.wf = true ∧
    (back.bay 0).logicTarget = some false ∧ (back.die 0).target = some false ∧ packageIdle idle = true ∧ packageIdle s = false := by decide +kernel

/-- A root launch record of context 16 at 64, of one host-callback node at 4096. -/
def launchState : State :=
  { current16 with mem := { (current16.mem.setBytes 64 (words [2 ^ 62 + 2 ^ 48, 4096, 0, 2 ^ 32, 512, 0, 1, 1])).setBytes 4096 (words callbackWords) with tags := [(64, 16), (4096, 16), (4160, 16)] } }
def queuedDie : Die := { cbFifo := [{ op := 2, ctx := 0, arg := 0 }] }

theorem witness_CommandPort :
    let full := { oneCore {} with dies := [(0, { cbFifo := List.replicate 8 { op := 2, ctx := 0, arg := 0 } })] }
    let q := { oneCore {} with dies := [(0, queuedDie)] }
    let g := { paged {} with graphs := [(0, aGraph)] }
    let p := { paged {} with graphs := [(0, { aGraph with parked := true })] }
    let sc := { paged {} with scopes := [(5, { ctx := 0, parent := none })] }
    Unheld q ∧ Unheld launchState ∧ (launchState.die 0).cbCtx.toNat % 4096 = 0 ∧ (16 : W16).toNat % 4096 ≠ 0 ∧ (full.die 0).cbFifo.length = 8 ∧ (q.die 0).cbFifo = [{ op := 2, ctx := 0, arg := 0 }] ∧ (g.die 0).cbFifo = [] ∧ g.graphNamed 0 4096 = some 0 ∧ g.graph? 0 = some aGraph ∧
    g.graphNamed 0 64 = none ∧ p.graphNamed 0 4096 = some 0 ∧ sc.scope? 5 = some { ctx := 0, parent := none } ∧ sc.scope? 6 = none ∧ resumeBusy launchState 16 64 = false :=
  ⟨⟨rfl, rfl⟩, ⟨rfl, rfl⟩, by and_intros <;> decide +kernel⟩

/-- How a launch's records were found: in order, malformed, or unreadable. -/
def launchFound {α : Type} : Except LaunchBad α → Nat
  | .ok _ => 0
  | .error .malformed => 1
  | .error (.unread h) => if h.delays then 3 else 2

theorem witness_CommandPort_launch :
    launchFound (launchRecords launchState 16 64 true) = 0 ∧ launchFound (launchRecords current16 16 64 true) = 1 ∧
    launchFound (launchRecords (oneCore {}) 16 64 true) = 2 ∧
    ((launchState.ensureRoot 16).launchScope 0 16 64 false).isSome = true :=
  ⟨by decide +kernel, by decide +kernel, by decide +kernel, by decide +kernel⟩

/-- The same, where the die's port under context 16 has taken the launch. -/
def ported : State := launchState.putDie 0 (portTaken { cbCtx := 16 } { op := 0, ctx := 16, arg := 64 })

/-- What such a launch leaves, where it succeeds. -/
def portLaunch : Option State :=
  match launchRecords ported 16 64 true, (ported.ensureRoot 16).launchScope 0 16 64 false with
  | .ok (ws, ns), some (id, s0) =>
    let s1 := s0.dropSettled 16 64
    (s1.scope? id).map fun sc =>
      let s2 := s1.putScope id { sc with curtain := some (BitVec.ofNat 64 (wordAt ws 4 + 64 * bits (wordAt ws 0) 60 48)) }
      s2.startGraph (nextKey s2.graphs) { rootGraph 0 16 64 ws id (nextKey s2.graphs) with hostSeq := none } ns
  | _, _ => none

theorem witness_CommandPort_launched : (portLaunch.any fun u => u.blocked.isNone) = true ∧ resumeBusy ported 16 64 = false := by
  constructor <;> decide +kernel

theorem witness_HostRequests :
    let waiting := { oneCore {} with graphs := [(0, { aGraph with nodes := [(0, { readyNode with status := 2 })] })] }
    let ready := { oneCore {} with graphs := [(0, { aGraph with nodes := [(0, readyNode)] })] }
    waiting.graphNamed 0 4096 = some 0 ∧ (waiting.node 0 0).status = 2 ∧ nodeKind ((waiting.node 0 0).w 0) = 3 ∧ (ready.node 0 0).status ≠ 2 ∧
    (oneCore {}).graphNamed 0 4096 = none ∧ (1 : W32) = waiting.host.lastDown + 1 ∧ (0x083 : Nat) < 4096 ∧
    waiting.blocked = none ∧ waiting.sys.refused = [] ∧ (waiting.node 0 0).cancelAfter = false ∧ (waiting.node 0 0).scope = some 1 ∧ waiting.dying 1 = false ∧
    ({ waiting with scopes := [(1, { ctx := 0, parent := none, killing := true })] } : State).dying 1 = true := by decide +kernel

/-- Context 0's second GiB as DDR-type pages of HBM, for rings. -/
theorem witness_HostRings :
    let s := paged {}
    let e := anEndpoint aDesc
    let busy := { s with fab := { endpoints := [(1, e)] } }
    let idle := { s with fab := { endpoints := [(1, { e with descs := [] })] } }
    let ring := { s with mem := s.mem.setBytes (ringBase s.host.ringDown) (words [2 ^ 32 + 2 * 2 ^ 12]) }
    let at_ := fun (va : W64) => ({ ctx := 0, sendVa := va, sendSlots := 64, recvVa := 0x40000000, recvSlots := 64, peerVa := 0x40000000, peers := 1 } : Endpoint)
    isOk (endpointCheck s (at_ 0x40000000)) = true ∧ (match endpointCheck s (at_ 0) with | .error (.trap _ _) => true | _ => false) = true ∧
    s.blocked = none ∧ s.sys.refused = [] ∧
    (match endpointCheck { s with mem := tables.setBytes 0x10000002008 (bytesOf 8 (0x513F + 0x40000 * 2 ^ 15)) } (at_ 0x40000000) with | .error h => h.delays | .ok _ => false) = true ∧
    s.endpoint? 0 = none ∧ busy.endpoint? 1 = some e ∧ e.descs ≠ [] ∧ idle.endpoint? 1 = some { e with descs := [] } ∧ e.destroying = none ∧
    (idle.fab.endpoints.Pairwise fun a b => a.1 < b.1) ∧ ((downEntry ring 1).getD 0 0).toNat / 2 ^ 32 = 1 ∧ ((downEntry ring 1).getD 0 0).toNat / 2 ^ 12 % 16 = 2 ∧
    ((downEntry s 1).getD 0 0).toNat / 2 ^ 32 ≠ 1 := by decide +kernel

theorem witness_PcieTraffic :
    let s := { oneCore {} with host := { booted := true, bootRec := (Vector.replicate 16 0).setIfInBounds 1 1 } }
    let down := { s with host := { s.host with linkUp := false } }
    let bad := { s with mem := { poison := [0x10000000000] } }
    s.host.linkUp = true ∧ s.host.booted = true ∧ down.host.linkUp = false ∧ (oneCore {}).host.booted = false ∧ isHbm 0x10000000000 = true ∧ isHbm 0x1000000003F = true ∧
    isHbm 0 = false ∧ isDdr s 0 = false ∧ isHostWin 0 = false ∧ s.mem.writeBlocked 0 0x10000000000 64 = false ∧ s.mem.read 0 0 0x10000000000 64 = some zeros64 ∧
    bad.mem.read 0 0 0x10000000000 64 = none ∧ vget 0 s.host.bootRec 1 = 1 ∧ vget 0 (oneCore {}).host.bootRec 1 ≠ 1 := by decide +kernel

theorem witness_SignaturesAreBatched :
    let s := { oneCore {} with host := { booted := true, bootRec := (Vector.replicate 16 0).setIfInBounds 1 1, sigRing := some (0, 16, 4096) }, sys := { pkgCycle := 1050000 },
                               dies := [(0, { batch := [(0, zeros64)] })] }
    s.host.sigWait = [] ∧ vget 0 s.host.bootRec 1 = 1 ∧ (s.die 0).batchCycle + 1050000 ≤ s.sys.pkgCycle.toNat ∧ (s.die 0).batch = (0, zeros64) :: [] ∧
    s.host.sigSeq - ofBytes (s.mem.rawRead 0 (hostPa 4096) 8) < 16 ∧ vget 0 (oneCore {}).host.bootRec 1 ≠ 1 := by decide +kernel

theorem witness_PackageReset :
    let failed := (Vector.replicate 16 (0 : BitVec 2)).setIfInBounds 0 2
    staysInRom (Vector.replicate 16 0) (bootRecord (Vector.replicate 16 0) 0x7F) = false ∧ stepOk (bootRecord (Vector.replicate 16 0) 0x7F) 6 = true ∧
    stepOk (bootRecord (Vector.replicate 16 0) 0) 3 = false ∧ vget 0 failed 0 = 2 ∧ staysInRom failed (bootRecord failed 0) = true := by decide +kernel

theorem witness_RegistersWritten :
    let s := paged { regs := {} }
    let holding := oneCore { queues := queueOf 0 { chip := [{ data := 1 }] } }
    isCtl 0 = false ∧ (s.die 0).cutUsed = [] ∧ 8 ≤ (List.replicate 8 queuedDie).length ∧ (routerAt s 0).ctl.getLsbD 1 = false ∧
    (routerAt s 0).table.Pairwise (fun x y => x.1 < y.1) ∧ ((s.core 0).queue 0).chip = [] ∧ ((s.core 0).queue 0).ring = [] ∧ ((holding.core 0).queue 0).chip ≠ [] ∧
    ((0x8000000000000001 : W64) &&& 0x8FF00FFFFFFFFFFF).getLsbD 63 = true := by decide +kernel

theorem witness_RegistersWritten_ring :
    (∃ ps, translateRange (paged {}) 0 false (.ring 0) anyFmt 4096 4096 = .ok ps) ∧ ∃ h, translateRange (oneCore {}) 0 false (.ring 0) anyFmt 4096 4096 = .error h := by
  refine ⟨ex_ok (by decide +kernel), ?_⟩
  have h : isOk (translateRange (oneCore {}) 0 false (.ring 0) anyFmt 4096 4096) = false := by decide +kernel
  cases hx : translateRange (oneCore {}) 0 false (.ring 0) anyFmt 4096 4096 with
  | ok v => rw [hx] at h; cases h
  | error e => exact ⟨e, rfl⟩

theorem witness_DecodeTakesBackEncode : (Instr.add 4 4 3).wellFormed = true ∧ (Instr.add 4 4 3).cluster = some .K := by decide

theorem witness_DecodingDropsNoBit : (0x02420C00 : Nat) < 2 ^ 32 ∧ decode .K 0x02420C00 = .ok (.add 4 4 3) := ⟨by decide, of_ok (by decide)⟩

/-! ## A step -/

/-- Core 0's K with one lane, an addi to x3, as the only agent of the agenda. -/
def stepping : State := { synced with cores := [(0, { tasked with k := { iq := [{ syncK with sync := false }] } })], agenda := [(0, .lane 0 .K)] }

theorem witness_StepRunsTheDecodedInstruction :
    stepping.agenda = (0, .lane 0 .K) :: [] ∧ (stepping.tickTo 0).clusterRuns 0 .K = true ∧ (stepping.tickTo 0).cluster 0 .K = { iq := [{ syncK with sync := false }] } ∧
    (oneCore {}).agenda = [] ∧ (oneCore {}).host.booted = false ∧ (oneCore {}).host.bootCount = 0 ∧
    ({ oneCore {} with host := { bootCount := 1, booted := true } } : State).agenda = [] := by decide +kernel

def x3After (o : Host.Outcome State Fault Refusal) : Option W64 :=
  match o with
  | .next t => some ((t.core 0).regs.getX 3)
  | _ => none

theorem test_step_addi : x3After (step stepping) = some 1 := by decide +kernel

theorem test_placed_word_runs : x3After (step (State.reset.withFetchWord 32 0x10318001)) = some 1 := by decide +kernel

theorem witness_EveryStepKeepsMemoryCanonical : (paged {}).Inv := by
  show (paged {}).mem.wf = true
  decide +kernel

theorem witness_LoopRegisterWrite : (0 : Nat) < 2 ∧ (1 : Nat) < 2 := by decide

theorem witness_LanesComplete :
    let f : Flight := { no := 1, iseq := 1, kind := .sync }
    let s := live { taskWith aTask {} with l := { flights := [f] } }
    let seen := live { taskWith aTask {} with l := { flights := [{ f with watch := some (5, [0]) }] } }
    let e : QEntry := { data := 1 }
    let q := oneCore { queues := queueOf 0 { ring := [e], cfg := 0x8000000000000001, pages := [4096] } }
    let b : TreeBlock := { die := 0, block := 0, l := { held := [{ flight := 1, ready := true, recs := [List.replicate 256 0] }] } }
    let k := { aTask with block := some b }
    let t := live (taskWith k {})
    (s.cluster 0 .L).flights = [] ++ f :: [] ∧ (seen.cluster 0 .L).flights = [] ++ { f with watch := some (5, [0]) } :: [] ∧ (seen.core 0).sys.task = some aTask ∧
    aTask.area = none ∧ (seen.cluster 0 .L).stopped = none ∧ ((q.core 0).queue 0).ring = e :: [] ∧
    (let x := (q.core 0).queue 0; awake q (x.pages.getD (x.head / 4096) 0 + x.head % 4096) = .ok ()) ∧ q.mem.read 0 0 4096 256 = some (List.replicate 256 0) ∧
    ((q.core 0).queue 0).chip.length < queueDepth 0 ∧ (t.core 0).sys.task = some k ∧ k.block = some b ∧ b.image = none ∧ logRoom t (dieOfCore 0) = true :=
  ⟨rfl, rfl, rfl, rfl, rfl, by decide +kernel, of_ok (by decide +kernel), by decide +kernel, by decide +kernel, rfl, rfl, rfl, by decide +kernel⟩

theorem witness_ScrubbersReport_lost : (64 : Nat) ∈ ({ tagLost := [64] } : Memory).tagLost ∧ lineOf 64 = 64 ∧ (64 : Nat) ∉ ({ tagLost := [64] } : Memory).damaged := by decide

theorem witness_PowerStates_due :
    let d : Due := { ctx := 0, pa := 64, len := 1, data := some [7] }
    let s := { oneCore {} with bays := [(0, { power := .retain, target := some .on })], sys := { due := [d] }, host := { booted := true } }
    NothingHeld s ∧ NothingHeld (oneCore {}) ∧ (oneCore {}).sys.due = [] ∧ s.host.powerReqs = [] ∧ (s.bay 0).target = some .on ∧ (s.bay 0).power = .retain ∧ s.sys.due = [d] ∧ bayOfPa d.pa = 0 ∧
    s.host.booted = true :=
  ⟨⟨rfl, nofun⟩, ⟨rfl, nofun⟩, rfl, rfl, rfl, rfl, rfl, by decide +kernel, rfl⟩

theorem witness_CommandPort_noNode : NoNode (oneCore {}) 5 := fun _ h => absurd h List.not_mem_nil

theorem witness_HostRings_held :
    let w : W16 × Nat × List Byte := (0, 64, [7])
    let s := { paged {} with host := { booted := true }, sys := { ctxTable := 0x10000000000, heldWrites := [w] }, fab := { endpoints := [(1, { anEndpoint aDesc with descs := [] })] } }
    let heard := ({ lastUp := 3, unread := [(2, [1]), (3, [2])] } : HostIf)
    (∃ w ∈ s.sys.heldWrites, w.1 = (0 : W16)) ∧ s.host.booted = true ∧ (heard.hear 2).unread = [(3, [2])] ∧ (heard.hear 9).unread = heard.unread :=
  ⟨⟨_, .head _, rfl⟩, rfl, by decide +kernel, by decide +kernel⟩

theorem witness_RegistersWritten_fifos :
    let x : Xinv := { kind := 0, ctx := 0, vpn := 1 }
    let full := { oneCore {} with sys := { xinvFifo := List.replicate 8 x }, dies := [(1, { sweepFifo := [1, 2, 3, 4] })] }
    ¬full.sys.xinvFifo.length < 8 ∧ 4 ≤ (full.die 1).sweepFifo.length ∧ ({ sweepFifo := [1] } : Die).sweepFifo ≠ [] ∧ ¬holdsRegister 1 0x10000 ∧ ¬holdsRegister 0 0x8 ∧
    (oneCore {}).die 1 = {} := by
  refine ⟨by decide, by decide +kernel, by decide, ?_, ?_, by decide +kernel⟩ <;> (unfold holdsRegister; decide)

end Sys2Proof.Tests
end

section
/-! Bytes written are read back (03 R75, R76; 01 R24; 02 R61): what a write makes of the lines that it touches, where each is the writer's own. -/

namespace Sys2Proof.Consistency
open Sys2Proof Sys2Proof.Machine Sys2Proof.Laws

/-! ## Association lists: entries taken out, and those that hold the default -/

section
variable {α : Type}

theorem find_erase_other (m : Map α) {n k : Nat} (h : k ≠ n) : Map.find? (Map.erase m n) k = Map.find? m k := by
  induction m with
  | nil => rfl
  | cons p m ih =>
    obtain ⟨a, w⟩ := p
    by_cases ha : a = n
    · subst ha
      simp [Map.erase, Map.find?, h.symm]
    · simp [Map.erase, Map.find?, ha, ih]

theorem find_none_of_not_mem (m : Map α) {n : Nat} (h : n ∉ m.map Prod.fst) : Map.find? m n = none := by
  induction m with
  | nil => rfl
  | cons p m ih =>
    obtain ⟨hp, hm⟩ := not_or.1 (mt List.mem_cons.2 h)
    simp [Map.find?, Ne.symm hp, ih hm]

theorem find_erase_same (m : Map α) (n : Nat) (h : (m.map Prod.fst).Nodup) : Map.find? (Map.erase m n) n = none := by
  induction m with
  | nil => rfl
  | cons p m ih =>
    obtain ⟨a, w⟩ := p
    obtain ⟨ha, hm⟩ := List.nodup_cons.1 h
    by_cases hn : a = n
    · subst hn
      simpa [Map.erase] using find_none_of_not_mem m ha
    · simpa [Map.erase, Map.find?, hn] using ih hm

theorem erase_sublist (m : Map α) (n : Nat) : (Map.erase m n).Sublist m := by
  induction m with
  | nil => exact .slnil
  | cons p m ih =>
    unfold Map.erase
    split
    · exact List.sublist_cons_self ..
    · exact ih.cons_cons _

variable [DecidableEq α]

/-- What is put at a key is read there; an entry that goes out for it needs to be the key's only one. -/
theorem get_put_same (d : α) (m : Map α) (n : Nat) (v : α) (h : v = d → (m.map Prod.fst).Nodup) : Map.get d (Map.put d m n v) n = v := by
  unfold Map.put
  split
  · next hv => simp [Map.get, find_erase_same m n (h hv), hv]
  · simp

theorem get_put_other (d : α) (m : Map α) {n k : Nat} (v : α) (h : k ≠ n) : Map.get d (Map.put d m n v) k = Map.get d m k := by
  unfold Map.put
  split
  · simp [Map.get, find_erase_other m h]
  · exact get_set_other d m n k v h

end

/-! ## Lines -/

theorem lineOf_lineOf (pa : Nat) : lineOf (lineOf pa) = lineOf pa := by
  unfold lineOf
  omega

/-- The slices end where a line does. -/
theorem isSlice_lineOf (pa : Nat) : isSlice (lineOf pa) = isSlice pa := by
  have h : pa / 64 * 64 < 0x48000000 ↔ pa < 0x48000000 := by omega
  exact decide_eq_decide.2 h

theorem lineOf_mem_linesOf {pa n i : Nat} (h : i < n) : lineOf (pa + i) ∈ linesOf pa n := by
  have hn : n ≠ 0 := by omega
  simp only [linesOf, if_neg hn, List.mem_map, List.mem_range, lineOf]
  exact ⟨(pa + i) / 64 - pa / 64, by omega, by omega⟩

theorem lineOf_of_mem_linesOf {pa n u : Nat} (h : u ∈ linesOf pa n) : lineOf u = u := by
  unfold linesOf at h
  split at h
  · exact absurd h List.not_mem_nil
  · obtain ⟨i, -, rfl⟩ := List.mem_map.1 h
    unfold lineOf
    omega

/-! ## What an access meets -/

/-- A line is the context's own where its tag and its data are good and its tag, in a slice, is the context's (02 R61, R65). -/
theorem meets_own_iff (m : Memory) (ctx : W16) (pa : Nat) : m.meets ctx pa = .own ↔
    lineOf pa ∉ m.orphan ∧ lineOf pa ∉ m.tagLost ∧ (isSlice pa = true → Map.get 0 m.tags (lineOf pa) = ctx) ∧
      lineOf pa ∉ m.poison ∧ lineOf pa ∉ m.damaged := by
  unfold Memory.meets
  simp only [Bool.or_eq_true, List.contains_iff_mem, Bool.and_eq_true, bne_iff_ne]
  split
  · next h => exact ⟨nofun, fun ⟨ho, ht, _⟩ => absurd h (not_or.2 ⟨ho, ht⟩)⟩
  · next h =>
    split
    · next hf => exact ⟨nofun, fun ⟨_, _, hs, _⟩ => absurd (hs hf.1) hf.2⟩
    · next hf =>
      split
      · next hp => exact ⟨nofun, fun ⟨_, _, _, hq, hd⟩ => absurd hp (not_or.2 ⟨hq, hd⟩)⟩
      · next hp =>
        obtain ⟨ho, ht⟩ := not_or.1 h
        obtain ⟨hq, hd⟩ := not_or.1 hp
        exact ⟨fun _ => ⟨ho, ht, fun hs => Classical.not_not.1 fun hne => hf ⟨hs, hne⟩, hq, hd⟩, fun _ => rfl⟩

/-- What an access meets at an address is what it meets at the address's line. -/
theorem meets_lineOf (m : Memory) (ctx : W16) (pa : Nat) : m.meets ctx (lineOf pa) = m.meets ctx pa := by
  simp only [Memory.meets, lineOf_lineOf, isSlice_lineOf]

/-! ## Keys (01 R24) -/

/-- The unit of an address reads as its plain bytes under the key of slot k: it lies in a slice, or is kept under that key. -/
def PlainUnder (m : Memory) (k pa : Nat) : Prop := isSlice pa = true ∨ Map.get 0 m.keyOf (lineOf pa) = m.slotKey k

theorem keyed_of_plainUnder {m : Memory} {k pa : Nat} (h : PlainUnder m k pa) : m.keyed k pa = m.byte pa := by
  have hc : (isSlice pa || decide (Map.get 0 m.keyOf (lineOf pa) = m.slotKey k)) = true := by
    rw [Bool.or_eq_true, decide_eq_true_eq]
    exact h
  exact if_pos hc

theorem plainUnder_lineOf (m : Memory) (k pa : Nat) : PlainUnder m k (lineOf pa) ↔ PlainUnder m k pa := by
  simp only [PlainUnder, lineOf_lineOf, isSlice_lineOf]

/-- Units are taken out of the list of keys only for a slot without encryption; each must then stand in it once. -/
def Removable (m : Memory) (k : Nat) : Prop := m.slotKey k = 0 → (m.keyOf.map Prod.fst).Nodup

/-! ## What making lines ready keeps -/

/-- Bytes are a matter of the cells alone. -/
theorem setBytes_eq (bs : List Byte) : ∀ (m : Memory) (pa : Nat), m.setBytes pa bs = { m with cells := (m.setBytes pa bs).cells } := by
  induction bs with
  | nil => exact fun _ _ => rfl
  | cons b bs ih => exact fun m pa => ih (m.setByte pa b) (pa + 1)

/-- From m to m', no line ceases to be the context's own, and no unit to read plainly under the key of slot k. -/
structure Readies (ctx : W16) (k : Nat) (m m' : Memory) : Prop where
  own : ∀ v, m.meets ctx v = .own → m'.meets ctx v = .own
  plain : ∀ v, PlainUnder m k v → PlainUnder m' k v
  removable : Removable m k → Removable m' k

namespace Readies
variable {ctx : W16} {k : Nat}

theorem refl (m : Memory) : Readies ctx k m m := ⟨fun _ => id, fun _ => id, id⟩

theorem trans {m m' m'' : Memory} (h : Readies ctx k m m') (h' : Readies ctx k m' m'') : Readies ctx k m m'' :=
  ⟨fun v hv => h'.own v (h.own v hv), fun v hv => h'.plain v (h.plain v hv), fun hv => h'.removable (h.removable hv)⟩

theorem mend (m : Memory) (u : Nat) : Readies ctx k m (m.mend u) := by
  refine ⟨fun v hv => ?_, fun _ => id, id⟩
  obtain ⟨ho, ht, hs, hp, hd⟩ := (meets_own_iff m ctx v).1 hv
  exact (meets_own_iff _ ctx v).2 ⟨fun h => ho (List.mem_filter.1 h).1, fun h => ht (List.mem_filter.1 h).1, hs,
    fun h => hp (List.mem_filter.1 h).1, fun h => hd (List.mem_filter.1 h).1⟩

theorem setBytes (m : Memory) (pa : Nat) (bs : List Byte) : Readies ctx k m (m.setBytes pa bs) := by
  rw [setBytes_eq]
  exact ⟨fun _ => id, fun _ => id, id⟩

theorem noteSwept (m : Memory) (pa n : Nat) : Readies ctx k m (m.noteSwept ctx pa n) := by
  unfold Memory.noteSwept
  simp only
  split
  · exact refl m
  · exact ⟨fun _ => id, fun _ => id, id⟩

theorem unweir (m : Memory) (pa n : Nat) : Readies ctx k m (m.unweir pa n) := ⟨fun _ => id, fun _ => id, id⟩

end Readies

/-- A unit that the key of slot k does not open is kept under it, plainly, from now on. -/
theorem rekey_eq {m : Memory} {k u : Nat} (h : ¬ (isSlice u = true ∨ Map.get 0 m.keyOf u = m.slotKey k)) :
    ∃ cells, m.rekey k u = { m with cells := cells, keyOf := Map.put 0 m.keyOf u (m.slotKey k) } := by
  have hc : ¬ (isSlice u || decide (Map.get 0 m.keyOf u = m.slotKey k)) = true := by
    rw [Bool.or_eq_true, decide_eq_true_eq]
    exact h
  exact ⟨_, (if_neg hc).trans (congrArg (fun m' : Memory => { m' with keyOf := Map.put 0 m.keyOf u (m.slotKey k) }) (setBytes_eq _ m u))⟩

theorem rekey_same {m : Memory} {k u : Nat} (h : isSlice u = true ∨ Map.get 0 m.keyOf u = m.slotKey k) : m.rekey k u = m := by
  have hc : (isSlice u || decide (Map.get 0 m.keyOf u = m.slotKey k)) = true := by
    rw [Bool.or_eq_true, decide_eq_true_eq]
    exact h
  exact if_pos hc

theorem Readies.rekey {ctx : W16} {k : Nat} (m : Memory) (u : Nat) : Readies ctx k m (m.rekey k u) := by
  by_cases h : isSlice u = true ∨ Map.get 0 m.keyOf u = m.slotKey k
  · rw [rekey_same h]
    exact .refl m
  · obtain ⟨cells, hm⟩ := rekey_eq h
    rw [hm]
    refine ⟨fun _ => id, fun v hv => hv.imp_right fun hk => ?_, fun hr h0 => ?_⟩
    · have hu : lineOf v ≠ u := fun hu => h (.inr (hu ▸ hk))
      exact (get_put_other 0 m.keyOf _ hu).trans hk
    · have h0 : m.slotKey k = 0 := h0
      simp only [Map.put, h0, if_true]
      exact (hr h0).sublist ((erase_sublist m.keyOf u).map _)

/-- A unit carried over to the key of slot k reads plainly under it. -/
theorem rekey_plainUnder {m : Memory} {k u : Nat} (hu : lineOf u = u) (hr : Removable m k) : PlainUnder (m.rekey k u) k u := by
  by_cases h : isSlice u = true ∨ Map.get 0 m.keyOf u = m.slotKey k
  · rw [rekey_same h, PlainUnder, hu]
    exact h
  · obtain ⟨cells, hm⟩ := rekey_eq h
    rw [hm, PlainUnder, hu]
    exact .inr (get_put_same 0 m.keyOf u _ hr)

/-- A line of the writer's own is neither cleared nor taken (02 R61): it loses what errors a whole write ends, and comes under the write's key. -/
theorem claim_own {m : Memory} {ctx : W16} {u : Nat} (k pa n : Nat) (us : List Nat) (h : m.meets ctx u = .own) :
    ∃ m1, Readies ctx k m m1 ∧ m.claim ctx k pa n (u :: us) = (m1.rekey k u).claim ctx k pa n us := by
  simp only [Memory.claim, h]
  generalize (decide (pa ≤ u) && decide (u + 64 ≤ pa + n)) = whole
  cases whole
  · exact ⟨m, .refl m, by simp⟩
  · exact ⟨m.mend u, .mend m u, by simp⟩

/-- Lines of the writer's own, made ready: each stays its own, and reads plainly under the write's key. -/
theorem claim_readies {ctx : W16} {k : Nat} (pa n : Nat) (us : List Nat) : ∀ m : Memory, (∀ u ∈ us, m.meets ctx u = .own ∧ lineOf u = u) →
    Removable m k → Readies ctx k m (m.claim ctx k pa n us) ∧ ∀ u ∈ us, PlainUnder (m.claim ctx k pa n us) k u := by
  induction us with
  | nil => exact fun m _ _ => ⟨.refl m, nofun⟩
  | cons u us ih =>
    intro m hus hr
    obtain ⟨m1, hm1, heq⟩ := claim_own k pa n us (hus u List.mem_cons_self).1
    have hm : Readies ctx k m (m1.rekey k u) := hm1.trans (.rekey m1 u)
    obtain ⟨hrest, hplain⟩ := ih (m1.rekey k u)
      (fun v hv => ⟨hm.own v (hus v (.tail _ hv)).1, (hus v (.tail _ hv)).2⟩) (hm.removable hr)
    rw [heq]
    refine ⟨hm.trans hrest, List.forall_mem_cons.2 ⟨?_, hplain⟩⟩
    exact hrest.plain u (rekey_plainUnder (hus u List.mem_cons_self).2 (hm1.removable hr))

/-! ## A write, and the read after it -/

/-- A write to lines of the writer's own puts its bytes where those lines have been made ready for them. -/
theorem write_readies {m : Memory} {ctx : W16} {k pa : Nat} {bs : List Byte} (hwf : m.wf = true) (hr : Removable m k)
    (hown : ∀ u ∈ linesOf pa bs.length, m.meets ctx u = .own) : ∃ m1, m.write ctx k pa bs = m1.setBytes pa bs ∧ m1.wf = true ∧
      Readies ctx k m m1 ∧ ∀ u ∈ linesOf pa bs.length, PlainUnder m1 k u := by
  have h0 : Readies ctx k m ((m.noteSwept ctx pa bs.length).unweir pa bs.length) := (Readies.noteSwept m pa _).trans (.unweir _ pa _)
  obtain ⟨hclaim, hplain⟩ := claim_readies pa bs.length (linesOf pa bs.length) _
    (fun u hu => ⟨h0.own u (hown u hu), lineOf_of_mem_linesOf hu⟩) (h0.removable hr)
  exact ⟨_, rfl, claim_wf _ _ _ _ _ _ (unweir_wf _ _ _ (noteSwept_wf m ctx pa _ hwf)), h0.trans hclaim, hplain⟩

/-- What such a write leaves: its bytes at their places, in lines still the writer's own, plain under its key. -/
theorem write_own {m : Memory} {ctx : W16} {k pa : Nat} {bs : List Byte} (hwf : m.wf = true) (hr : Removable m k)
    (hown : ∀ u ∈ linesOf pa bs.length, m.meets ctx u = .own) :
    (∀ i (h : i < bs.length), (m.write ctx k pa bs).byte (pa + i) = bs[i]) ∧
      ∀ u ∈ linesOf pa bs.length, (m.write ctx k pa bs).meets ctx u = .own ∧ PlainUnder (m.write ctx k pa bs) k u := by
  obtain ⟨m1, heq, hwf1, hready, hplain⟩ := write_readies hwf hr hown
  have hset : Readies ctx k m1 (m1.setBytes pa bs) := .setBytes m1 pa bs
  rw [heq]
  refine ⟨fun i h => ?_, fun u hu => ⟨hset.own u (hready.own u (hown u hu)), hset.plain u (hplain u hu)⟩⟩
  rw [byte_setBytes bs m1 pa (pa + i) hwf1, if_pos ⟨by omega, by omega⟩]
  simp [h]

/-- A read of lines of the reader's own that are plain under its key gives their bytes. -/
theorem read_own {m : Memory} {ctx : W16} {k pa n : Nat} (h : ∀ u ∈ linesOf pa n, m.meets ctx u = .own ∧ PlainUnder m k u) :
    m.read ctx k pa n = some ((List.range n).map fun i => m.byte (pa + i)) := by
  have hgood : ¬ ((linesOf pa n).any fun u => decide (m.meets ctx u = .poisoned) || decide (m.meets ctx u = .orphan)) = true := by
    rw [List.any_eq_true]
    rintro ⟨u, hu, hbad⟩
    simp [(h u hu).1] at hbad
  refine (if_neg hgood).trans (congrArg some (List.map_congr_left fun i hi => ?_))
  obtain ⟨hown, hplain⟩ := h _ (lineOf_mem_linesOf (pa := pa) (List.mem_range.1 hi))
  rw [meets_lineOf] at hown
  rw [plainUnder_lineOf] at hplain
  simp only [hown]
  exact keyed_of_plainUnder hplain

/-- Settles O5: a write to lines of the writer's own leaves its bytes plain under its key, and a read of them by the same context under the same
key meets nothing but its own. -/
theorem writtenBytesReadBack : Obligations.WrittenBytesReadBack := by
  intro m ctx key pa bs hwf hkeys hown
  obtain ⟨hbytes, hlines⟩ := write_own hwf (fun _ => hkeys) hown
  rw [read_own hlines]
  refine congrArg some (List.ext_getElem (by simp) fun i hi hi' => ?_)
  simpa using hbytes i hi'

end Sys2Proof.Consistency
end

section
/-! What a home does with a request of another package (03 R89; 05 R129, R132, R136, R137, R142; 16 R416, R427). -/

namespace Sys2Proof.Consistency
open Sys2Proof Sys2Proof.Machine Sys2Proof.Laws Sys2Proof.Claim

/-! ## Slices that are on (02 R70) -/

section
variable {s : State}

theorem awake_of_allOn (h : AllOn s) (pa : Nat) : awake s pa = .ok () := by
  obtain ⟨hp, ht⟩ := h (bayOfPa pa)
  unfold awake
  split
  · exact if_pos (by rw [Bool.and_eq_true, decide_eq_true_eq]; exact ⟨hp, by rw [Option.isNone_iff_eq_none]; exact ht⟩)
  · rfl

theorem awakeAll_of_allOn (h : AllOn s) (pa n : Nat) : awakeAll s pa n = .ok () := by
  simp only [awakeAll, awake_of_allOn h]
  rw [List.filterMap_eq_nil_iff.2 fun _ _ => rfl]

theorem sliceReady_of_allOn (h : AllOn s) (pa n : Nat) : sliceReady s pa n = true := by
  unfold sliceReady
  rw [awakeAll_of_allOn h]
  rfl

theorem wakeRange_of_allOn (h : AllOn s) (pa n : Nat) : s.wakeRange pa n = s := by
  unfold State.wakeRange
  rw [awakeAll_of_allOn h]

end

/-! ## Streams (05 R136) -/

theorem streamWaits_iff (s : State) (r : RemoteReq) (came : Nat) : streamWaits s r came = true ↔ StreamMate s r came := by
  have hreq : ∀ o : Option RemoteReq, (o.map (sameStream r)).getD false = true ↔ ∃ q, o = some q ∧ r.src = q.src ∧ r.core = q.core ∧ r.cls = q.cls := by
    intro o
    cases o <;> simp [sameStream, and_assoc]
  simp only [streamWaits, StreamMate, List.any_eq_true, List.mem_range, Bool.and_eq_true, decide_eq_true_eq, hreq]

/-! ## What leaves the package -/

section
variable (s : State) (k : Nat) (a : RemoteResp)

@[simp] theorem sendResponse_die (d : Nat) : (s.sendResponse k a).die d = s.die d := rfl
@[simp] theorem die_withFab (d : Nat) (f : Fabric) : (s.withFab f).die d = s.die d := rfl
@[simp] theorem die_withMem (d : Nat) (m : Memory) : (s.withMem m).die d = s.die d := rfl

end

/-! ## A request performed at its home (05 R129, R132) -/

section
variable {s : State} {r : RemoteReq}

theorem homeAccess_refused {mine : Bool} {ctx : W16} {striped : Bool} {pa key op len aop : Nat} {data : List Byte}
    (h : homeStatus s striped pa len key ≠ 0) :
    s.homeAccess mine ctx striped pa key op len aop data = (homeStatus s striped pa len key, [], s) :=
  if_pos h

theorem homeAccess_read {mine : Bool} {ctx : W16} {striped : Bool} {pa key len aop : Nat} {data bs : List Byte}
    (h : homeStatus s striped pa len key = 0) (hr : s.mem.read ctx key pa len = some bs) :
    s.homeAccess mine ctx striped pa key 0 len aop data = (0, bs, s) := by
  refine (if_neg (not_not_intro h)).trans ?_
  simp only [hr, statusOk]

theorem homeAccess_write {mine : Bool} {ctx : W16} {striped : Bool} {pa key len aop : Nat} {data : List Byte}
    (h : homeStatus s striped pa len key = 0) (hw : s.mem.writeBlocked ctx pa len = false) :
    s.homeAccess mine ctx striped pa key 1 len aop data = (0, [], s.withMem (s.mem.write ctx key pa (data.take len))) := by
  refine (if_neg (not_not_intro h)).trans ?_
  simp [hw, statusOk]

theorem homeAccess_atomic {mine : Bool} {ctx : W16} {striped : Bool} {pa key len aop old : Nat} {data : List Byte} {m : Memory}
    (h : homeStatus s striped pa len key = 0)
    (hm : s.mem.rmw ctx key pa len aop (ofBytes (data.take 8)) (ofBytes ((data.drop 8).take 8)) = some (old, m)) :
    s.homeAccess mine ctx striped pa key 2 len aop data = (0, bytesOf 8 old, s.withMem m) := by
  refine (if_neg (not_not_intro h)).trans ?_
  simp only [hm, statusOk]

/-- What a performed request leaves: the memory that it left, and its answer sent. -/
theorem performRequest_of_homeAccess {st : Nat} {bs : List Byte} {m : Memory}
    (h : s.homeAccess false r.ctx r.striped r.addr r.key r.op r.len r.aop r.data = (st, bs, s.withMem m)) :
    s.performRequest r = (s.withMem m).sendResponse r.cls (answerTo s r st bs) := by
  unfold State.performRequest
  rw [h]
  rfl

/-! ## A request's packet (03 R89; 05 R136, R137, R142) -/

theorem takeRequest_stale (h : ¬ current s r.src r.sInc r.rInc = true) : s.takeRequest r = s.countStalePacket := by
  simp [State.takeRequest, h]

theorem takeRequest_absent (hc : current s r.src r.sInc r.rInc = true) (hi : installed s r.addr r.len = false) :
    s.takeRequest r = s.performRequest r := by
  simp [State.takeRequest, hc, hi]

theorem takeRequest_elsewhere (hc : current s r.src r.sInc r.rInc = true) (hi : installed s r.addr r.len = true)
    (hd : Config.ingressDie r.src r.core r.cls % 4 ≠ dieOfPa r.addr % 4) :
    s.takeRequest r = s.crossDie (Config.ingressDie r.src r.core r.cls % 4) (dieOfPa r.addr % 4) r := by
  simp [State.takeRequest, hc, hi, dieOfAddress, hd]

theorem takeRequest_waits (hc : current s r.src r.sInc r.rInc = true) (hi : installed s r.addr r.len = true)
    (hd : Config.ingressDie r.src r.core r.cls % 4 = dieOfPa r.addr % 4) (hw : StreamMate s r s.fab.came) :
    s.takeRequest r = (s.waitHere (dieOfPa r.addr % 4) r).wakeRange r.addr r.len := by
  simp [State.takeRequest, hc, hi, dieOfAddress, hd, (streamWaits_iff s r _).2 hw]

theorem takeRequest_performed (hc : current s r.src r.sInc r.rInc = true) (hi : installed s r.addr r.len = true) (hon : AllOn s)
    (hd : Config.ingressDie r.src r.core r.cls % 4 = dieOfPa r.addr % 4) (hw : ¬ StreamMate s r s.fab.came) :
    s.takeRequest r = s.performRequest r := by
  have hw' : streamWaits s r s.fab.came = false := Bool.eq_false_iff.2 (mt (streamWaits_iff s r _).1 hw)
  simp [State.takeRequest, hc, hi, dieOfAddress, hd, hw', sliceReady_of_allOn hon]

end

/-! ## From one die to another (05 R137; 16 R427) -/

section
variable (s : State) {src dst : Nat} (cls : Nat) (req : Option RemoteReq) (tile : Option Contrib) (bs : List Byte)

theorem cross_mem : (s.cross src dst cls req tile bs).mem = s.mem := rfl
theorem cross_cores : (s.cross src dst cls req tile bs).cores = s.cores := rfl
theorem cross_came : (s.cross src dst cls req tile bs).fab.came = s.fab.came + 1 := rfl
theorem cross_sent : (s.cross src dst cls req tile bs).fab.sent = s.fab.sent := rfl

/-- The packet stands behind all that the bridge has of its class. -/
theorem cross_bridge : vget [] ((s.cross src dst cls req tile bs).port (24 + 4 * src + dst)).out (min cls 2) =
    vget [] (s.port (24 + 4 * src + dst)).out (min cls 2) ++ [{ flits := flitsOf (min cls 2) false bs }] := by
  have hk : min cls 2 < 3 := by omega
  simp only [State.cross, State.queueAt, State.putPort, State.port, withFab_fab, get_set_same, vget_set _ _ _ _ _ hk, if_true]
  rfl

theorem cross_die_src (h : src ≠ dst) : ((s.cross src dst cls req tile bs).die src).sent = (s.die src).sent + 1 := by
  simp only [State.cross, State.queueAt, State.putPort, die_withFab, die_putDie_other _ _ _ _ h, die_putDie_same]

theorem cross_die_dst (h : src ≠ dst) : ((s.cross src dst cls req tile bs).die dst).wire = (s.die dst).wire ++
    [{ src := src, came := s.fab.came, no := (s.die src).sent + 1, stamp := (s.die src).vector.setIfInBounds src ((s.die src).sent + 1), req := req, tile := tile }] := by
  simp only [State.cross, State.queueAt, State.putPort, die_withFab, die_putDie_other _ _ _ _ h.symm, die_putDie_same]

end

theorem waitHere_wire (s : State) (d : Nat) (r : RemoteReq) : ((s.waitHere d r).die d).wire = (s.die d).wire ++
    [{ src := d, came := s.fab.came, no := vget 0 (s.die d).seen d, stamp := Vector.replicate 4 0, req := some r }] := by
  simp only [State.waitHere, die_withFab, die_putDie_same]

end Sys2Proof.Consistency
end

section
/-! What one die applies of another's (05 R137). -/

namespace Sys2Proof.Consistency
open Sys2Proof Sys2Proof.Machine Sys2Proof.Laws Sys2Proof.Claim

/-! ## The beat -/

section
variable {s : State} {d e : Nat}

/-- A die that has sent another nothing for 64 cycles sends it a beat. -/
theorem execDieClockBeat_due (hd : d < 4) (he : e < 4) (hne : d ≠ e) (h : vget 0 (s.die d).lastSend e + 64 ≤ s.sys.pkgCycle.toNat) :
    ∃ t, execDieClockBeat d e s = .next t ∧ t.mem = s.mem ∧ t.cores = s.cores ∧ vget 0 (t.die d).lastSend e = s.sys.pkgCycle.toNat ∧
      (t.die e).wire = (s.die e).wire ++ [{ src := d, no := (s.die d).sent, stamp := Vector.replicate 4 0, req := none }] := by
  have hc : ¬ (decide (d ≥ 4) || decide (e ≥ 4) || decide (d = e) || decide (s.sys.pkgCycle.toNat < vget 0 (s.die d).lastSend e + 64)) = true := by
    simp only [Bool.or_eq_true, decide_eq_true_eq]
    omega
  refine ⟨_, congrArg Host.Outcome.next (if_neg hc), rfl, rfl, ?_, ?_⟩
  · simp only [die_putDie_other _ _ _ _ hne, die_putDie_same, vget_set _ _ _ _ _ he, if_true]
  · simp only [die_putDie_other _ _ _ _ hne.symm, die_putDie_same]

theorem execDieClockBeat_early (h : s.sys.pkgCycle.toNat < vget 0 (s.die d).lastSend e + 64) : execDieClockBeat d e s = .next s :=
  congrArg Host.Outcome.next (if_pos (by simp [h]))

end

/-! ## Vectors -/

theorem vget_mergeVec (a b : Vector (BitVec 48) 4) {k : Nat} (hk : k < 4) :
    vget 0 (mergeVec a b) k = if vget 0 a k ≤ vget 0 b k then vget 0 b k else vget 0 a k := by
  simp [mergeVec, vget, hk]

theorem mergeVec_self (a : Vector (BitVec 48) 4) : mergeVec a a = a := by
  refine Vector.ext fun i hi => ?_
  simp [mergeVec, vget, hi]

/-! ## The oldest of what a die holds from another -/

section
variable {before after : List Wire} {w : Wire} {src : Nat}

theorem find_oldest (hb : ∀ x ∈ before, x.src ≠ src) (hw : w.src = src) : (before ++ w :: after).find? (fun x => x.src = src) = some w := by
  rw [List.find?_append, List.find?_eq_none.2 fun x hx => by simpa using hb x hx]
  simp [hw]

theorem erase_oldest (hb : ∀ x ∈ before, x.src ≠ src) (hw : w.src = src) : (before ++ w :: after).erase w = before ++ after := by
  rw [List.erase_append_right _ fun h => hb w h hw, List.erase_cons_head]

variable {s : State} {die : Nat}

/-- A die applies the oldest of what it holds from another, which it then has no more and has seen. -/
theorem execCrossDieApply_oldest (h : (s.die die).wire = before ++ w :: after) (hb : ∀ x ∈ before, x.src ≠ src) (hw : w.src = src) :
    execCrossDieApply die src s =
      .next (s.applyWire die w { s.die die with wire := before ++ after, seen := (s.die die).seen.setIfInBounds src w.no }) := by
  simp only [execCrossDieApply, h, find_oldest hb hw, erase_oldest hb hw]

theorem applyWire_beat {d1 : Die} (hr : w.req = none) (ht : w.tile = none) : s.applyWire die w d1 = s.putDie die d1 := by
  simp only [State.applyWire, hr, ht]

theorem applyWire_tile_waits {d1 : Die} (hr : w.req = none) (ht : w.tile ≠ none) (hm : (s.die die).mayApply die w = false) :
    s.applyWire die w d1 = s := by
  obtain ⟨p, hp⟩ := Option.ne_none_iff_exists'.1 ht
  simp [State.applyWire, hr, hp, hm]

theorem applyWire_request_waits {d1 : Die} {r : RemoteReq} (hr : w.req = some r)
    (h : (s.die die).mayApply die w = false ∨ StreamMate s r w.came) : s.applyWire die w d1 = s := by
  rw [← streamWaits_iff] at h
  simp only [State.applyWire, hr]
  exact if_pos (by simpa only [Bool.or_eq_true, Bool.not_eq_true'] using h)

/-- A die tells another the vector it has come to. -/
def tellDie (s : State) (src : Nat) (v : Vector (BitVec 48) 4) : State := s.putDie src { s.die src with vector := mergeVec (s.die src).vector v }

theorem applyWire_request {d1 : Die} {r : RemoteReq} (hr : w.req = some r) (hm : (s.die die).mayApply die w = true)
    (hs : ¬ StreamMate s r w.came) (hon : AllOn s) : s.applyWire die w d1 =
      tellDie ((s.putDie die { d1 with vector := mergeVec (s.die die).vector w.stamp }).performRequest r) w.src (mergeVec (s.die die).vector w.stamp) := by
  have hs' : streamWaits s r w.came = false := Bool.eq_false_iff.2 (mt (streamWaits_iff s r _).1 hs)
  simp [State.applyWire, hr, hm, hs', sliceReady_of_allOn hon, tellDie]

/-- The die that tells its vector keeps it, and all else that it has. -/
theorem tellDie_die {v : Vector (BitVec 48) 4} (hv : (s.die die).vector = v) : (tellDie s src v).die die = s.die die := by
  unfold tellDie
  by_cases h : die = src
  · subst h
    rw [die_putDie_same, hv, mergeVec_self, ← hv]
  · exact die_putDie_other _ _ _ _ h

end

end Sys2Proof.Consistency
end

section
/-! How remote operations of this package end (05 R130, R131, R135, R143; 14 R386). -/

namespace Sys2Proof.Consistency
open Sys2Proof Sys2Proof.Machine Sys2Proof.Laws Sys2Proof.Claim

/-! ## A core written again -/

theorem set_set {α : Type} (m : Map α) (n : Nat) (v w : α) : Map.set (Map.set m n v) n w = Map.set m n w := by
  induction m with
  | nil => simp [Map.set]
  | cons p m ih =>
    obtain ⟨k, x⟩ := p
    by_cases hlt : n < k
    · simp [Map.set, hlt]
    · by_cases heq : n = k
      · simp [Map.set, heq]
      · simp [Map.set, hlt, heq, ih]

theorem putCore_putCore (s : State) (n : Nat) (c c' : Core) : (s.putCore n c).putCore n c' = s.putCore n c' := by
  simp only [State.putCore, set_set]

/-! ## Leaves (15 R393) -/

section
variable (c : Core) (cl : Cl) (f : Tree → Tree)

@[simp] theorem modifyTree_regs : (c.modifyTree cl f).regs = c.regs := (modifyTree_keeps c cl f).1
@[simp] theorem modifyTree_queues : (c.modifyTree cl f).queues = c.queues := (modifyTree_keeps c cl f).2.1

@[simp] theorem modifyTree_mem : (c.modifyTree cl f).mem = c.mem := by
  obtain ⟨-, -, -, -, -, hmem, -⟩ := modifyTree_keeps c cl f
  exact hmem

@[simp] theorem modifyTree_cluster (cl' : Cl) : (c.modifyTree cl f).cluster cl' = c.cluster cl' := by
  obtain ⟨-, -, -, -, -, -, -, -, -, -, -, hk, hl, hc, hs⟩ := modifyTree_keeps c cl f
  cases cl' <;> assumption

end

/-! ## A lane that completes, or fails (03 R81; 04 R102) -/

section
variable {s : State} {n : Nat} {cl : Cl} {no : Nat} {f : Flight} {pre post : List Flight}

theorem inFlightAs_congr {t : State} (h : (t.cluster n cl).flights = (s.cluster n cl).flights) (hf : InFlightAs s n cl no f pre post) :
    InFlightAs t n cl no f pre post := by
  obtain ⟨hs, hno, hwatch, hother⟩ := hf
  exact ⟨h.trans hs, hno, hwatch, hother⟩

theorem filter_inFlight {no : Nat} (hno : f.no = no) (h : ∀ g ∈ pre ++ post, g.no ≠ no) :
    (pre ++ f :: post).filter (fun g => decide (g.no ≠ no)) = pre ++ post := by
  have hkeep : ∀ l : List Flight, (∀ g ∈ l, g.no ≠ no) → l.filter (fun g => decide (g.no ≠ no)) = l := fun l hl =>
    List.filter_eq_self.2 fun g hg => decide_eq_true (hl g hg)
  rw [List.filter_append, List.filter_cons_of_neg (by simp [hno]), hkeep _ fun g hg => h g (List.mem_append_left _ hg),
    hkeep _ fun g hg => h g (List.mem_append_right _ hg)]

/-- A lane in flight that completes leaves its cluster's flights, and that is all. -/
theorem completeFlight_inFlight (h : InFlightAs s n cl no f pre post) :
    s.completeFlight n cl no = s.putCluster n cl { s.cluster n cl with flights := pre ++ post } := by
  obtain ⟨hs, hno, hwatch, hother⟩ := h
  have hfind : List.find? (fun g : Flight => decide (g.no = no)) (s.cluster n cl).flights = some f := by
    rw [hs, List.find?_append, List.find?_eq_none.2 fun g hg => by simpa using hother g (List.mem_append_left _ hg)]
    simp [hno]
  simp only [State.completeFlight, hfind, hwatch]
  rw [hs, filter_inFlight hno hother]

theorem completeFlight_putCore {c : Core} (hc : (c.cluster cl).flights = (s.cluster n cl).flights) (h : InFlightAs s n cl no f pre post) :
    (s.putCore n c).completeFlight n cl no = s.putCore n (c.putCluster cl { c.cluster cl with flights := pre ++ post }) := by
  have ht : InFlightAs (s.putCore n c) n cl no f pre post := inFlightAs_congr (by simpa [State.cluster] using hc) h
  rw [completeFlight_inFlight ht, State.putCluster, putCore_putCore, State.cluster, core_putCore_same]

/-- A failing lane that has no match to raise is in flight as it was. -/
theorem map_unwatch (hno : f.no = no) (hwatch : f.watch = none) (h : ∀ g ∈ pre ++ post, g.no ≠ no) :
    (pre ++ f :: post).map (fun g => if g.no = no then { g with watch := none } else g) = pre ++ f :: post := by
  refine (List.map_congr_left fun g hg => ?_).trans (List.map_id _)
  split
  · next hg' =>
    obtain hp | rfl | hp : g ∈ pre ∨ g = f ∨ g ∈ post := by simpa using hg
    · exact absurd hg' (h g (List.mem_append_left _ hp))
    · rw [← hwatch]
      rfl
    · exact absurd hg' (h g (List.mem_append_right _ hp))
  · rfl

theorem cluster_withCues (c : Core) (cues : Vector (List Nat) 4) (cl : Cl) : ({ c with cues := cues } : Core).cluster cl = c.cluster cl := by
  cases cl <;> rfl

/-- A lane in flight that fails leaves its cluster's flights; its core's memory-side work is as it was. -/
theorem failFlight_inFlight {c : Core} (hc : (c.cluster cl).flights = (s.cluster n cl).flights) (h : InFlightAs s n cl no f pre post) :
    ∃ c', (s.putCore n c).failFlight n cl no = s.putCore n c' ∧ c'.mem = c.mem ∧ (c'.cluster cl).flights = pre ++ post := by
  obtain ⟨hs, hno, hwatch, hother⟩ := id h
  simp only [State.failFlight, putCore_putCore, core_putCore_same]
  refine ⟨_, completeFlight_putCore ?_ h, by simp [Core.fillLeaf], by simp⟩
  rw [Core.fillLeaf, modifyTree_cluster, cluster_withCues, cluster_putCluster_same, hc, hs]
  exact map_unwatch hno hwatch hother

/-- The lane of an answered operation, whose leaf is ready, completes: its core's registers, queues and memory-side work are as they were. -/
theorem readyLeaf_completeFlight {c : Core} (hc : (c.cluster cl).flights = (s.cluster n cl).flights) (h : InFlightAs s n cl no f pre post) :
    ∃ c', (s.putCore n (c.readyLeaf cl no)).completeFlight n cl no = s.putCore n c' ∧ c'.mem = c.mem ∧ c'.regs = c.regs ∧
      c'.queues = c.queues ∧ (c'.cluster cl).flights = pre ++ post := by
  refine ⟨_, completeFlight_putCore ?_ h, ?_⟩
  · rw [Core.readyLeaf, modifyTree_cluster, hc]
  · simp [Core.readyLeaf]

end

/-! ## The request table (05 R130) -/

/-- A core with no request out. -/
def noRemote (c : Core) : Core := { c with mem := { c.mem with remote := [] } }

section
variable {s : State} {n : Nat} {r : RemoteOp}

theorem freeRemote_only (h : (s.core n).mem.remote = [r]) : s.freeRemote n r = s.putCore n (noRemote (s.core n)) := by
  simp only [State.freeRemote, State.putRemote, h, noRemote, List.filter_cons, List.filter_nil, ne_eq, not_true_eq_false, decide_false, Bool.false_eq_true, if_false]

theorem cluster_noRemote (c : Core) (cl : Cl) : (noRemote c).cluster cl = c.cluster cl := by cases cl <;> rfl

theorem queue_noRemote (c : Core) (q : Nat) : (noRemote c).queue q = c.queue q := rfl

theorem deaden_noRemote {c : Core} (h : c.mem.remote = []) (cl : Cl) (no : Nat) : (s.putCore n c).deaden n cl no = s.putCore n c := by
  simp only [State.deaden, State.putRemote, core_putCore_same, putCore_putCore, h, List.map_nil]
  rw [← h]

/-! ## Queue entries (05 R131) -/

/-- A core whose queue q has these entries on chip. -/
def withChip (c : Core) (q : Nat) (chip : List QEntry) : Core := c.putQueue q { c.queue q with chip := chip }

theorem cluster_withChip (c : Core) (q : Nat) (chip : List QEntry) (cl : Cl) : (withChip c q chip).cluster cl = c.cluster cl := cluster_putQueue ..

theorem queue_withChip (c : Core) {q : Nat} (hq : q < 16) (chip : List QEntry) : (withChip c q chip).queue q = { c.queue q with chip := chip } := by
  simp only [withChip, Core.queue, Core.putQueue, vget_set _ _ _ _ _ hq, if_true]

/-- The entries of a lane, changed in a queue that has spilled nothing. -/
theorem mapEntry_chip {c : Core} {q : Nat} (h : (c.queue q).ring = []) (src : Nat) (g : QEntry → QEntry) :
    (s.putCore n c).mapEntry n q src g = s.putCore n (withChip c q ((c.queue q).chip.map fun e => if e.src = src then g e else e)) := by
  simp only [State.mapEntry, core_putCore_same, h, List.zipIdx_nil, List.foldl_nil, putCore_putCore, List.map_nil, withChip]

/-- A lane's only entry, changed. -/
theorem map_entry_only {left right : List QEntry} {e : QEntry} {src : Nat} (he : e.src = src) (h : ∀ x ∈ left ++ right, x.src ≠ src) (g : QEntry → QEntry) :
    (left ++ e :: right).map (fun x => if x.src = src then g x else x) = left ++ g e :: right := by
  have hkeep : ∀ l : List QEntry, (∀ x ∈ l, x.src ≠ src) → l.map (fun x => if x.src = src then g x else x) = l := fun l hl =>
    (List.map_congr_left fun x hx => if_neg (hl x hx)).trans (List.map_id _)
  rw [List.map_append, List.map_cons, if_pos he, hkeep left fun x hx => h x (List.mem_append_left _ hx),
    hkeep right fun x hx => h x (List.mem_append_right _ hx)]

/-! ## Answers (05 R129, R135) -/

/-- A core with a register of S written. -/
def withSx (c : Core) (d : Nat) (v : W64) : Core := { c with regs := c.regs.setSx d v }

theorem cluster_withSx (c : Core) (d : Nat) (v : W64) (cl : Cl) : (withSx c d v).cluster cl = c.cluster cl := by cases cl <;> rfl

theorem takeResponse_stale {a : RemoteResp} (h : current s a.src a.sInc a.rInc = false) : s.takeResponse a = s.countStalePacket := by
  simp [State.takeResponse, h]

/-- An answer to the request that its core has out. -/
theorem takeResponse_answers {a : RemoteResp} (hc : current s a.src a.sInc a.rInc = true) (hst : a.status ≤ 2) (hrs : s.fab.resend = [])
    (hr : (s.core a.core).mem.remote = [r]) (htag : r.tag = a.tag) (hhome : r.home = a.src) : s.takeResponse a = s.remoteAnswered a.core r a := by
  have hfew : ¬ 4 < a.status := by omega
  have hretry : a.status ≠ 4 := by omega
  simp [State.takeResponse, statusRetry, hc, hfew, hretry, hrs, hr, htag, hhome]

/-- The answer with the last of a lane's data completes the lane. -/
theorem remoteAnswered_ok {a : RemoteResp} {c : Core} (hr : (s.core n).mem.remote = [r]) (hd : r.dead = false) (hst : a.status = 0)
    (hdata : (s.putCore n (noRemote (s.core n))).remoteData n r a.data = s.putCore n c) (hc : c.mem.remote = []) :
    s.remoteAnswered n r a = (s.putCore n c).remoteDone n r := by
  simp [State.remoteAnswered, freeRemote_only hr, hd, hst, statusOk, hdata, hc]

theorem remoteAnswered_refused {a : RemoteResp} (hr : (s.core n).mem.remote = [r]) (hd : r.dead = false) (hst : a.status = 1 ∨ a.status = 2) :
    s.remoteAnswered n r a = (s.putCore n (noRemote (s.core n))).remoteFailed n r (some (statusTrap a.status r.home r.va.toNat)) := by
  obtain hst | hst := hst <;> simp [State.remoteAnswered, freeRemote_only hr, hd, hst, statusOk, statusPoison]

variable {f : Flight} {pre post : List Flight}

/-- A lane without a queue entry is done with its answers. -/
theorem remoteDone_plain {c : Core} (hq : r.queue = none) (hc : (c.cluster r.cl).flights = (s.cluster n r.cl).flights)
    (h : InFlightAs s n r.cl r.flight f pre post) :
    ∃ c', (s.putCore n c).remoteDone n r = s.putCore n c' ∧ c'.mem = c.mem ∧ c'.regs = c.regs ∧ c'.queues = c.queues ∧
      (c'.cluster r.cl).flights = pre ++ post := by
  simp only [State.remoteDone, hq, core_putCore_same, putCore_putCore]
  exact readyLeaf_completeFlight hc h

/-- A lane with one is done once the entry is ready. -/
theorem remoteDone_queue {c : Core} {q : Nat} (hq : r.queue = some q) (hring : (c.queue q).ring = [])
    (hc : (c.cluster r.cl).flights = (s.cluster n r.cl).flights) (h : InFlightAs s n r.cl r.flight f pre post) :
    ∃ c', (s.putCore n c).remoteDone n r = s.putCore n c' ∧ c'.mem = c.mem ∧ c'.regs = c.regs ∧
      c'.queues = (withChip c q ((c.queue q).chip.map fun e => if e.src = r.flight then { e with fill := .ready } else e)).queues ∧
      (c'.cluster r.cl).flights = pre ++ post := by
  simp only [State.remoteDone, hq, mapEntry_chip hring, core_putCore_same, putCore_putCore]
  exact readyLeaf_completeFlight (by rw [cluster_withChip, hc]) h

/-- The report of an operation that failed with a trap. -/
def remoteReport (r : RemoteOp) (t : Trap) : Report := { cl := r.cl, trap := { t with lseq := r.iseq, job := remoteWord }, who := r.who }

/-- A remote operation that fails completes its lane with a report. -/
theorem remoteFailed_reports (t : Trap) (hq : r.queue = none) (h : InFlightAs s n r.cl r.flight f pre post) :
    ∃ c', (s.putCore n (noRemote (s.core n))).remoteFailed n r (some t) = s.putCore n c' ∧ c'.mem.remote = [] ∧
      c'.mem.reports = (s.core n).mem.reports ++ [remoteReport r t] ∧ (c'.cluster r.cl).flights = pre ++ post := by
  obtain ⟨c', heq, hmem, hfl⟩ := failFlight_inFlight (c := noRemote (s.core n)) (by rw [cluster_noRemote]; rfl) h
  simp only [State.remoteFailed, State.remoteLost, deaden_noRemote (c := noRemote (s.core n)) rfl, State.remoteEntryFailed, hq, heq,
    State.postReport, core_putCore_same, putCore_putCore]
  refine ⟨_, rfl, ?_, ?_, ?_⟩
  · simp only [hmem]
    rfl
  · simp only [hmem]
    rfl
  · rw [← hfl]
    cases r.cl <;> rfl

/-- What changes one core alone leaves memory, the bays and every other core. -/
theorem putCore_outside (c : Core) : (s.putCore n c).mem = s.mem ∧ (s.putCore n c).bays = s.bays ∧ ∀ m, m ≠ n → (s.putCore n c).core m = s.core m :=
  ⟨rfl, rfl, fun _ hm => core_putCore_other _ _ _ _ hm⟩

/-! ## Operations whose time is over, or whose home is gone (05 R135, R143) -/

theorem execRemoteTimeout_early (hr : (s.core n).mem.remote = [r]) (h : s.sys.pkgCycle.toNat < r.deadline) : execRemoteTimeout n r.tag s = .next s := by
  simp [execRemoteTimeout, hr, Nat.not_le.2 h]

theorem execRemoteTimeout_due (hr : (s.core n).mem.remote = [r]) (h : r.deadline ≤ s.sys.pkgCycle.toNat) (hd : r.dead = false) :
    execRemoteTimeout n r.tag s = .next ((s.putCore n (noRemote (s.core n))).remoteFailed n r (some (timeoutTrap r.home r.va.toNat))) := by
  simp [execRemoteTimeout, hr, h, hd, freeRemote_only hr]

theorem foldl_fixed {α β : Type} (g : α → β → α) (a : α) (l : List β) (h : ∀ b ∈ l, g a b = a) : l.foldl g a = a := by
  induction l with
  | nil => rfl
  | cons b l ih => rw [List.foldl_cons, h b List.mem_cons_self, ih fun x hx => h x (.tail _ hx)]

/-- Where one core has one request out and no bay a job, a home that is gone fails that request, and takes combining entries away. -/
theorem peerGone_only {c : Core} (hcores : s.cores = [(n, c)]) (hr : c.mem.remote = [r]) (hd : r.dead = false) (hjobs : ∀ e ∈ s.bays, e.2.jobs = [])
    {fl : Fall} (hpkg : r.home = fl.pkg) (htag : r.tag ∈ fl.tags) (hq : r.queue = none) (h : InFlightAs s n r.cl r.flight f pre post) :
    ∃ c' fab, s.peerGone fl = (s.putCore n c').withFab fab ∧ fab.peer = s.fab.peer ∧ c'.mem.remote = [] ∧
      c'.mem.reports = c.mem.reports ++ [remoteReport r (goneTrap fl.pkg r.va.toNat)] ∧ (c'.cluster r.cl).flights = pre ++ post := by
  have hcore : s.core n = c := by simp [State.core, hcores, Map.get, Map.find?]
  have hr' : (s.core n).mem.remote = [r] := by rw [hcore, hr]
  obtain ⟨c', heq, hc'⟩ := remoteFailed_reports (goneTrap fl.pkg r.va.toNat) hq h
  rw [hcore] at hc'
  refine ⟨c', ?fab, ?gone, ?peer, hc'⟩
  case gone =>
    have hout : ¬ (r.home ≠ fl.pkg ∨ (!fl.tags.contains r.tag) = true) := by simp [hpkg, htag]
    have hfound : (s.core n).mem.remote.find? (fun x => decide (x.tag = r.tag)) = some r := by simp [hr']
    simp only [State.peerGone, hcores, List.foldl_cons, List.foldl_nil, hr, Bool.or_eq_true, decide_eq_true_eq, if_neg hout, hfound, hd,
      Bool.false_eq_true, if_false, freeRemote_only hr', heq]
    rw [foldl_fixed _ _ _ fun b hb => by simp only [hjobs b hb, List.foldl_nil]]
  case peer => rfl

/-- A package whose entry is set otherwise than UP is gone. -/
theorem setPeer_fallen {pkg state : Nat} {inc : W16} (h : state ≠ 1) : s.setPeer pkg state inc =
    (s.withFab { s.fab with peer := s.fab.peer.setIfInBounds pkg (BitVec.ofNat 64 (inc.toNat * 2 ^ 48 + state % 4)) }).peerGone (fallOf s pkg) :=
  if_neg h

theorem tag_mem_fallOf {c : Core} (hcores : (n, c) ∈ s.cores) (hr : r ∈ c.mem.remote) : r.tag ∈ (fallOf s r.home).tags :=
  List.mem_append_left _ (List.mem_flatMap.2 ⟨(n, c), hcores, List.mem_map.2 ⟨r, List.mem_filter.2 ⟨hr, decide_eq_true rfl⟩, rfl⟩⟩)

end
end Sys2Proof.Consistency
end

section
/-! Remote requests and their answers, as `exec` performs them (03 R89; 05 R129 to R132, R135 to R137, R142, R143; 14 R386; 16 R416, R427). -/

namespace Sys2Proof.Consistency
open Sys2Proof Sys2Proof.Machine Sys2Proof.Laws Sys2Proof.Claim

/-! ## At the home -/

section
variable {s : State} {r : RemoteReq}

theorem exec_remoteRequest_reserved (h : 2 < r.op) : exec (.remoteRequest r) s = .next s := congrArg Host.Outcome.next (if_pos h)

theorem exec_remoteRequest (h : r.op ≤ 2) : exec (.remoteRequest r) s = .next (s.takeRequest r) :=
  congrArg Host.Outcome.next (if_neg (Nat.not_lt.2 h))

/-- A request leaves memory m, and is answered with a status and data. -/
def Answers (s : State) (r : RemoteReq) (status : Nat) (bs : List Byte) (m : Memory) : Prop :=
  ∃ t, exec (.remoteRequest r) s = .next t ∧ t.mem = m ∧ t.cores = s.cores ∧ t.fab.sent = s.fab.sent ++ [.response (answerTo s r status bs)]

theorem answers_of_homeAccess {st : Nat} {bs : List Byte} {m : Memory} (hop : r.op ≤ 2) (ht : s.takeRequest r = s.performRequest r)
    (h : s.homeAccess false r.ctx r.striped r.addr r.key r.op r.len r.aop r.data = (st, bs, s.withMem m)) : Answers s r st bs m :=
  ⟨_, (exec_remoteRequest hop).trans (congrArg Host.Outcome.next (ht.trans (performRequest_of_homeAccess h))), rfl, rfl, rfl⟩

/-- What the home has not installed is out of its range. -/
theorem homeStatus_absent (h : installed s r.addr r.len = false) : homeStatus s r.striped r.addr r.len r.key = 1 := by
  simp [homeStatus, h, statusRange]

theorem answers_refused {st : Nat} (hop : r.op ≤ 2) (ht : s.takeRequest r = s.performRequest r)
    (hst : homeStatus s r.striped r.addr r.len r.key = st) (h0 : st ≠ 0) : Answers s r st [] s.mem :=
  answers_of_homeAccess hop ht (by subst hst; exact homeAccess_refused h0)

/-- A request that crosses to another die. -/
theorem exec_remoteRequest_crosses (hop : r.op ≤ 2) (hc : current s r.src r.sInc r.rInc = true) (hi : installed s r.addr r.len = true)
    (hd : Config.ingressDie r.src r.core r.cls % 4 ≠ dieOfPa r.addr % 4) :
    exec (.remoteRequest r) s = .next (s.crossDie (Config.ingressDie r.src r.core r.cls % 4) (dieOfPa r.addr % 4) r) := by
  rw [exec_remoteRequest hop, takeRequest_elsewhere hc hi hd]

/-- A request whose stream is waited for waits where it came in. -/
theorem exec_remoteRequest_waits (hop : r.op ≤ 2) (hc : current s r.src r.sInc r.rInc = true) (hon : AllOn s) (hi : installed s r.addr r.len = true)
    (hd : Config.ingressDie r.src r.core r.cls % 4 = dieOfPa r.addr % 4) (hw : StreamMate s r s.fab.came) :
    exec (.remoteRequest r) s = .next (s.waitHere (dieOfPa r.addr % 4) r) := by
  rw [exec_remoteRequest hop, takeRequest_waits hc hi hd hw, wakeRange_of_allOn (s := s.waitHere _ r) hon]

end

/-! ## Between the dies -/

section
variable {s : State} {die src : Nat} {w : Wire} {before after : List Wire}

/-- A die that may apply another's request performs a read of it, and both know then what the stamp names. -/
theorem exec_crossDieApply_read (hwire : (s.die die).wire = before ++ w :: after) (hb : ∀ x ∈ before, x.src ≠ src) (hw : w.src = src)
    (hsrc : src < 4) {r : RemoteReq} {bs : List Byte} (hr : w.req = some r) (hm : (s.die die).mayApply die w = true) (hs : ¬ StreamMate s r w.came)
    (hon : AllOn s) (hop : r.op = 0) (hst : homeStatus s r.striped r.addr r.len r.key = 0) (hread : s.mem.read r.ctx r.key r.addr r.len = some bs) :
    ∃ t, exec (.crossDieApply die src) s = .next t ∧ t.mem = s.mem ∧ (t.die die).wire = before ++ after ∧ vget 0 (t.die die).seen src = w.no ∧
      (t.die die).vector = mergeVec (s.die die).vector w.stamp ∧ t.fab.sent = s.fab.sent ++ [.response (answerTo s r 0 bs)] := by
  have hex := (execCrossDieApply_oldest hwire hb hw).trans (congrArg Host.Outcome.next (applyWire_request hr hm hs hon))
  rw [performRequest_of_homeAccess (m := s.mem) (st := 0) (bs := bs) (by rw [hop]; exact homeAccess_read hst hread)] at hex
  refine ⟨_, hex, rfl, ?_⟩
  rw [tellDie_die (by rw [sendResponse_die, die_withMem, die_putDie_same]), sendResponse_die, die_withMem, die_putDie_same]
  exact ⟨rfl, by rw [vget_set _ _ _ _ _ hsrc, if_pos rfl], rfl, rfl⟩

end

/-! ## At the core that asked -/

section
variable {s : State} {n : Nat} {r : RemoteOp} {f : Flight} {pre post : List Flight}

/-- The operation is over: its entry and its lane are gone, and nothing of the package outside its core has changed. -/
def Ends (s t : State) (n : Nat) (r : RemoteOp) (left : List Flight) : Prop :=
  (t.core n).mem.remote = [] ∧ (t.cluster n r.cl).flights = left ∧ t.mem = s.mem ∧ t.bays = s.bays ∧ ∀ m, m ≠ n → t.core m = s.core m

theorem ends_putCore {c : Core} (hrem : c.mem.remote = []) (hfl : (c.cluster r.cl).flights = pre ++ post) : Ends s (s.putCore n c) n r (pre ++ post) := by
  obtain ⟨hmem, hbays, hother⟩ := putCore_outside (s := s) (n := n) c
  exact ⟨by rw [core_putCore_same, hrem], by rw [State.cluster, core_putCore_same, hfl], hmem, hbays, hother⟩

variable {a : RemoteResp}

theorem exec_remoteResponse_answers (hc : current s a.src a.sInc a.rInc = true) (hst : a.status ≤ 2) (hrs : s.fab.resend = []) (hcore : a.core = n)
    (hr : (s.core n).mem.remote = [r]) (htag : r.tag = a.tag) (hhome : r.home = a.src) :
    exec (.remoteResponse a) s = .next (s.remoteAnswered n r a) := by
  subst hcore
  exact congrArg Host.Outcome.next (takeResponse_answers hc hst hrs hr htag hhome)

/-- The data of a load come to its queue entry. -/
theorem remoteAnswered_load (hr : (s.core n).mem.remote = [r]) (hd : r.dead = false) (hst : a.status = 0) (h : InFlightAs s n r.cl r.flight f pre post)
    {q : Nat} {e : QEntry} {left right : List QEntry} (hop : r.op = 0) (hq : r.queue = some q) (hq16 : q < 16)
    (hring : ((s.core n).queue q).ring = []) (hchip : ((s.core n).queue q).chip = left ++ e :: right) (he : e.src = r.flight)
    (hothers : ∀ x ∈ left ++ right, x.src ≠ r.flight) :
    Ends s (s.remoteAnswered n r a) n r (pre ++ post) ∧ ((s.remoteAnswered n r a).core n).regs = (s.core n).regs ∧
      (((s.remoteAnswered n r a).core n).queue q).chip = left ++ { e.add r.off (a.data.take r.len) with fill := .ready } :: right := by
  have hdata : (s.putCore n (noRemote (s.core n))).remoteData n r a.data =
      s.putCore n (withChip (noRemote (s.core n)) q (left ++ e.add r.off (a.data.take r.len) :: right)) := by
    simp only [State.remoteData, hop, if_true, hq]
    rw [mapEntry_chip (c := noRemote (s.core n)) hring, queue_noRemote, hchip, map_entry_only he hothers]
  have hqueue := queue_withChip (noRemote (s.core n)) hq16 (left ++ e.add r.off (a.data.take r.len) :: right)
  obtain ⟨c', heq, hmem, hregs, hqueues, hfl⟩ := remoteDone_queue hq (by rw [hqueue]; exact hring) (by rw [cluster_withChip, cluster_noRemote]; rfl) h
  rw [remoteAnswered_ok hr hd hst hdata rfl, heq]
  refine ⟨ends_putCore (by rw [hmem]; rfl) hfl, by rw [core_putCore_same, hregs]; rfl, ?_⟩
  rw [core_putCore_same, Core.queue, hqueues]
  refine (congrArg Queue.chip (queue_withChip _ hq16 _)).trans ?_
  rw [hqueue]
  exact map_entry_only (e := e.add r.off (a.data.take r.len)) he hothers _

/-- An answered store leaves registers and queues. -/
theorem remoteAnswered_store (hr : (s.core n).mem.remote = [r]) (hd : r.dead = false) (hst : a.status = 0) (h : InFlightAs s n r.cl r.flight f pre post)
    (hop : r.op = 1) (hq : r.queue = none) :
    Ends s (s.remoteAnswered n r a) n r (pre ++ post) ∧ ((s.remoteAnswered n r a).core n).regs = (s.core n).regs ∧
      ((s.remoteAnswered n r a).core n).queues = (s.core n).queues := by
  have hdata : (s.putCore n (noRemote (s.core n))).remoteData n r a.data = s.putCore n (noRemote (s.core n)) := by simp [State.remoteData, hop]
  obtain ⟨c', heq, hmem, hregs, hqueues, hfl⟩ := remoteDone_plain (c := noRemote (s.core n)) hq (by rw [cluster_noRemote]; rfl) h
  rw [remoteAnswered_ok hr hd hst hdata rfl, heq]
  exact ⟨ends_putCore (by rw [hmem]; rfl) hfl, by rw [core_putCore_same, hregs]; rfl, by rw [core_putCore_same, hqueues]; rfl⟩

/-- The old value comes to the register of S that waits for it. -/
theorem remoteAnswered_atomic (hr : (s.core n).mem.remote = [r]) (hd : r.dead = false) (hst : a.status = 0) (h : InFlightAs s n r.cl r.flight f pre post)
    {d : Nat} (hop : r.op = 2) (hq : r.queue = none) (hdest : r.dest = some d) :
    Ends s (s.remoteAnswered n r a) n r (pre ++ post) ∧
      ((s.remoteAnswered n r a).core n).regs = (s.core n).regs.setSx d (amoResult r.fmt (ofBytes (a.data.take r.len))) := by
  have hdata : (s.putCore n (noRemote (s.core n))).remoteData n r a.data =
      s.putCore n (withSx (noRemote (s.core n)) d (amoResult r.fmt (ofBytes (a.data.take r.len)))) := by
    simp [State.remoteData, hop, hq, hdest, putCore_putCore, withSx]
  have hflights := congrArg Cluster.flights (cluster_withSx (noRemote (s.core n)) d (amoResult r.fmt (ofBytes (a.data.take r.len))) r.cl)
  obtain ⟨c', heq, hmem, hregs, -, hfl⟩ := remoteDone_plain hq (hflights.trans (by rw [cluster_noRemote]; rfl)) h
  rw [remoteAnswered_ok hr hd hst hdata rfl, heq]
  exact ⟨ends_putCore (by rw [hmem]; rfl) hfl, by rw [core_putCore_same, hregs]; rfl⟩

/-- A failed operation ends with its report. -/
theorem remoteFailed_ends (t : Trap) (hq : r.queue = none) (h : InFlightAs s n r.cl r.flight f pre post) :
    let u := (s.putCore n (noRemote (s.core n))).remoteFailed n r (some t)
    Ends s u n r (pre ++ post) ∧ (u.core n).mem.reports = (s.core n).mem.reports ++ [remoteReport r t] := by
  obtain ⟨c', heq, hrem, hrep, hfl⟩ := remoteFailed_reports t hq h
  simp only [heq]
  exact ⟨ends_putCore hrem hfl, by rw [core_putCore_same, hrep]⟩

/-- A package that is no longer up fails the one request that is out to it. -/
theorem exec_peerStateUpdate_fallen {c : Core} {pkg : Nat} {state : BitVec 2} (inc : W16) (hpkg : pkg < 64) (hstate : state ≠ 1)
    (hcores : s.cores = [(n, c)]) (hr : c.mem.remote = [r]) (hhome : r.home = pkg) (hd : r.dead = false) (hq : r.queue = none)
    (hjobs : ∀ e ∈ s.bays, e.2.jobs = []) (h : InFlightAs s n r.cl r.flight f pre post) :
    ∃ t, exec (.peerStateUpdate pkg state inc) s = .next t ∧ vget 0 t.fab.peer pkg = BitVec.ofNat 64 (inc.toNat * 2 ^ 48 + state.toNat) ∧
      Ends s t n r (pre ++ post) ∧ (t.core n).mem.reports = c.mem.reports ++ [remoteReport r (goneTrap pkg r.va.toNat)] := by
  subst hhome
  have hne : state.toNat ≠ 1 := fun h1 => hstate (BitVec.eq_of_toNat_eq h1)
  have htag : r.tag ∈ (fallOf s r.home).tags := tag_mem_fallOf (c := c) (by rw [hcores]; exact List.mem_singleton_self _) (by rw [hr]; exact List.mem_singleton_self _)
  obtain ⟨c', fab, heq, hpeer, hrem, hrep, hfl⟩ := peerGone_only
    (s := s.withFab { s.fab with peer := s.fab.peer.setIfInBounds r.home (BitVec.ofNat 64 (inc.toNat * 2 ^ 48 + state.toNat % 4)) })
    hcores hr hd hjobs rfl htag hq (inFlightAs_congr rfl h)
  refine ⟨_, congrArg Host.Outcome.next ((setPeer_fallen hne).trans heq), ?_, ends_putCore (s := s) hrem hfl, ?_⟩
  · rw [withFab_fab, hpeer, withFab_fab, vget_set _ _ _ _ _ hpkg, if_pos rfl, Nat.mod_eq_of_lt state.isLt]
  · rw [core_withFab, core_putCore_same]
    exact hrep

end

/-- Settles O40, clause by clause: what a home does with a request's packet; what a die does with the oldest of what it holds from another; and how an
operation of this package ends with an answer, with its time, or with its home. -/
theorem remoteRequestsAndAnswers : Obligations.RemoteRequestsAndAnswers := by
  refine ⟨fun s r => ⟨exec_remoteRequest_reserved, fun hop hc => ?stale, fun hop hc hon => ⟨fun hi => ?absent, fun hi hd hw => ?waits,
    fun hi hd hw => ?performed, fun hi hd => ?crosses⟩⟩, ⟨fun s d e hd he hne => ⟨execDieClockBeat_due hd he hne, execDieClockBeat_early⟩,
    fun s die src w before after hwire hb hw hsrc hdie => ⟨fun hr ht => ?beat, fun hr ht hm => ?tileWaits,
      fun r hr => ⟨fun h => ?requestWaits, fun bs hm hs hon hop hst hread => ?applied⟩⟩⟩,
    fun s a n r f pre post hcore hr htag hhome hrs hd h => ⟨fun hc => ?staleAnswer, fun hc hst => ?ok, fun hc hst hq => ?refused⟩,
    fun s n r f pre post hr h => ⟨execRemoteTimeout_early hr, fun hdue hd hq => ?timeout⟩,
    fun s pkg inc hpkg => ⟨rfl, fun n c r f pre post state hstate hcores hr hhome hd hq hjobs h => ?fallen⟩⟩
  case stale => rw [exec_remoteRequest hop, takeRequest_stale hc, State.countStalePacket]
  case absent => exact answers_refused hop (takeRequest_absent hc hi) (homeStatus_absent hi) Nat.one_ne_zero
  case waits => exact ⟨_, exec_remoteRequest_waits hop hc hon hi hd hw, rfl, rfl, rfl, waitHere_wire s _ r⟩
  case performed =>
    have ht : s.takeRequest r = s.performRequest r := takeRequest_performed hc hi hon hd hw
    refine ⟨fun hst => answers_refused hop ht rfl (by omega), fun bs hst h0 hbs => ?_, fun hst h1 hfree => ?_, fun old m hst h2 hm => ?_⟩
    · exact answers_of_homeAccess hop ht (by rw [h0]; exact homeAccess_read hst hbs)
    · exact answers_of_homeAccess hop ht (by rw [h1]; exact homeAccess_write hst hfree)
    · exact answers_of_homeAccess hop ht (by rw [h2]; exact homeAccess_atomic hst hm)
  case crosses =>
    exact ⟨_, exec_remoteRequest_crosses hop hc hi hd, cross_mem .., cross_cores .., cross_came .., cross_sent .., cross_bridge ..,
      cross_die_src _ _ _ _ _ hd, cross_die_dst _ _ _ _ _ hd⟩
  case beat =>
    refine ⟨_, (execCrossDieApply_oldest hwire hb hw).trans (congrArg Host.Outcome.next (applyWire_beat hr ht)), rfl, rfl, ?_, ?_, ?_⟩
    · rw [die_putDie_same]
    · rw [die_putDie_same, vget_set _ _ _ _ _ hsrc, if_pos rfl]
    · rw [die_putDie_same]
  case tileWaits => exact (execCrossDieApply_oldest hwire hb hw).trans (congrArg Host.Outcome.next (applyWire_tile_waits hr ht hm))
  case requestWaits => exact (execCrossDieApply_oldest hwire hb hw).trans (congrArg Host.Outcome.next (applyWire_request_waits hr h))
  case applied =>
    obtain ⟨t, hex, hmem, hwires, hseen, hvec, hsent⟩ := exec_crossDieApply_read hwire hb hw hsrc hr hm hs hon hop hst hread
    exact ⟨t, hex, hmem, hwires, hseen, fun k hk => by rw [hvec, vget_mergeVec _ _ hk], _, hsent, rfl, rfl⟩
  case staleAnswer => exact congrArg Host.Outcome.next (takeResponse_stale hc)
  case ok =>
    have hex := exec_remoteResponse_answers hc (by omega) hrs hcore hr htag hhome
    refine ⟨fun q e left right hop hq hq16 hring hchip he hothers => ?_, fun hop hq => ?_, fun d hop hq hdest => ?_⟩
    · obtain ⟨hends, hregs, hentry⟩ := remoteAnswered_load hr hd hst h hop hq hq16 hring hchip he hothers
      exact ⟨_, ⟨hex, hends⟩, hregs, hentry⟩
    · obtain ⟨hends, hregs, hqueues⟩ := remoteAnswered_store hr hd hst h hop hq
      exact ⟨_, ⟨hex, hends⟩, hregs, hqueues⟩
    · obtain ⟨hends, hregs⟩ := remoteAnswered_atomic hr hd hst h hop hq hdest
      exact ⟨_, ⟨hex, hends⟩, hregs⟩
  case refused =>
    have hex := exec_remoteResponse_answers hc (by omega) hrs hcore hr htag hhome
    rw [remoteAnswered_refused hr hd hst] at hex
    obtain ⟨⟨hrem, hfl, hmem, -⟩, hrep⟩ := remoteFailed_ends (statusTrap a.status r.home r.va.toNat) hq h
    refine ⟨_, hex, hrem, hfl, hmem, hrep.trans ?_⟩
    obtain hst | hst := hst <;> rw [hst] <;> rfl
  case timeout =>
    obtain ⟨⟨hrem, hfl, hmem, -⟩, hrep⟩ := remoteFailed_ends (timeoutTrap r.home r.va.toNat) hq h
    exact ⟨_, execRemoteTimeout_due hr hdue hd, hrem, hfl, hmem, hrep⟩
  case fallen =>
    obtain ⟨t, hex, hpeer, ⟨hrem, hfl, hmem, -⟩, hrep⟩ := exec_peerStateUpdate_fallen inc hpkg hstate hcores hr hhome hd hq hjobs h
    exact ⟨t, hex, hpeer, hrem, hfl, hmem, hrep⟩

end Sys2Proof.Consistency
end

section
/-! What the package of a collective's destination does with a contribution (05 R136, R137, R139 to R142; 10 R284; 02 R70). -/

namespace Sys2Proof.Consistency
open Sys2Proof Sys2Proof.Machine Sys2Proof.Laws Sys2Proof.Claim

/-! ## Lists with one entry that counts -/

section
variable {α : Type} {x : α} {pre post : List α}

theorem map_only {P : α → Prop} [DecidablePred P] (g : α → α) (hx : P x) (h : ∀ y ∈ pre ++ post, ¬ P y) :
    (pre ++ x :: post).map (fun y => if P y then g y else y) = pre ++ g x :: post := by
  have hkeep : ∀ l : List α, (∀ y ∈ l, ¬ P y) → l.map (fun y => if P y then g y else y) = l := fun l hl =>
    (List.map_congr_left fun y hy => if_neg (hl y hy)).trans (List.map_id _)
  rw [List.map_append, List.map_cons, if_pos hx, hkeep pre fun y hy => h y (List.mem_append_left _ hy),
    hkeep post fun y hy => h y (List.mem_append_right _ hy)]

theorem filter_but_one {p : α → Bool} (hx : p x = false) (h : ∀ y ∈ pre ++ post, p y = true) : (pre ++ x :: post).filter p = pre ++ post := by
  rw [List.filter_append, List.filter_cons_of_neg (Bool.not_eq_true _ ▸ hx), ← List.filter_append, List.filter_eq_self.2 h]

end

/-! ## Answers (16 R416) -/

section
variable {s t : State} {p : Contrib} {st : Nat}

/-- An answer is a matter of the fabric alone, and not of its combining tables. -/
theorem answer_withFab (s : State) (p : Contrib) (st : Nat) : ∃ f : Fabric, s.answer p st = s.withFab f ∧ f.combs = s.fab.combs := by
  unfold State.answer State.contribAnswered
  split
  · split
    · exact ⟨s.fab, rfl, rfl⟩
    · exact ⟨_, rfl, rfl⟩
  · exact ⟨_, rfl, rfl⟩

@[simp] theorem answer_mem : (s.answer p st).mem = s.mem := by
  obtain ⟨f, hf, -⟩ := answer_withFab s p st
  rw [hf, withFab_mem]

@[simp] theorem answer_bays : (s.answer p st).bays = s.bays := by
  obtain ⟨f, hf, -⟩ := answer_withFab s p st
  rw [hf, withFab_bays]

@[simp] theorem answer_combs : (s.answer p st).fab.combs = s.fab.combs := by
  obtain ⟨f, hf, hcombs⟩ := answer_withFab s p st
  rw [hf, withFab_fab, hcombs]

/-- A contribution of another package is answered by a packet. -/
theorem answered_answer (hsent : t.fab.sent = s.fab.sent) (hself : p.src ≠ selfPkg t) : Answered s (t.answer p st) p st := by
  rw [State.answer, if_neg hself, Answered, ← hsent]
  exact ⟨_, rfl, rfl, rfl, rfl, rfl, rfl⟩

end

/-! ## Jobs of the hazard table -/

section
variable {s t : State} {b : Nat}

theorem collJobs_congr (h : t.bays = s.bays) (ctx : W16) (group : Nat) : collJobs t ctx group = collJobs s ctx group := by
  simp only [collJobs, h]

theorem job?_congr (h : t.bays = s.bays) (seq : W32) : t.job? b seq = s.job? b seq := by
  simp only [State.job?, State.bay, h]

/-- A job put in its own place is found there. -/
theorem job?_putJob {j k : Job} (h : s.job? b k.seq = some j) : (s.putJob b k).job? b k.seq = some k := by
  have hsame : (fun x : Job => decide (x.seq = k.seq)) ∘ (fun x => if x.seq = k.seq then k else x) = fun x => decide (x.seq = k.seq) := by
    funext x
    by_cases hx : x.seq = k.seq <;> simp [hx]
  have hj : j.seq = k.seq := by simpa using List.find?_some h
  simp only [State.job?] at h
  simp only [State.job?, State.putJob, bay_putBay_same, List.find?_map, hsame, h, Option.map_some, if_pos hj]

end

/-! ## Where a contribution's packet goes (05 R136, R137, R142) -/

section
variable {s : State} {p : Contrib}

theorem contribPacket_stale (h : current s p.src p.sInc p.rInc = false) :
    s.contribPacket p = s.withFab { s.fab with peerStale := s.fab.peerStale + 1 } := by
  simp [State.contribPacket, h, State.countStalePacket]

theorem contribPacket_crosses (hc : current s p.src p.sInc p.rInc = true) (hp : p.place = true)
    (hd : Config.ingressDie p.src 0 0 % 4 ≠ dieOfPa p.dst % 4) : s.contribPacket p =
      s.cross (Config.ingressDie p.src 0 0 % 4) (dieOfPa p.dst % 4) 0 none (some p) ((Packet.contrib p 0).payload (selfPkg s)) := by
  simp [State.contribPacket, hc, hp, hd]

/-- What comes in stays at its die: it is no tile placed here, or its bytes are of this die. -/
def Stays (p : Contrib) : Prop := p.place = false ∨ Config.ingressDie p.src 0 0 % 4 = dieOfPa p.dst % 4

theorem contribPacket_stays (hc : current s p.src p.sInc p.rInc = true) (hst : Stays p) : s.contribPacket p = s.takeContrib p := by
  obtain hp | hd := hst
  · simp [State.contribPacket, hc, hp]
  · simp [State.contribPacket, hc, hd]

theorem takeContrib_aborted (h : (p.ctx, p.group) ∈ s.fab.abortedHere) : s.takeContrib p = s := by
  simp [State.takeContrib, h]

/-! ## A slice asleep (02 R70) -/

/-- What is not on is woken. -/
theorem awake_error {pa : Nat} {h : Halt} (herr : awake s pa = .error h) : ∃ b, h = .wake b := by
  unfold awake at herr
  split at herr
  · split at herr
    · cases herr
    · exact ⟨_, (Except.error.inj herr).symm⟩
  · cases herr

theorem awakeAll_error {pa n : Nat} {h : Halt} (herr : awakeAll s pa n = .error h) : ∃ b, h = .wake b := by
  unfold awakeAll at herr
  generalize hasleep : List.filterMap _ _ = asleep at herr
  cases asleep with
  | nil => cases herr
  | cons h' rest =>
    obtain rfl : h' = h := Except.error.inj herr
    obtain ⟨i, -, hi⟩ := List.mem_filterMap.1 (hasleep ▸ List.mem_cons_self : h' ∈ _)
    split at hi
    · cases hi
    · next e hawake => exact Option.some.inj hi ▸ awake_error hawake

theorem wakeSlice_mem (b : Nat) : (s.wakeSlice b).mem = s.mem := by
  unfold State.wakeSlice
  simp only
  split <;> rfl

theorem wakeSlice_fab (b : Nat) : (s.wakeSlice b).fab = s.fab := by
  unfold State.wakeSlice
  simp only
  split <;> rfl

/-- A contribution of another package whose slice is asleep wakes it, and waits here. -/
theorem takeContrib_asleep (hab : (p.ctx, p.group) ∉ s.fab.abortedHere) (hself : p.src ≠ selfPkg s) (h : (awakeAll s p.dst 64).isOk = false) :
    ∃ b, s.takeContrib p = (s.wakeSlice b).keep p := by
  cases herr : awakeAll s p.dst 64 with
  | ok _ => simp [herr, Except.isOk, Except.toBool] at h
  | error e =>
    obtain ⟨b, rfl⟩ := awakeAll_error herr
    exact ⟨b, by simp [State.takeContrib, hab, hself, herr, Except.isOk, Except.toBool, State.delayed]⟩

/-! ## Taken (10 R284; 15 R398) -/

/-- A package that has noted what came for its collectives. -/
def noted (s : State) (l : List Contrib) : State := s.withFab { s.fab with arrived := l }

theorem noteArrival_noted (s : State) (p : Contrib) : ∃ l, s.noteArrival p = noted s l := by
  unfold State.noteArrival
  split
  · exact ⟨s.fab.arrived, rfl⟩
  · exact ⟨_, rfl⟩

/-- A contribution of another package, of its life and of a group that is not aborted, reaches slices that are on. -/
structure Live (s : State) (p : Contrib) : Prop where
  current : current s p.src p.sInc p.rInc = true
  wanted : (p.ctx, p.group) ∉ s.fab.abortedHere
  foreign : p.src ≠ selfPkg s
  stays : Stays p
  on : AllOn s

/-- One that no job here disagrees with is noted, and goes to its place, to the copy engine, or to the combining table. -/
theorem contribPacket_live (h : Live s p) (hag : ∀ x ∈ collJobs s p.ctx p.group, agrees x.2 p = true) : ∃ l, s.contribPacket p =
    if p.place then (noted s l).placeTile p else if p.flagged then (noted s l).flagTile p else (noted s l).combine p := by
  obtain ⟨hc, hab, -, hst, hon⟩ := h
  obtain ⟨l, hl⟩ := noteArrival_noted s p
  have hfind : (collJobs s p.ctx p.group).find? (fun x => !agrees x.2 p) = none := List.find?_eq_none.2 fun x hx => by simp [hag x hx]
  refine ⟨l, ?_⟩
  rw [contribPacket_stays hc hst, ← hl]
  simp [State.takeContrib, hab, awakeAll_of_allOn hon, Except.isOk, Except.toBool, hfind]

/-- A flagged packet is a contribution with its flag set. -/
def flaggedOf (p : Contrib) : Contrib := { p with flagged := true }

end

/-! ## A job of the group runs here (05 R139, R141) -/

section
variable {s t : State} {p : Contrib} {b u : Nat} {j : Job} {r : Run}

/-- The group of a contribution has one job here, which has started, and whose destination has the contribution's tile. -/
structure HasTile (s : State) (p : Contrib) (b : Nat) (j : Job) (u : Nat) (r : Run) : Prop where
  only : collJobs s p.ctx p.group = [(b, j)]
  started : j.started = true
  tile : tileAt j p.dst = some (u, r)

theorem HasTile.find (h : HasTile s p b j u r) : (collJobs s p.ctx p.group).find? (fun x => x.2.started) = some (b, j) := by
  simp [h.only, h.started]

theorem placeTile_started (h : HasTile s p b j u r) : s.placeTile p =
    ((s.withMem (writeTile s j u p.tile)).putJob b { j with tiles := Map.set j.tiles u p.tile }).answer p 0 := by
  simp [State.placeTile, h.find, h.tile, State.tileDone, statusOk]

theorem placeTile_none (h : collJobs s p.ctx p.group = []) : s.placeTile p = s.answer p 4 := by
  simp [State.placeTile, h, statusRetry]

theorem foldTile_eq (op : Nat) (acc t : List W32) : foldTile op acc t = folded op acc t := rfl

/-- The fold of a tile in memory, with the count of what it holds. -/
def foldedTo (s : State) (b : Nat) (j : Job) (u : Nat) (tile : List W32) (count : Nat) : State :=
  (s.withMem (writeTile s j u tile)).putJob b { j with folded := Map.set j.folded u count }

/-- A tile that is not next: the fold of the first ranks where something is folded already, or that of one rank out of its turn. -/
def OutOfOrder (p : Contrib) (folded : Nat) : Prop := if p.isPrefix then folded ≠ 0 else p.idx ≠ folded

theorem flagTile_outOfOrder (h : HasTile s p b j u r) (ho : OutOfOrder p (Map.get 0 j.folded u)) : s.flagTile p = s.answer p 4 := by
  unfold OutOfOrder at ho
  simp only [State.flagTile, h.find, h.tile, statusRetry]
  split at ho
  · next hp => rw [if_pos hp, if_neg ho]
  · next hp => rw [if_neg hp, if_pos ho]

theorem flagTile_isPrefix (h : HasTile s p b j u r) (hp : p.isPrefix = true) (h0 : Map.get 0 j.folded u = 0) (hlt : p.idx < maskCount j.mask) :
    s.flagTile p = (foldedTo s b j u p.tile p.idx).answer p 0 := by
  simp [State.flagTile, h.find, h.tile, hp, h0, Nat.ne_of_lt hlt, statusOk, foldedTo]

theorem flagTile_first (h : HasTile s p b j u r) (hp : p.isPrefix = false) (hidx : p.idx = 0) (h0 : Map.get 0 j.folded u = 0)
    (hn : 2 ≤ maskCount j.mask) : s.flagTile p = (foldedTo s b j u p.tile 1).answer p 0 := by
  have h1 : 1 ≠ maskCount j.mask := by omega
  simp [State.flagTile, h.find, h.tile, hp, hidx, h0, h1, statusOk, foldedTo]

theorem flagTile_next {bs : List Byte} (h : HasTile s p b j u r) (hp : p.isPrefix = false) (hidx : p.idx = Map.get 0 j.folded u) (hpos : 0 < p.idx)
    (hn : p.idx + 1 < maskCount j.mask) (hread : s.mem.read j.ctx (tileKey j u) (tilePa j u) 64 = some bs) :
    s.flagTile p = (foldedTo s b j u (folded p.op ((tilesOf bs).headD []) p.tile) (p.idx + 1)).answer p 0 := by
  rw [hidx] at hpos hn
  simp [State.flagTile, h.find, h.tile, hp, hidx, Nat.ne_of_gt hpos, Nat.ne_of_lt hn, hread, statusOk, foldedTo, foldTile_eq]

/-- A tile written for a job is answered, stands in memory, and its job is in the table with its note of it. -/
theorem tileWritten_answered {k : Job} {tile : List W32} (hself : p.src ≠ selfPkg s) (hjob : s.job? b j.seq = some j) (hseq : k.seq = j.seq)
    (l : List Contrib) :
    let t := (((noted s l).withMem (writeTile (noted s l) j u tile)).putJob b k).answer p 0
    Answered s t p 0 ∧ t.mem = s.mem.write j.ctx (tileKey j u) (tilePa j u) (tileBytes tile) ∧ t.job? b j.seq = some k := by
  refine ⟨answered_answer rfl hself, answer_mem, ?_⟩
  rw [job?_congr answer_bays, ← hseq]
  exact job?_putJob (j := j) (by rw [hseq]; exact hjob)

end

/-! ## The combining table (05 R139 to R141) -/

section
variable {s : State} {p : Contrib} {e : Comb}

/-- The entry that a contribution makes. -/
def freshComb (p : Contrib) : Comb := { die := dieOfPa p.dst, ctx := p.ctx, group := p.group, dst := p.dst, k := 0, acc := [], first := p }

theorem foldIn_unparked (h : e.parked = none) : s.foldIn e p =
    if (foldOne e p).k = maskCount e.first.mask then ((s.answer p 0).putComb e (foldOne e p)).combDone (foldOne e p)
    else (s.answer p 0).putComb e (foldOne e p) := by
  have h1 : (foldOne e p).parked = none := h
  have h2 : (foldOne e p).first = e.first := rfl
  simp only [State.foldIn, h1, h2, statusOk]

theorem foldOne_pos (h : 0 < e.k) : foldOne e p = { e with k := e.k + 1, acc := folded e.first.op e.acc p.tile } := by
  simp only [foldOne, Nat.ne_of_gt h, if_false, foldTile_eq]

theorem combine_fresh (hkey : keyOf p ∉ s.fab.flaggedKeys) (hat : combAt s p = none)
    (hroom : (s.fab.combs.filter fun e => e.die = dieOfPa p.dst).length < 4096) : s.combine p =
      let s1 := s.withFab { s.fab with combs := s.fab.combs ++ [freshComb p] }
      if p.idx = 0 then s1.foldIn (freshComb p) p else s1.putComb (freshComb p) { freshComb p with parked := some p } := by
  simp [State.combine, hkey, hat, combEntries, Nat.not_le.2 hroom, freshComb]

theorem combine_at (hkey : keyOf p ∉ s.fab.flaggedKeys) (hat : combAt s p = some e) : s.combine p =
    if p.idx = e.k then s.foldIn e p else if p.idx < e.k then s.answer p 0 else if e.parked.isNone then s.putComb e { e with parked := some p }
    else s.combOverflow (some e) p := by
  simp [State.combine, hkey, hat, statusOk]

variable {before after : List Comb}

theorem putComb_combs {new : Comb} (hs : s.fab.combs = before ++ e :: after) (he : ∀ x ∈ before ++ after, x ≠ e) :
    (s.putComb e new).fab.combs = before ++ new :: after :=
  (congrArg (List.map _) hs).trans (map_only (fun _ => new) rfl he)

theorem dropComb_combs (hs : s.fab.combs = before ++ e :: after) (he : e ∉ before ++ after) : (s.dropComb e).fab.combs = before ++ after :=
  (congrArg (List.filter _) hs).trans (filter_but_one (by simp) fun x hx => decide_eq_true fun hxe => he (hxe ▸ hx))

/-- A whole fold that meets no job of its group is written at its address. -/
theorem combDone_noJob (h : collJobs s e.ctx e.group = []) :
    s.combDone e = (s.dropComb e).withMem (s.mem.write e.ctx 0 e.dst (tileBytes e.acc)) := by
  have hdrop : collJob (s.dropComb e) e.ctx e.group = none := congrArg List.head? h
  simp only [State.combDone, hdrop]
  rfl

end

end Sys2Proof.Consistency
end

section
/-! Aborts of collectives (05 R144; 13 R366): the jobs that fail, and what the routers hold of the group. -/

namespace Sys2Proof.Consistency
open Sys2Proof Sys2Proof.Machine Sys2Proof.Laws Sys2Proof.Claim

/-! ## A collective that fails leaves the table, and reports (04 R102) -/

section
variable {s : State} {b n : Nat} {j : Job} {cl : Cl} {no : Nat} {f : Flight} {pre post : List Flight}

theorem putBay_putBay (s : State) (b : Nat) (y z : Bay) : (s.putBay b y).putBay b z = s.putBay b z := by
  simp only [State.putBay, set_set]

/-- A job that is freed has left its bay's table, and nothing outside its bay has changed. -/
theorem freeJob_putBay (s : State) (b : Nat) (j : Job) : ∃ y, s.freeJob b j = s.putBay b y ∧ ∀ k ∈ y.jobs, k.seq ≠ j.seq := by
  have hrest : ∀ k ∈ ((s.bay b).jobs.filter fun k => k.seq ≠ j.seq).map (fun k => { k with preds := k.preds.filter fun x => x ≠ j.seq }),
      k.seq ≠ j.seq := by
    intro k hk
    obtain ⟨x, hx, rfl⟩ := List.mem_map.1 hk
    simpa using (List.mem_filter.1 hx).2
  unfold State.freeJob
  simp only
  split
  · simp only [State.meet, bay_putBay_same, putBay_putBay]
    refine ⟨_, rfl, fun k hk => ?_⟩
    obtain ⟨x, hx, rfl⟩ := List.mem_map.1 hk
    split <;> exact hrest x hx
  · exact ⟨_, rfl, hrest⟩

theorem job?_putBay_none {y : Bay} {seq : W32} (h : ∀ k ∈ y.jobs, k.seq ≠ seq) : (s.putBay b y).job? b seq = none := by
  rw [State.job?, bay_putBay_same]
  exact List.find?_eq_none.2 fun k hk => by simpa using h k hk

/-- What its group has sent, and what has come for it, are all that a collective gives up. -/
theorem dropContribs_lists (s : State) (j : Job) : ∃ rs qs, s.dropContribs j = s.withFab { s.fab with resend := rs, arrived := qs } := by
  unfold State.dropContribs
  split
  · exact ⟨_, _, rfl⟩
  · exact ⟨s.fab.resend, s.fab.arrived, rfl⟩

/-- A lane that fails leaves its cluster's flights, whatever match was to be raised behind it. -/
theorem failFlight_leaves (hs : (s.cluster n cl).flights = pre ++ f :: post) (hno : f.no = no) (hother : ∀ g ∈ pre ++ post, g.no ≠ no) :
    ∃ c', s.failFlight n cl no = s.putCore n c' ∧ c'.mem = (s.core n).mem ∧ (c'.cluster cl).flights = pre ++ post := by
  have hmap := map_only (P := fun g : Flight => g.no = no) (fun g => { g with watch := none }) hno hother
  unfold State.failFlight
  simp only
  rw [completeFlight_inFlight (f := { f with watch := none }) (pre := pre) (post := post)
    ⟨by rw [State.cluster, core_putCore_same, Core.fillLeaf, modifyTree_cluster, cluster_withCues, cluster_putCluster_same, ← hmap, ← hs]; rfl,
      hno, rfl, hother⟩, State.putCluster, putCore_putCore]
  exact ⟨_, rfl, by simp [Core.fillLeaf], by simp⟩

/-- A collective that fails: its lane ends with a report, its job leaves the table, and its group's lists go. -/
theorem failJob_collective (hk : cardKind j.card = 3) (h : JobFlight s n j f pre post) (t : Trap) : ∃ c' y rs qs,
    s.failJob b j t = ((s.putBay b y).withFab { s.fab with resend := rs, arrived := qs }).putCore n c' ∧ (∀ k ∈ y.jobs, k.seq ≠ j.seq) ∧
      (c'.cluster j.cl).flights = pre ++ post ∧
      c'.mem.reports = (s.core n).mem.reports ++ [{ cl := j.cl, trap := { t with lseq := j.iseq, job := jobWord j.cl j.index j.seq }, who := j.who }] := by
  obtain ⟨hcore, htarget, hnode, hflights, hno, hother⟩ := h
  obtain ⟨y, hy, hgone⟩ := freeJob_putBay s b j
  obtain ⟨rs, qs, hlists⟩ := dropContribs_lists (s.putBay b y) j
  obtain ⟨c', hfail, hmem, hleft⟩ := failFlight_leaves (s := (s.putBay b y).withFab { (s.putBay b y).fab with resend := rs, arrived := qs })
    hflights hno hother
  have hfree : s.failJob b j t = ((s.freeJob b j).dropContribs j).tellFailure n (some n) none j.cl j.flight j.who
      { t with lseq := j.iseq, job := jobWord j.cl j.index j.seq } := by
    simp [State.failJob, hk, hnode, hcore, htarget]
  rw [hfree, hy, hlists]
  simp only [State.tellFailure, hfail, State.postReport, core_putCore_same, putCore_putCore]
  refine ⟨_, y, rs, qs, rfl, hgone, ?_, ?_⟩
  · rw [← hleft]
    cases j.cl <;> rfl
  · simp only [hmem]
    rfl

end

/-! ## The group freed, and the abort acknowledged -/

section
variable (s : State) (src group : Nat) (ctx : W16) (mask : W64)

/-- The package once its jobs of a group have failed. -/
def jobsAborted : State :=
  (collJobs s ctx group).foldl (fun s x => s.failJob x.1 x.2 { cause := .collectiveAborted, info := openInfo s }) s

theorem takeAbort_cores : (s.takeAbort src ctx group mask).cores = (jobsAborted s group ctx).cores := rfl
theorem takeAbort_bays : (s.takeAbort src ctx group mask).bays = (jobsAborted s group ctx).bays := rfl
theorem takeAbort_mem : (s.takeAbort src ctx group mask).mem = (jobsAborted s group ctx).mem := rfl
theorem takeAbort_sent : (s.takeAbort src ctx group mask).fab.sent = (jobsAborted s group ctx).fab.sent ++ [.abortAck src ctx group] := rfl
theorem takeAbort_aborting : (s.takeAbort src ctx group mask).fab.aborting = (jobsAborted s group ctx).fab.aborting := rfl

/-- What is left of a list from which all that is of a group was taken is of no such group. -/
theorem not_mine_of_mem {α : Type} {l : List α} {c : α → W16} {g : α → Nat} {x : α}
    (h : x ∈ l.filter fun x => !(decide (c x = ctx) && decide (g x = group))) : ¬ (c x = ctx ∧ g x = group) :=
  fun ⟨hc, hg⟩ => by simpa [hc, hg] using (List.mem_filter.1 h).2

theorem takeAbort_combs : ∀ e ∈ (s.takeAbort src ctx group mask).fab.combs, ¬ (e.ctx = ctx ∧ e.group = group) := fun _ he =>
  not_mine_of_mem group ctx (c := Comb.ctx) (g := Comb.group) he

theorem takeAbort_waiting : ∀ p ∈ (s.takeAbort src ctx group mask).fab.arrived ++ (s.takeAbort src ctx group mask).fab.kept,
    ¬ (p.ctx = ctx ∧ p.group = group) := fun _ hp =>
  (List.mem_append.1 hp).elim (not_mine_of_mem group ctx (c := Contrib.ctx) (g := Contrib.group))
    (not_mine_of_mem group ctx (c := Contrib.ctx) (g := Contrib.group))

theorem takeAbort_flaggedKeys : ∀ k ∈ (s.takeAbort src ctx group mask).fab.flaggedKeys, ¬ (k.1 = ctx ∧ k.2.1 = group) := fun _ hk =>
  not_mine_of_mem group ctx (c := fun k : W16 × Nat × Nat => k.1) (g := fun k => k.2.1) hk

theorem takeAbort_resend : ∀ x ∈ (s.takeAbort src ctx group mask).fab.resend, ¬ (x.1.ctx = ctx ∧ x.1.group = group) := fun _ hx =>
  not_mine_of_mem group ctx (c := fun x : Contrib × Nat => x.1.ctx) (g := fun x => x.1.group) hx

theorem takeAbort_abortedHere : (ctx, group) ∈ (s.takeAbort src ctx group mask).fab.abortedHere := by
  have hnoted : ∀ l : List (W16 × Nat), (ctx, group) ∈ (if l.contains (ctx, group) then l else l ++ [(ctx, group)]) := by
    intro l
    split
    · next h => exact List.contains_iff_mem.1 h
    · exact List.mem_append_right _ List.mem_cons_self
  exact hnoted _

variable {s group ctx}

theorem jobsAborted_none (h : collJobs s ctx group = []) : jobsAborted s group ctx = s := by
  rw [jobsAborted, h, List.foldl_nil]

theorem jobsAborted_one {b : Nat} {j : Job} (h : collJobs s ctx group = [(b, j)]) :
    jobsAborted s group ctx = s.failJob b j { cause := .collectiveAborted, info := openInfo s } := by
  rw [jobsAborted, h, List.foldl_cons, List.foldl_nil]

/-- Where the package's jobs fail without a write, and with nothing sent, the group is freed, noted as aborted, and the abort acknowledged. -/
theorem exec_collectiveAbort_frees (hmem : (jobsAborted s group ctx).mem = s.mem) (hsent : (jobsAborted s group ctx).fab.sent = s.fab.sent)
    (haborting : (jobsAborted s group ctx).fab.aborting = s.fab.aborting) :
    let t := s.takeAbort src ctx group mask
    exec (.collectiveAbort src ctx group mask) s = .next t ∧ t.mem = s.mem ∧ (∀ e ∈ t.fab.combs, ¬ (e.ctx = ctx ∧ e.group = group)) ∧
      (∀ p ∈ t.fab.arrived ++ t.fab.kept, ¬ (p.ctx = ctx ∧ p.group = group)) ∧ (∀ k ∈ t.fab.flaggedKeys, ¬ (k.1 = ctx ∧ k.2.1 = group)) ∧
      (∀ x ∈ t.fab.resend, ¬ (x.1.ctx = ctx ∧ x.1.group = group)) ∧ (ctx, group) ∈ t.fab.abortedHere ∧
      t.fab.sent = s.fab.sent ++ [.abortAck src ctx group] ∧ t.fab.aborting = s.fab.aborting :=
  ⟨rfl, hmem, takeAbort_combs s src group ctx mask, takeAbort_waiting s src group ctx mask, takeAbort_flaggedKeys s src group ctx mask,
    takeAbort_resend s src group ctx mask, takeAbort_abortedHere .., by rw [takeAbort_sent, hsent], haborting⟩

end

/-! ## Acknowledgements -/

/-- The sender is taken off its group's list, and a group with no one left on it off the list of those aborted. -/
theorem abortAcked_only {s : State} {src group : Nat} {ctx : W16} {before after : List (W16 × Nat × List Nat)} {ks : List Nat}
    (h : s.fab.aborting = before ++ (ctx, group, ks) :: after) (hothers : ∀ a ∈ before ++ after, a.2.2 ≠ [] ∧ (a.1, a.2.1) ≠ (ctx, group)) :
    s.abortAcked src ctx group = s.withFab { s.fab with aborting := before ++
      (if (ks.filter fun k => k ≠ src) = [] then [] else [(ctx, group, ks.filter fun k => k ≠ src)]) ++ after } := by
  have hmap := map_only (P := fun a : W16 × Nat × List Nat => (a.1 = ctx && decide (a.2.1 = group)) = true)
    (fun a => (a.1, a.2.1, a.2.2.filter fun k => k ≠ src)) (x := (ctx, group, ks)) (pre := before) (post := after) (by simp)
    fun a ha hmine => (hothers a ha).2 (by simpa using hmine)
  have hbefore : before.filter (fun a => decide (a.2.2 ≠ [])) = before :=
    List.filter_eq_self.2 fun a ha => decide_eq_true (hothers a (List.mem_append_left _ ha)).1
  have hafter : after.filter (fun a => decide (a.2.2 ≠ [])) = after :=
    List.filter_eq_self.2 fun a ha => decide_eq_true (hothers a (List.mem_append_right _ ha)).1
  simp only [State.abortAcked, h, hmap]
  rw [List.filter_append, hbefore, List.filter_cons, hafter]
  split
  · next hleft =>
    rw [if_neg (of_decide_eq_true hleft), List.append_assoc]
    rfl
  · next hleft =>
    rw [if_pos (by simpa using hleft), List.append_nil]

end Sys2Proof.Consistency
end

section
/-! Collectives, as `exec` performs them (05 R136, R137, R139 to R142, R144; 10 R284; 13 R366; 02 R70). -/

namespace Sys2Proof.Consistency
open Sys2Proof Sys2Proof.Machine Sys2Proof.Laws Sys2Proof.Claim

/-! ## A contribution comes in -/

section
variable {s : State} {p : Contrib}

/-- A tile placed here crosses to the die that holds its bytes. -/
theorem exec_contribution_crosses (hc : current s p.src p.sInc p.rInc = true) (hst : ¬ Stays p) :
    let from_ := Config.ingressDie p.src 0 0 % 4
    let die := dieOfPa p.dst % 4
    ∃ t, exec (.contribution p) s = .next t ∧ t.mem = s.mem ∧ t.fab.sent = s.fab.sent ∧ t.bays = s.bays ∧ t.fab.came = s.fab.came + 1 ∧
      (t.die from_).sent = (s.die from_).sent + 1 ∧ (t.die die).wire = (s.die die).wire ++
        [{ src := from_, came := s.fab.came, no := (s.die from_).sent + 1, req := none, tile := some p,
           stamp := (s.die from_).vector.setIfInBounds from_ ((s.die from_).sent + 1) }] := by
  obtain ⟨hp, hd⟩ := not_or.1 hst
  exact ⟨_, congrArg Host.Outcome.next (contribPacket_crosses hc (Bool.not_eq_false _ ▸ hp) hd), cross_mem .., cross_sent .., rfl, cross_came ..,
    cross_die_src _ _ _ _ _ hd, cross_die_dst _ _ _ _ _ hd⟩

theorem exec_contribution_asleep (hc : current s p.src p.sInc p.rInc = true) (hab : (p.ctx, p.group) ∉ s.fab.abortedHere) (hself : p.src ≠ selfPkg s)
    (hst : Stays p) (h : (awakeAll s p.dst 64).isOk = false) : ∃ t, exec (.contribution p) s = .next t ∧ t.mem = s.mem ∧
      t.fab.kept = s.fab.kept ++ [p] ∧ t.fab.combs = s.fab.combs ∧ t.fab.sent = s.fab.sent := by
  obtain ⟨b, hb⟩ := takeContrib_asleep hab hself h
  refine ⟨_, congrArg Host.Outcome.next ((contribPacket_stays hc hst).trans hb), wakeSlice_mem b, ?_⟩
  simp only [State.keep, withFab_fab, wakeSlice_fab, and_self]

theorem exec_contribution_placed (h : Live s p) (hag : ∀ x ∈ collJobs s p.ctx p.group, agrees x.2 p = true) (hp : p.place = true) :
    ∃ l, exec (.contribution p) s = .next ((noted s l).placeTile p) := by
  obtain ⟨l, hl⟩ := contribPacket_live h hag
  exact ⟨l, congrArg Host.Outcome.next (hl.trans (if_pos hp))⟩

theorem exec_contribution_combined (h : Live s p) (hjobs : collJobs s p.ctx p.group = []) (hp : p.place = false) (hf : p.flagged = false) :
    ∃ l, exec (.contribution p) s = .next ((noted s l).combine p) := by
  obtain ⟨l, hl⟩ := contribPacket_live h (by simp [hjobs])
  exact ⟨l, congrArg Host.Outcome.next (by rw [hl]; simp [hp, hf])⟩

theorem exec_flaggedTile_folded (h : Live s p) (hag : ∀ x ∈ collJobs s p.ctx p.group, agrees x.2 p = true) (hp : p.place = false) :
    ∃ l, exec (.flaggedTile p) s = .next ((noted s l).flagTile (flaggedOf p)) := by
  have hflagged : Live s (flaggedOf p) := ⟨h.current, h.wanted, h.foreign, h.stays, h.on⟩
  obtain ⟨l, hl⟩ := contribPacket_live hflagged hag
  exact ⟨l, congrArg Host.Outcome.next (hl.trans (by simp [flaggedOf, hp]))⟩

end

/-! ## At the combining table -/

section
variable {s : State} {p : Contrib} {e : Comb} {before after : List Comb}

/-- What a contribution that is taken into the table leaves: memory m, the entries cs, and its answer. -/
def Folds (s : State) (p : Contrib) (m : Memory) (cs : List Comb) : Prop :=
  (s.combine p).mem = m ∧ Answered s (s.combine p) p 0 ∧ (s.combine p).fab.combs = cs

/-- What one that waits in the table, unanswered, leaves. -/
def Parks (s : State) (p : Contrib) (cs : List Comb) : Prop :=
  (s.combine p).mem = s.mem ∧ (s.combine p).fab.sent = s.fab.sent ∧ (s.combine p).fab.combs = cs

section
variable (h : Live s p) (hjobs : collJobs s p.ctx p.group = []) (hp : p.place = false) (hf : p.flagged = false)
include h hjobs hp hf

theorem exec_contribution_folds {m : Memory} {cs : List Comb} (hfolds : ∀ l, Folds (noted s l) p m cs) :
    ∃ t, exec (.contribution p) s = .next t ∧ t.mem = m ∧ Answered s t p 0 ∧ t.fab.combs = cs := by
  obtain ⟨l, hex⟩ := exec_contribution_combined h hjobs hp hf
  exact ⟨_, hex, hfolds l⟩

theorem exec_contribution_parks {cs : List Comb} (hparks : ∀ l, Parks (noted s l) p cs) :
    ∃ t, exec (.contribution p) s = .next t ∧ t.mem = s.mem ∧ t.fab.sent = s.fab.sent ∧ t.fab.combs = cs := by
  obtain ⟨l, hex⟩ := exec_contribution_combined h hjobs hp hf
  exact ⟨_, hex, hparks l⟩

end

section
variable (hkey : keyOf p ∉ s.fab.flaggedKeys)
include hkey

section
variable (hat : combAt s p = none) (hroom : (s.fab.combs.filter fun e => e.die = dieOfPa p.dst).length < 4096) (hnew : freshComb p ∉ s.fab.combs)
include hat hroom hnew

theorem combine_starts (hself : p.src ≠ selfPkg s) (hidx : p.idx = 0) (hn : 2 ≤ maskCount p.mask) :
    Folds s p s.mem (s.fab.combs ++ [{ freshComb p with k := 1, acc := p.tile }]) := by
  have hmore : ¬ (foldOne (freshComb p) p).k = maskCount (freshComb p).first.mask := show ¬ 1 = maskCount p.mask by omega
  have heq := combine_fresh hkey hat hroom
  rw [if_pos hidx, foldIn_unparked rfl, if_neg hmore] at heq
  rw [Folds, heq]
  refine ⟨answer_mem, answered_answer rfl hself, putComb_combs (before := s.fab.combs) (after := []) answer_combs fun x hx hxe => hnew ?_⟩
  simpa [hxe] using hx

theorem combine_parks_fresh (hidx : p.idx ≠ 0) : Parks s p (s.fab.combs ++ [{ freshComb p with parked := some p }]) := by
  have heq := combine_fresh hkey hat hroom
  rw [if_neg hidx] at heq
  rw [Parks, heq]
  refine ⟨rfl, rfl, putComb_combs (before := s.fab.combs) (after := []) rfl fun x hx hxe => hnew ?_⟩
  simpa [hxe] using hx

end

section
variable (hat : combAt s p = some e)
include hat

/-- One already folded is answered again. -/
theorem combine_again (hself : p.src ≠ selfPkg s) (hlt : p.idx < e.k) : Folds s p s.mem s.fab.combs := by
  rw [Folds, combine_at hkey hat, if_neg (Nat.ne_of_lt hlt), if_pos hlt]
  exact ⟨answer_mem, answered_answer rfl hself, answer_combs⟩

variable (hs : s.fab.combs = before ++ e :: after) (he : ∀ x ∈ before ++ after, x ≠ e) (hpark : e.parked = none)
include hs he hpark

theorem combine_parks (hlt : e.k < p.idx) : Parks s p (before ++ { e with parked := some p } :: after) := by
  rw [Parks, combine_at hkey hat, if_neg (Nat.ne_of_gt hlt), if_neg (Nat.lt_asymm hlt), if_pos (by rw [hpark]; rfl)]
  exact ⟨rfl, rfl, putComb_combs hs he⟩

theorem combine_folds (hself : p.src ≠ selfPkg s) (hidx : p.idx = e.k) (hn : e.k + 1 < maskCount e.first.mask) :
    Folds s p s.mem (before ++ foldOne e p :: after) := by
  have hmore : ¬ (foldOne e p).k = maskCount e.first.mask := Nat.ne_of_lt hn
  rw [Folds, combine_at hkey hat, if_pos hidx, foldIn_unparked hpark, if_neg hmore]
  exact ⟨answer_mem, answered_answer rfl hself, putComb_combs (answer_combs.trans hs) he⟩

/-- The fold of all ranks leaves the table for its destination. -/
theorem combine_completes (hself : p.src ≠ selfPkg s) (hidx : p.idx = e.k) (hn : e.k + 1 = maskCount e.first.mask)
    (hjobs : collJobs s e.ctx e.group = []) (hlast : foldOne e p ∉ before ++ after) :
    Folds s p (s.mem.write e.ctx 0 e.dst (tileBytes (foldOne e p).acc)) (before ++ after) := by
  have hall : (foldOne e p).k = maskCount e.first.mask := hn
  rw [Folds, combine_at hkey hat, if_pos hidx, foldIn_unparked hpark, if_pos hall,
    combDone_noJob (s := (s.answer p 0).putComb e (foldOne e p)) (e := foldOne e p) ((collJobs_congr answer_bays e.ctx e.group).trans hjobs)]
  exact ⟨congrArg (fun m : Memory => m.write e.ctx 0 e.dst (tileBytes (foldOne e p).acc)) answer_mem, answered_answer rfl hself,
    dropComb_combs (putComb_combs (answer_combs.trans hs) he) hlast⟩

end
end
end

/-! ## At the destination of a job -/

section
variable {s : State} {p : Contrib} {b u : Nat} {j : Job} {r : Run}

/-- A tile is refused, and nothing is written. -/
theorem exec_flaggedTile_refused (h : Live s p) (hag : ∀ x ∈ collJobs s p.ctx p.group, agrees x.2 p = true) (hp : p.place = false)
    (ht : HasTile s p b j u r) (ho : OutOfOrder p (Map.get 0 j.folded u)) :
    ∃ t, exec (.flaggedTile p) s = .next t ∧ t.mem = s.mem ∧ Answered s t p 4 := by
  obtain ⟨l, hex⟩ := exec_flaggedTile_folded h hag hp
  have ht' : HasTile (noted s l) (flaggedOf p) b j u r := ⟨ht.only, ht.started, ht.tile⟩
  rw [flagTile_outOfOrder ht' ho] at hex
  exact ⟨_, hex, answer_mem, answered_answer (p := flaggedOf p) rfl h.foreign⟩

/-- A flagged tile that is folded is answered; memory has the new fold, and the job its count. -/
theorem exec_flaggedTile_written (h : Live s p) (hag : ∀ x ∈ collJobs s p.ctx p.group, agrees x.2 p = true) (hp : p.place = false)
    (hjob : s.job? b j.seq = some j) {tile : List W32} {count : Nat}
    (hfold : ∀ l, (noted s l).flagTile (flaggedOf p) = (foldedTo (noted s l) b j u tile count).answer (flaggedOf p) 0) :
    ∃ t, exec (.flaggedTile p) s = .next t ∧ Answered s t p 0 ∧ t.mem = s.mem.write j.ctx (tileKey j u) (tilePa j u) (tileBytes tile) ∧
      ∃ k, t.job? b j.seq = some k ∧ Map.get 0 k.folded u = count := by
  obtain ⟨l, hex⟩ := exec_flaggedTile_folded h hag hp
  obtain ⟨hans, hmem, hk⟩ := tileWritten_answered (p := flaggedOf p) (u := u) (tile := tile)
    (k := { j with folded := Map.set j.folded u count }) h.foreign hjob rfl l
  exact ⟨_, hex.trans (congrArg Host.Outcome.next (hfold l)), hans, hmem, _, hk, get_set_same ..⟩

/-- A byte-exact tile is written where its job has it. -/
theorem exec_contribution_written (h : Live s p) (hag : ∀ x ∈ collJobs s p.ctx p.group, agrees x.2 p = true) (hp : p.place = true)
    (ht : HasTile s p b j u r) (hjob : s.job? b j.seq = some j) :
    ∃ t, exec (.contribution p) s = .next t ∧ Answered s t p 0 ∧ t.mem = s.mem.write j.ctx (tileKey j u) (tilePa j u) (tileBytes p.tile) ∧
      ∃ k, t.job? b j.seq = some k ∧ Map.get [] k.tiles u = p.tile := by
  obtain ⟨l, hex⟩ := exec_contribution_placed h hag hp
  have ht' : HasTile (noted s l) p b j u r := ⟨ht.only, ht.started, ht.tile⟩
  obtain ⟨hans, hmem, hk⟩ := tileWritten_answered (p := p) (u := u) (tile := p.tile)
    (k := { j with tiles := Map.set j.tiles u p.tile }) h.foreign hjob rfl l
  exact ⟨_, hex.trans (congrArg Host.Outcome.next (placeTile_started ht')), hans, hmem, _, hk, get_set_same ..⟩

end

/-- Settles O41, clause by clause: what comes in and is dropped, crosses, or waits; what meets no job of its group here, and what meets one; and
what an abort and its acknowledgement free. -/
theorem collectivesFoldAndAbort : Obligations.CollectivesFoldAndAbort := by
  refine ⟨fun s p => ⟨fun hc => ?stale, fun hab hc hst => ?aborted, exec_contribution_crosses,
    fun ⟨hc, hab, hself⟩ hst hsl => exec_contribution_asleep hc hab hself hst hsl, fun ⟨⟨hc, hab, hself⟩, hst, hon⟩ hjobs => ⟨fun hp => ?refused,
      fun hp hf _ hkey => ⟨fun hat hroom hnew => ⟨fun hidx hn => ?starts, fun hidx => ?parksFresh⟩, fun e before after hs he hat =>
        ⟨fun hlt => ?again, fun hlt hpark => ?parks, fun hidx hpos hpark hn => ?folds, fun hidx hpos hpark hn hctx hgroup hlast => ?completes⟩⟩⟩,
    fun b j u r ⟨⟨hc, hab, hself⟩, hst, hon⟩ honly hagrees hstarted htile hjob => ?job⟩,
    fun s src group ctx mask => ⟨fun hjobs => ?noJob, fun b n j f pre post honly hjob hk _ hflight => ?jobFails⟩,
    fun s src group ctx before after ks h hothers => congrArg Host.Outcome.next (abortAcked_only h hothers)⟩
  case stale => exact ⟨congrArg Host.Outcome.next (contribPacket_stale hc), congrArg Host.Outcome.next (contribPacket_stale (p := flaggedOf p) hc)⟩
  case aborted => exact congrArg Host.Outcome.next ((contribPacket_stays hc hst).trans (takeContrib_aborted hab))
  case refused =>
    obtain ⟨l, hex⟩ := exec_contribution_placed ⟨hc, hab, hself, hst, hon⟩ (by simp [hjobs]) hp
    rw [placeTile_none (s := noted s l) hjobs] at hex
    exact ⟨_, hex, answer_mem, answer_bays, answered_answer rfl hself⟩
  case starts =>
    exact exec_contribution_folds ⟨hc, hab, hself, hst, hon⟩ hjobs hp hf fun _ => combine_starts hkey hat hroom hnew hself hidx hn
  case parksFresh =>
    exact exec_contribution_parks ⟨hc, hab, hself, hst, hon⟩ hjobs hp hf fun _ => combine_parks_fresh hkey hat hroom hnew hidx
  case again =>
    obtain ⟨t, hex, hmem, hans, hcombs⟩ := exec_contribution_folds ⟨hc, hab, hself, hst, hon⟩ hjobs hp hf (m := s.mem)
      (cs := s.fab.combs) fun _ => combine_again hkey hat hself hlt
    exact ⟨t, hex, hmem, hcombs, hans⟩
  case parks =>
    exact exec_contribution_parks ⟨hc, hab, hself, hst, hon⟩ hjobs hp hf fun _ => combine_parks hkey hat hs he hpark hlt
  case folds =>
    rw [← foldOne_pos hpos]
    exact exec_contribution_folds ⟨hc, hab, hself, hst, hon⟩ hjobs hp hf fun _ => combine_folds hkey hat hs he hpark hself hidx hn
  case completes =>
    have hnone : collJobs s e.ctx e.group = [] := by rw [hctx, hgroup, hjobs]
    rw [← foldOne_pos hpos] at hlast
    have hfold : ∀ l, Folds (noted s l) p (s.mem.write e.ctx 0 e.dst (tileBytes (foldOne e p).acc)) (before ++ after) := fun l =>
      combine_completes (s := noted s l) hkey hat hs he hpark hself hidx hn hnone hlast
    rw [foldOne_pos hpos] at hfold
    obtain ⟨t, hex, hmem, hans, hcombs⟩ := exec_contribution_folds ⟨hc, hab, hself, hst, hon⟩ hjobs hp hf hfold
    exact ⟨t, hex, hans, hcombs, hmem⟩
  case job =>
    have hlive : Live s p := ⟨hc, hab, hself, hst, hon⟩
    have htiles : HasTile s p b j u r := ⟨honly, hstarted, htile⟩
    have hnoted : ∀ l, HasTile (noted s l) (flaggedOf p) b j u r := fun _ => ⟨honly, hstarted, htile⟩
    have hag : ∀ x ∈ collJobs s p.ctx p.group, agrees x.2 p = true := by simpa [honly] using hagrees
    refine ⟨fun hp => exec_contribution_written hlive hag hp htiles hjob, fun hp hpre hlt => ⟨fun h0 => ?_, fun h0 => ?_⟩,
      fun hp hpre => ⟨fun hne => ?_, fun hidx h0 hn => ?_, fun bs hidx hpos hn hread => ?_⟩⟩
    · exact exec_flaggedTile_refused hlive hag hp htiles (by rwa [OutOfOrder, if_pos hpre])
    · exact exec_flaggedTile_written hlive hag hp hjob fun l => flagTile_isPrefix (hnoted l) hpre h0 hlt
    · exact exec_flaggedTile_refused hlive hag hp htiles (by rwa [OutOfOrder, if_neg (Bool.eq_false_iff.1 hpre)])
    · exact exec_flaggedTile_written hlive hag hp hjob fun l => flagTile_first (hnoted l) hpre hidx h0 hn
    · exact exec_flaggedTile_written hlive hag hp hjob fun l => flagTile_next (hnoted l) hpre hidx hpos hn hread
  case noJob =>
    have hsame := jobsAborted_none hjobs
    exact ⟨_, exec_collectiveAbort_frees src mask (by rw [hsame]) (by rw [hsame]) (by rw [hsame]), by rw [takeAbort_cores, hsame]⟩
  case jobFails =>
    obtain ⟨c', y, rs, qs, hfails, hgone, hleft, hreports⟩ :=
      failJob_collective (b := b) hk hflight { cause := .collectiveAborted, info := openInfo s }
    have hjobs := (jobsAborted_one honly).trans hfails
    have hcore : (s.takeAbort src ctx group mask).core n = c' := by
      rw [State.core, takeAbort_cores, hjobs]
      exact core_putCore_same _ n c'
    have hbays := (takeAbort_bays s src group ctx mask).trans (congrArg State.bays hjobs)
    refine ⟨_, exec_collectiveAbort_frees src mask (by rw [hjobs]; rfl) (by rw [hjobs]; rfl) (by rw [hjobs]; rfl),
      (job?_congr hbays j.seq).trans (job?_putBay_none (s := s) hgone), ?_, ?_⟩
    · rw [State.cluster, hcore, hleft]
    · rw [hcore, hreports]
      exact ⟨_, rfl, rfl, rfl, rfl, rfl⟩

end Sys2Proof.Consistency
end
